-- ==== Sys2Proof/Word.lean ====
section
/-! DEFINITION. The plain widths of the Dolmac 420: octets, clock readings, 16-bit counts, and the numbering
ranges of Table 1.2 (stations, zones, duct systems, branches, channels, driven outputs). -/

namespace Sys2Proof

/-- An octet (Introduction, 0.6.8). -/
abbrev Byte := BitVec 8

/-- A reading of the station clock: a 32-bit count of milliseconds that wraps (Introduction 0.6.2, R149). -/
abbrev Time := BitVec 32

/-- A 16-bit count or record value (R23, R64, R79, R100, R119, R159). -/
abbrev Count := BitVec 16

/-- A set of zones: bit z stands for zone z (Formats, opening paragraph). -/
abbrev ZoneSet := BitVec 16

/-- A set of station numbers: bit n stands for station n (Formats, opening paragraph). -/
abbrev StationSet := BitVec 32

/-- A station number 1 to 31; 0 is invalid (Table 1.2). -/
abbrev Station := Fin 32

abbrev Zone := Fin 16
abbrev System := Fin 4
abbrev Branch := Fin 16
abbrev Channel := Fin 4
abbrev Output := Fin 4

end Sys2Proof
end

