-- ==== Sys2Proof/Config.lean ====
section
/-! DEFINITION. The durations and limits the part fixes (no image parameter changes them), each with the rule that
states it. The spec leaves no result value open after a command, so there is no free value here. -/

namespace Sys2Proof.Config

/-- R149: an instant becomes aged 2^30 ms after its reading. -/
def agedAfter : Nat := 2 ^ 30
/-- R150: a read that has not delivered its 256 octets in this time fails. -/
def readLimit : Nat := 100
/-- R150: a failed read is tried again after this time. -/
def readRetry : Nat := 10
/-- R150: the reads made in all. -/
def readsInAll : Nat := 3
/-- R150: the bus address of the serial memory, and the internal address at which a read begins. -/
def memoryAddress : BitVec 7 := 0x50#7
def imageStart : Byte := 0#8
/-- R150: the octets of the image. -/
def imageOctets : Nat := 256
/-- R164: the format code the part accepts. -/
def formatCode : Byte := 0x2C#8
/-- R154: the length of LISTEN. -/
def listen : Nat := 2000
/-- R154: the length of SETTLE. -/
def settle : Nat := 3000
/-- R9: the probe timer. -/
def probe : Nat := 5000
/-- R9: the consecutive TX errors that make a line FAILED. -/
def txErrorLimit : Nat := 16
/-- R3, Table 1.6: the bit times of the longest notice, a STATE. -/
def noticeBits : Nat := 180
/-- R17: the STATE interval. -/
def stateInterval : Nat := 250
/-- R20, R22, R27, R28: the time after which a station, a line or a clash is no longer recent. -/
def freshness : Nat := 1500
/-- R39: the debounce time of the keys, the heat input and the feedbacks. -/
def debounce : Nat := 50
/-- R46: pulse class boundaries in steps of 10 µs: glitch, spark, noise, test pulse, noise, blinded. -/
def glitchBelow : Nat := 10
def sparkBelow : Nat := 800
def noiseBelow : Nat := 2000
def testBelow : Nat := 6000
def blindedFrom : Nat := 25000
/-- R47: the high time in ms that blinds a channel, and the low time that clears it. -/
def blindedHigh : Nat := 250
def blindedLow : Nat := 1000
/-- R50: the length of a bucket and the number of buckets. -/
def bucket : Nat := 1000
def buckets : Nat := 10
/-- R53: the successive boundaries that end a storm. -/
def stormExit : Nat := 4
/-- R55: the watch hold. -/
def watchHold : Nat := 60000
/-- R57: the window noise count that sets NOISY. -/
def noisyFrom : Nat := 10
/-- R15: the age at which a SPARK notice is STALE. -/
def ageLimit : Nat := 1023
/-- R60: the span at which a SPARK notice is STALE. -/
def spanLimit : Nat := 4095
/-- R73: the oldest velocity sample release timing trusts. -/
def sampleLimit : Nat := 3000
/-- Table 1.2: the greatest air velocity. -/
def velocityLimit : Nat := 1000
/-- R76: the longest TIMED window. -/
def windowLimit : Nat := 10000
/-- R83: the places of a release schedule. -/
def windows : Nat := 8
/-- R102: the contactor mismatch time. -/
def contactorMismatch : Nat := 2000
/-- R103: a sample window, and R104: the PERIODIC spacing of window starts. -/
def sampleWindow : Nat := 250
def samplePeriod : Nat := 2000
/-- R106, R108, R111, R155: the successive samples of a judgement. -/
def successive : Nat := 4
/-- R134: the close runs of one release. -/
def closeRuns : Nat := 3
/-- R138: the absence count that marks a current fault. -/
def absenceLimit : Nat := 500
/-- R139: the cycles of the pulse patterns. -/
def slowCycle : Nat := 2000
def fastCycle : Nat := 500
/-- R145: the length of ALL_CLEAR. -/
def allClear : Nat := 9000
/-- R148: the greatest correction of a cadence phase. -/
def cadenceStep : Nat := 50
/-- R155: the time between supply samples. -/
def supplyPeriod : Nat := 50
/-- R159: the places of the event record. -/
def recordPlaces : Nat := 64

end Sys2Proof.Config
end

