-- ==== Sys2Proof/Syntax.lean ====
section
/-! DEFINITION. The commands of the station: one constructor of Instr for each row of the table of operations and
events. Every command but POWER_ON carries now, the reading of the station clock at which the event is taken
(Introduction 0.6.2). The remaining operands are what the outside world supplies with the event: a line, a notice's
octets, a bit time of an attempt, an output or channel, an input level, a pulse width, a supply voltage, or a request's
argument octet. -/

namespace Sys2Proof

/-- The two station lines (R1). -/
inductive Line where
  | a | b
  deriving DecidableEq, Repr

/-- A bit time of the station's own attempt on a line: bit 0 is the first start bit of its notice (R2, R3). -/
structure LineBit where
  line : Line
  bit  : Nat
  deriving DecidableEq, Repr

/-- A complete notice as a receive stage assembled it (R3, R18), without its class: the row names the class, or for
CHECK_ERROR it stands in its own operand. start is the clock reading at the first start bit, sender is bits 4–0 of the
precedence octet, the length octet is the number of payload octets, and check is the two check octets. -/
structure Received where
  start   : Time
  sender  : BitVec 5
  payload : List Byte
  check   : BitVec 16
  deriving DecidableEq, Repr

/-- The commands. now is the clock reading at which the event is taken. -/
inductive Instr where
  -- start (R150, R154)
  | powerOn
  | imageReadFailed (now : Time)
  | imageReadRetry (now : Time)
  | imageReadComplete (now : Time) (image : List Byte)
  | listenEnd (now : Time)
  | settleEnd (now : Time)
  -- transmission (R2 to R17)
  | attemptStart (now : Time) (line : Line)
  | contentionLost (now : Time) (line : Line)
  | txError (now : Time) (place : LineBit)
  | attemptSuccess (now : Time) (line : Line)
  | probeTimerExpiry (now : Time) (line : Line)
  | stateRoundHoldClear (now : Time) (line : Line)
  | stateIntervalExpiry (now : Time)
  -- reception (R18 to R22)
  | receiveFramingError (now : Time) (line : Line)
  | noticeLengthError (now : Time) (line : Line) (length : Byte)
  | callNotice (now : Time) (line : Line) (rx : Received)
  | sparkNotice (now : Time) (line : Line) (rx : Received)
  | keyNotice (now : Time) (line : Line) (rx : Received)
  | stateNotice (now : Time) (line : Line) (rx : Received)
  | lineQuiet (now : Time) (line : Line)
  -- peers (R27, R28)
  | peerLost (now : Time) (peer : Station)
  | singleLine (now : Time) (peer : Station)
  -- keys and heat (R39 to R44)
  | callPress (now : Time)
  | callRelease (now : Time)
  | heatInputChange (now : Time) (active : Bool)
  | silencePress (now : Time)
  | resetPress (now : Time)
  | startPress (now : Time)
  | stopPress (now : Time)
  -- spark channels (R46 to R57); width counts steps of 10 µs
  | sensorPulseStart (now : Time) (channel : Channel)
  | sensorPulseEnd (now : Time) (channel : Channel) (width : Nat)
  | blinded (now : Time) (channel : Channel)
  | blindedClear (now : Time) (channel : Channel)
  | bucketBoundary (now : Time)
  | escalated (now : Time)
  | watchHoldExpiry (now : Time)
  | silent (now : Time) (channel : Channel)
  -- extinguishing valves (R88 to R96)
  | windowOpen (now : Time) (output : Output)
  | windowClose (now : Time) (output : Output)
  | flowSwitchChange (now : Time) (output : Output) (active : Bool)
  | confirmTimerExpiry (now : Time) (output : Output)
  | cutOff (now : Time) (output : Output)
  | valveStuck (now : Time) (output : Output)
  -- extraction (R102 to R111)
  | flowPulse (now : Time)
  | sampleComplete (now : Time)
  | periodicWindowStart (now : Time)
  | startGraceExpiry (now : Time)
  | gateFeedbackChange (now : Time) (active : Bool)
  | gateTimerExpiry (now : Time)
  | rundownLimitExpiry (now : Time)
  | runningContactChange (now : Time) (active : Bool)
  | contactorMismatch (now : Time)
  | gateMismatch (now : Time)
  -- fire barriers (R125 to R134)
  | barrierFeedbackChange (now : Time) (output : Output) (active : Bool)
  | travelTimerExpiry (now : Time) (output : Output)
  | travelExhausted (now : Time) (output : Output)
  | damperWaitExpiry (now : Time) (output : Output)
  -- yard sirens (R138 to R145)
  | sirenFeedbackChange (now : Time) (output : Output) (active : Bool)
  | sirenFault (now : Time) (output : Output)
  | cadenceLevelChange (now : Time)
  | resoundTimerExpiry (now : Time)
  | allClearEnd (now : Time) (output : Output)
  -- supply (R155); the field supply voltage in millivolts
  | supplySample (now : Time) (millivolts : Nat)
  -- maintenance port (R157 to R160); argument is the second octet of the transaction
  | status (now : Time) (argument : Byte)
  | zones (now : Time) (argument : Byte)
  | peer (now : Time) (argument : Byte)
  | valve (now : Time) (argument : Byte)
  | barriers (now : Time) (argument : Byte)
  | sirens (now : Time) (argument : Byte)
  | fan (now : Time) (argument : Byte)
  | counters (now : Time) (argument : Byte)
  | takeRecord (now : Time) (argument : Byte)
  | takeRecordComplete (now : Time)
  | unknown (now : Time) (request : Byte) (argument : Byte)
  -- idle lines, discarded notices, aged instants (R2, R19, R149)
  | lineIdle (now : Time) (line : Line)
  | checkError (now : Time) (line : Line) (class_ : BitVec 3) (rx : Received)
  | instantAged (now : Time)
  deriving DecidableEq, Repr

end Sys2Proof
end

