-- ==== Sys2Proof/WellFormed.lean ====
section
/-! DEFINITION. What a command's operands must satisfy to name an event the part can meet: the ranges the spec gives
for what the outside supplies. A command that fails the check is one no sender of events can issue. -/

namespace Sys2Proof

/-- R3, R18: a notice that a receive stage has assembled carries at most 24 payload octets. -/
def Received.wellFormed (rx : Received) : Bool := rx.payload.length ≤ 24

/-- The nine request codes of R166. -/
def requestAssigned (request : Byte) : Bool := 1 ≤ request.toNat && request.toNat ≤ 9

/-- The operand checks of a command. -/
def Instr.wellFormed : Instr → Bool
  | .imageReadComplete _ image => image.length == Config.imageOctets
  | .noticeLengthError _ _ length => 24 < length.toNat
  | .callNotice _ _ rx => rx.wellFormed
  | .sparkNotice _ _ rx => rx.wellFormed
  | .keyNotice _ _ rx => rx.wellFormed
  | .stateNotice _ _ rx => rx.wellFormed
  | .txError _ place => place.bit < Config.noticeBits
  | .peerLost _ k => k ≠ 0
  | .singleLine _ k => k ≠ 0
  | .sensorPulseEnd _ _ _ => true
  | .unknown _ request _ => !requestAssigned request
  | .checkError _ _ _ rx => rx.wellFormed
  | .powerOn => true
  | .imageReadFailed _ => true
  | .imageReadRetry _ => true
  | .listenEnd _ => true
  | .settleEnd _ => true
  | .attemptStart _ _ => true
  | .contentionLost _ _ => true
  | .attemptSuccess _ _ => true
  | .probeTimerExpiry _ _ => true
  | .stateRoundHoldClear _ _ => true
  | .stateIntervalExpiry _ => true
  | .receiveFramingError _ _ => true
  | .lineQuiet _ _ => true
  | .callPress _ => true
  | .callRelease _ => true
  | .heatInputChange _ _ => true
  | .silencePress _ => true
  | .resetPress _ => true
  | .startPress _ => true
  | .stopPress _ => true
  | .sensorPulseStart _ _ => true
  | .blinded _ _ => true
  | .blindedClear _ _ => true
  | .bucketBoundary now => now.toNat % Config.bucket == 0
  | .escalated _ => true
  | .watchHoldExpiry _ => true
  | .silent _ _ => true
  | .windowOpen _ _ => true
  | .windowClose _ _ => true
  | .flowSwitchChange _ _ _ => true
  | .confirmTimerExpiry _ _ => true
  | .cutOff _ _ => true
  | .valveStuck _ _ => true
  | .flowPulse _ => true
  | .sampleComplete _ => true
  | .periodicWindowStart _ => true
  | .startGraceExpiry _ => true
  | .gateFeedbackChange _ _ => true
  | .gateTimerExpiry _ => true
  | .rundownLimitExpiry _ => true
  | .runningContactChange _ _ => true
  | .contactorMismatch _ => true
  | .gateMismatch _ => true
  | .barrierFeedbackChange _ _ _ => true
  | .travelTimerExpiry _ _ => true
  | .travelExhausted _ _ => true
  | .damperWaitExpiry _ _ => true
  | .sirenFeedbackChange _ _ _ => true
  | .sirenFault _ _ => true
  | .cadenceLevelChange _ => true
  | .resoundTimerExpiry _ => true
  | .allClearEnd _ _ => true
  | .supplySample _ _ => true
  | .status _ _ => true
  | .zones _ _ => true
  | .peer _ _ => true
  | .valve _ _ => true
  | .barriers _ _ => true
  | .sirens _ _ => true
  | .fan _ _ => true
  | .counters _ _ => true
  | .takeRecord _ _ => true
  | .takeRecordComplete _ => true
  | .lineIdle _ _ => true
  | .instantAged _ => true

end Sys2Proof
end

