-- ==== Sys2Proof/Decode.lean ====
section
/-! DEFINITION. The command that a word spells by the table's bits. No row of the table of operations and events gives
bits (every row's fields are empty), so no word spells a command. -/

namespace Sys2Proof

/-- The table gives no row any bits, so no word of any length spells a command. DESIGN CHOICE (assumption 5). -/
def decodeTableWord (_nbits _w : Nat) : Option Instr := none

end Sys2Proof
end

