-- ==== Sys2Proof/Machine/State.lean ====
section
/-! DEFINITION. Everything the spec gives one station to hold, as plain data, and its value right after power-on.
Each structure cites the rule of spec/ that names its contents. Instants that a block keeps are Instant values, which
carry the aged mark of R149; deadlines of running timers and readings that are only reported are plain readings. -/

namespace Sys2Proof.Machine

/-! ## Names (Table 1.3 and Formats, Table 11.9) -/

/-- Table 1.3: the five levels, from lowest to highest. -/
inductive Level where
  | quiet | watch | storm | fire | evacuate
  deriving DecidableEq, Repr

/-- R154: the start phases and the CONFIG_FAULT condition. -/
inductive StartPhase where
  | load | listen | settle | operating | configFault
  deriving DecidableEq, Repr

/-- R151: the structural errors, and none. -/
inductive FaultKind where
  | none | noImage | check | format | stationNumber | role | fanRole | motorBarriers | branchTable | zeroBranch
  deriving DecidableEq, Repr

/-- R24: the standing of a peer entry. -/
inductive Presence where
  | absent | present | lost
  deriving DecidableEq, Repr

/-- R107: the extraction phases. -/
inductive FanPhase where
  | standby | starting | running | diverting | rundown | stopped
  deriving DecidableEq, Repr

/-- R113, R114: the seven causes, in the order of Table 6.3. -/
inductive Cause where
  | fire | storm | valveTrouble | unserved | flowLost | startFail | stopKey
  deriving DecidableEq, Repr

/-- R104: the sampler's modes. -/
inductive SamplerMode where
  | off | periodic | continuous
  deriving DecidableEq, Repr

/-- R139: what a siren output sounds, ranked from lowest to highest (R146). -/
inductive Pattern where
  | none | allClear | slow | fast | steady
  deriving DecidableEq, Repr

/-- R123 to R134: the barrier states. -/
inductive BarrierState where
  | unarmed | held | queued | closing | closed | jammed | reopened
  deriving DecidableEq, Repr

/-- R89 to R93: the valve states. -/
inductive ValveState where
  | idle | opening | flowing | flowingUnconfirmed | cut
  deriving DecidableEq, Repr

/-- R69: the five outcomes of a report. -/
inductive ReleaseOutcome where
  | notDownstream | beyondReach | timed | flood | missed
  deriving DecidableEq, Repr

/-- R70, R73, R74: why a report went to flood. -/
inductive FloodReason where
  | untimed | viewNotFresh | fanPhase | lowFlow | sampleOld | noVelocity | belowFloor
  deriving DecidableEq, Repr

/-- R80: where a report came from. -/
inductive Source where
  | own | lineA | lineB
  deriving DecidableEq, Repr

/-- R42: the two counted keys. -/
inductive KeyKind where
  | silence | reset
  deriving DecidableEq, Repr

/-- Table 10.2: the kinds of event record entries. -/
inductive RecordKind where
  | start | configFault | configClamped | peerPresent | peerLost | numberClash | lineQuiet | lineTxFailed | lineTxOk
  | sensorFlag | stormOn | stormOff | escalated | zoneLatched | call | keySilence | keyReset | windowMissed
  | scheduleSaturated | waterFail | valveStuck | cutOff | fanPhase | startRefused | barrierClosed | barrierJammed
  | barrierReopened | sirenFault | allClear | supplyLow | supplyOk
  deriving DecidableEq, Repr

/-- Table 10.3: the sixteen attention flags. -/
inductive Attention where
  | configClamped | numberClash | lineAQuiet | lineBQuiet | lineTxFailed | peerLost | singleLine | sensorFault
  | unserved | valveTrouble | scheduleSaturated | barrierFault | sirenFault | supplyLow | fanFault | startRefused
  deriving DecidableEq, Repr

/-! ## Instants (R149) -/

/-- An instant that a block keeps: its clock reading, and, once it is aged, the number of the ageing that made it so
(lower became aged first). -/
structure Instant where
  reading : Time
  aged    : Option Nat := none
  deriving DecidableEq, Repr

/-! ## The configuration a usable image gives (R164, R153) -/

/-- R150: the roles a station reports. -/
structure Roles where
  sense : Bool
  valve : Bool
  barrier : Bool
  siren : Bool
  fan : Bool
  deriving DecidableEq, Repr

/-- Table 9.1: the role of a driven output with the parameters of that role (R68, R121, R137). Positions and reaches
are in dm, travel times in s. -/
inductive OutputRole where
  | none
  | valve (branch : Branch) (position reach : Nat)
  | fanContactor
  | abortGate
  | magnet (trigger : ZoneSet) (travel : Nat)
  | shutter (trigger : ZoneSet) (rank travel : Nat)
  | damper (trigger : ZoneSet) (rank travel : Nat) (system : System)
  | siren (covered : ZoneSet)
  deriving DecidableEq, Repr

/-- Table 3.1: a channel record. -/
structure ChannelRecord where
  enabled  : Bool
  branch   : Branch
  position : Nat
  serving  : StationSet
  deriving DecidableEq, Repr

/-- Table 4.1: a branch table entry; length 0 marks an entry not used. -/
structure BranchEntry where
  system : System
  parent : Option Branch
  join   : Nat
  length : Nat
  factor : Nat
  deriving DecidableEq, Repr

/-- Table 4.3: the timing parameters. -/
structure TimingParameters where
  spread : Nat
  lead   : Nat
  hold   : Nat
  floor  : Nat
  floodHold : Nat
  deriving DecidableEq, Repr

/-- Table 5.1: the valve parameters; confirm and gap in ms, the cut-offs in s. -/
structure ValveParameters where
  confirm : Nat
  cutOff  : Nat
  floodCutOff : Nat
  gap     : Nat
  deriving DecidableEq, Repr

/-- Table 3.2: the sensing parameters; times in s. -/
structure SensingParameters where
  testInterval : Nat
  stormOn  : Nat
  stormOff : Nat
  escalation : Nat
  deriving DecidableEq, Repr

/-- Table 6.1: the extraction parameters; the gate time in ms, the run-down limit and start grace in s. -/
structure ExtractionParameters where
  scale : Nat
  floor : Nat
  hysteresis : Nat
  stop : Nat
  gateTime : Nat
  rundownLimit : Nat
  startGrace : Nat
  zones : ZoneSet
  deriving DecidableEq, Repr

/-- What a usable image makes of the station (Table 9.1, after clamping). number is 0 while it is not known. -/
structure Setup where
  number   : Station
  zone     : Zone
  system   : System
  roles    : Roles
  outputs  : Vector OutputRole 4
  channels : Vector ChannelRecord 4
  branches : Vector BranchEntry 16
  timing   : TimingParameters
  valves   : ValveParameters
  sensing  : SensingParameters
  extraction : ExtractionParameters
  damperWait : Nat
  resound    : Nat
  supplyLow  : Nat
  supplyResume : Nat
  mask     : BitVec 16
  deriving DecidableEq, Repr

/-! ## Start sequencer and configuration loader (R150 to R154) -/

structure Start where
  phase : StartPhase
  /-- R150: the reads begun so far. -/
  reads : Nat
  /-- R150: the instant the read in progress began. -/
  readBegan : Option Time
  /-- R150: the deadline of the retry after a failed read. -/
  retry : Option Time
  /-- R154: the deadline of LISTEN or SETTLE. -/
  phaseTimer : Option Time
  /-- R22: the start of LISTEN. -/
  listenStart : Option Instant
  faultKind : FaultKind
  faultOffset : Byte
  /-- R150: the image copy. -/
  image : Option (List Byte)
  deriving DecidableEq, Repr

/-! ## Notices (R3, R163) -/

/-- Table 11.5: the fields of a STATE payload. -/
structure StateContent where
  roles : Roles
  zone : Zone
  system : System
  ownLevel : Level
  sensorFault : Bool
  unserved : Bool
  valveTrouble : Bool
  flood : Bool
  supplyLow : Bool
  lowFlow : Bool
  fanPhase : FanPhase
  velocity : Nat
  sampleAge : Nat
  causes : BitVec 7
  closed : Nat
  jammed : Nat
  pattern : Pattern
  cadence : Nat
  deriving DecidableEq, Repr

/-- R59: what a SPARK slot holds. -/
structure SparkReport where
  first : Instant
  span : Nat
  count : Nat
  stale : Bool
  unserved : Bool
  branch : Branch
  position : Nat
  deriving DecidableEq, Repr

/-- R11: the notice in the in-transmission place: the slot it came from and its content. A SPARK carries the age
written at the start of the attempt (R15). -/
inductive Notice where
  | state (content : StateContent)
  | call (zone : Zone)
  | key (kind : KeyKind) (count : Byte)
  | spark (channel : Channel) (report : SparkReport) (age : Nat)
  deriving DecidableEq, Repr

/-- R5: an attempt in progress. -/
structure Attempt where
  notice : Notice
  /-- R10: the attempt is a probe. -/
  probe : Bool
  /-- R5: the clock reading at the first start bit. -/
  start : Time
  deriving DecidableEq, Repr

/-! ## Line interface (R1 to R23), one for each line -/

/-- R2, R18: the receive stage: busy until the line is idle, idle, or assembling a notice that began at start. -/
inductive ReceiveStage where
  | busy
  | idle
  | assembling (start : Time)
  deriving DecidableEq, Repr

/-- R9: the TX state. -/
inductive TxState where
  | ok | failed
  deriving DecidableEq, Repr

/-- R11: the eight slots. -/
structure Slots where
  state : Option StateContent
  call : Option Zone
  silence : Option Byte
  reset : Option Byte
  spark : Vector (Option SparkReport) 4
  deriving DecidableEq, Repr

/-- Table 1.9: the six counters of a line. -/
structure LineCounters where
  valid : Count
  check : Count
  framing : Count
  content : Count
  contention : Count
  tx : Count
  deriving DecidableEq, Repr

structure LineInterface where
  stage : ReceiveStage
  slots : Slots
  /-- R11: the in-transmission place. -/
  place : Option Attempt
  txState : TxState
  /-- R7: the consecutive TX error count, 0 to 16. -/
  consecutive : Nat
  /-- R9: the deadline of the probe timer. -/
  probeTimer : Option Time
  /-- R10: a probe is due. -/
  probeDue : Bool
  /-- R13: the STATE round hold. -/
  roundHold : Bool
  /-- R12: a STATE has been sent successfully since the end of LISTEN. -/
  firstState : Bool
  /-- R21: the last-valid-notice instant. -/
  lastValid : Option Instant
  /-- R20: the instant of the last clash notice. -/
  lastClash : Option Instant
  /-- R22: both tests of LINE_x_QUIET held when last judged. -/
  quiet : Bool
  counters : LineCounters
  deriving DecidableEq, Repr

/-- R17: the STATE assembler: the deadline of the STATE interval and the content of the most recent fill. -/
structure Assembler where
  interval : Option Time
  last : Option StateContent
  deriving DecidableEq, Repr

/-! ## Peer table, zone picture and fan views (R24 to R38, R95) -/

/-- Table 2.1. -/
structure Peer where
  presence : Presence
  heardA : Option Instant
  heardB : Option Instant
  since : Option Instant
  known : Bool
  content : Option StateContent
  received : Option Instant
  override : Option Zone
  silence : Option Byte
  reset : Option Byte
  rejoins : Byte
  /-- R28: SINGLE_LINE, with the line that met the test. -/
  single : Option Line
  deriving DecidableEq, Repr

/-- R32, R33: the live and latched levels of the sixteen zones. -/
structure ZonePicture where
  live : Vector Level 16
  latched : Vector Level 16
  deriving DecidableEq, Repr

/-- R36, R38: the source of a fan view and its clash mark. -/
structure FanView where
  source : Option Station
  clash : Bool
  deriving DecidableEq, Repr

/-! ## Inputs (R39) -/

/-- R39: a debounced input: the raw level of the pin, the debounced state, and since when the raw level has stood
opposite to it. -/
structure Debounced where
  raw : Bool
  state : Bool
  opposite : Option Time
  deriving DecidableEq, Repr

/-- A debounced feedback with the instant it last became active (R96, R102). -/
structure Feedback where
  input : Debounced
  activeSince : Option Instant
  deriving DecidableEq, Repr

structure Inputs where
  call : Debounced
  silence : Debounced
  reset : Debounced
  start : Debounced
  stop : Debounced
  heat : Debounced
  /-- F0 to F3, each by its output's role. -/
  feedback : Vector Feedback 4
  /-- S0 to S3: the raw level of each spark input. -/
  spark : Vector Bool 4
  deriving DecidableEq, Repr

/-- R41: the station's own press counts. -/
structure PressCounts where
  silence : Byte
  reset : Byte
  deriving DecidableEq, Repr

/-- R29: the own level with the two sources that the own-level unit keeps itself. -/
structure OwnLevel where
  level : Level
  /-- R54: the escalation latch. -/
  escalation : Bool
  /-- R55: the deadline of the watch hold timer. -/
  watchHold : Option Time
  deriving DecidableEq, Repr

/-! ## Spark channels (R45 to R65) -/

/-- R52, R53: a storm in progress: the instant of entry and the exit count. -/
structure Storm where
  entry : Instant
  exitCount : Nat
  deriving DecidableEq, Repr

/-- Table 3.3. Buckets are kept newest first. -/
structure SparkChannel where
  /-- R46: the pulse instant of the pulse in progress. -/
  pulse : Option Time
  blinded : Bool
  /-- R47: while BLINDED, since when the input has been low. -/
  lowSince : Option Time
  silent : Bool
  noisy : Bool
  testTimer : Option Time
  sparkBuckets : Vector Count 10
  noiseBuckets : Vector Count 10
  storm : Option Storm
  sparks : Count
  tests : Count
  noise : Count
  deriving DecidableEq, Repr

structure Sensing where
  channels : Vector SparkChannel 4
  /-- R54: the deadline of the escalation timer. -/
  escalation : Option Time
  /-- R50: the last instant that counts as a taken boundary. -/
  lastBoundary : Option Time
  /-- R62: the STATE unserved field. -/
  unserved : Bool
  deriving DecidableEq, Repr

/-! ## Release timing and valves (R66 to R100) -/

/-- R84: the origin marks of a window. -/
structure Marks where
  late : Bool
  clipped : Bool
  flood : Bool
  deriving DecidableEq, Repr

/-- R83: a release window. -/
structure Window where
  opens : Instant
  closes : Instant
  marks : Marks
  deriving DecidableEq, Repr

/-- R79: the outcome counters of a valve output, in the order of Table 4.5. -/
structure OutcomeCounters where
  notDownstream : Count
  beyondReach : Count
  timed : Count
  late : Count
  clipped : Count
  flood : Count
  missed : Count
  deriving DecidableEq, Repr

/-- R80: the last-report record. -/
structure LastReport where
  source : Source
  station : Station
  branch : Branch
  position : Nat
  outcome : ReleaseOutcome
  computed : Time
  late : Bool
  clipped : Bool
  window : Option (Time × Time)
  reason : Option FloodReason
  deriving DecidableEq, Repr

/-- R100: the event counters of a valve output, in the order of Table 5.3. -/
structure ValveCounters where
  openings : Count
  underTrouble : Count
  confirmed : Count
  unconfirmed : Count
  short : Count
  cutOff : Count
  stuck : Count
  deriving DecidableEq, Repr

structure Valve where
  schedule : List Window
  state : ValveState
  confirmTimer : Option Time
  /-- R94: the instant the open-time watch started from 0. -/
  openSince : Option Instant
  stuckTimer : Option Time
  waterFail : Bool
  stuck : Bool
  cutOff : Bool
  counters : ValveCounters
  saturations : Count
  outcomes : OutcomeCounters
  last : Option LastReport
  deriving DecidableEq, Repr

/-! ## Extraction controller (R101 to R119) -/

/-- R103: a sample window in progress. -/
structure SampleWindow where
  start : Time
  pulses : Nat
  deriving DecidableEq, Repr

/-- R113: which of the three conditions stand, as last judged. -/
structure Conditions where
  fire : Bool
  storm : Bool
  valveTrouble : Bool
  deriving DecidableEq, Repr

/-- R102: a mismatch timer and whether the mismatch stands. -/
structure Mismatch where
  timer : Option Time
  stands : Bool
  deriving DecidableEq, Repr

structure Extraction where
  phase : FanPhase
  causes : BitVec 7
  first : Option Cause
  conditions : Conditions
  /-- R108, R110, R111: the deadline of the start grace, gate or run-down limit timer, by the phase. -/
  timer : Option Time
  lowFlow : Bool
  lowCount : Nat
  goodCount : Nat
  stopCount : Nat
  velocity : Nat
  lastSample : Option Instant
  mode : SamplerMode
  window : Option SampleWindow
  /-- R104: the start of the most recent window, and the deadline of the next PERIODIC start. -/
  lastStart : Option Instant
  nextStart : Option Time
  startFail : Bool
  gateFail : Bool
  rundownSlow : Bool
  contactor : Mismatch
  gate : Mismatch
  starts : Count
  refusals : Count
  deriving DecidableEq, Repr

/-! ## Barrier controller (R120 to R136) -/

/-- R131: the damper wait. -/
inductive DamperWait where
  | idle
  | running (deadline : Time)
  | expired
  deriving DecidableEq, Repr

structure Barrier where
  state : BarrierState
  /-- R125: the deadline of a MAGNET's travel timer. -/
  travelTimer : Option Time
  /-- R125: the instant of release. -/
  released : Option Instant
  /-- R132: while the motor runs, the start of this part of the run and the instant the travel is exhausted. -/
  run : Option (Time × Time)
  /-- R133: the kept travel in ms. -/
  kept : Option Nat
  /-- R132: the travel run in this closing process before the part in progress, in ms. -/
  ran : Nat
  attempts : Nat
  wait : DamperWait
  deriving DecidableEq, Repr

structure Barriers where
  units : Vector Barrier 4
  /-- R128: the closing queue, its head first. -/
  queue : List Output
  /-- R129: the output whose motor runs. -/
  running : Option Output
  deriving DecidableEq, Repr

/-! ## Siren controller (R137 to R148) -/

/-- R140: a zone claim. -/
structure Claim where
  zone : Zone
  level : Level
  since : Instant
  silenced : Bool
  deriving DecidableEq, Repr

structure Siren where
  claims : List Claim
  /-- R140: the start instant of the ALL_CLEAR claim. -/
  allClear : Option Instant
  pattern : Pattern
  /-- The level the output is driven to. -/
  driven : Bool
  fireSeen : Bool
  /-- R138: the current fault mark. -/
  fault : Bool
  /-- R138: the absence count when it last stopped growing, and since when it has been growing. -/
  absence : Nat
  absenceFrom : Option Time
  /-- R138: this count has reached its limit and set the mark. -/
  absenceTaken : Bool
  deriving DecidableEq, Repr

/-- R139: a running cadence phase: its value at an instant. -/
structure Cadence where
  value : Nat
  anchor : Time
  deriving DecidableEq, Repr

structure Sirens where
  units : Vector Siren 4
  /-- R143: the deadline of the resound timer. -/
  resound : Option Time
  slow : Option Cadence
  fast : Option Cadence
  /-- R146: the leaders of the two pulse patterns. -/
  slowLeader : Option Station
  fastLeader : Option Station
  deriving DecidableEq, Repr

/-! ## Supply monitor (R155) -/

structure Supply where
  level : Nat
  count : Nat
  low : Bool
  /-- R155: the instant of the next sample. -/
  next : Option Time
  deriving DecidableEq, Repr

/-! ## Event record and maintenance port (R157 to R160) -/

/-- R159: an entry of the event record. -/
structure Entry where
  stamp : Time
  kind : RecordKind
  subject : Byte
  value : Count
  deriving DecidableEq, Repr

structure EventRecord where
  /-- Oldest first. -/
  entries : List Entry
  dropped : Byte
  /-- R160: the oldest entry is the one that the TAKE_RECORD transaction in progress has sent. -/
  sent : Bool
  deriving DecidableEq, Repr

/-- R157: the response record that the transaction in progress shifts out. -/
structure Port where
  response : List Byte
  deriving DecidableEq, Repr

/-! ## The station -/

/-- One station. pending is the queue of commands waiting to be taken, the next one first. -/
structure State where
  /-- R149: the station clock. -/
  clock : Time
  /-- R149: how many times instants have become aged. -/
  agings : Nat
  start : Start
  setup : Setup
  lineA : LineInterface
  lineB : LineInterface
  assembler : Assembler
  /-- R24: indexed by station number; entry 0 and the station's own entry are never written. -/
  peers : Vector Peer 32
  zones : ZonePicture
  views : Vector FanView 4
  /-- R95: the flood state of each duct system. -/
  flood : Vector Bool 4
  inputs : Inputs
  press : PressCounts
  own : OwnLevel
  sensing : Sensing
  valves : Vector Valve 4
  extraction : Extraction
  barriers : Barriers
  sirens : Sirens
  supply : Supply
  record : EventRecord
  /-- R161: the sixteen attention flags, by the bits of Table 11.10. -/
  flags : BitVec 16
  port : Port
  pending : List Instr
  deriving DecidableEq, Repr

/-! ## Stops -/

/-- No command of this part stops the machine with a fault, so the type has no value. -/
inductive Fault where
  deriving DecidableEq, Repr

/-- The one way a command can be refused. -/
inductive Refusal where
  /-- Raised by exec for a row without a meaning; every row has one, so exec never raises it. Safe: it stops the run. -/
  | notModelled (mnemonic : String)
  deriving DecidableEq, Repr

/-! ## Power-on values -/

/-- R150, R158: before the end of LOAD no output has a role and the station number is unknown. The numbers are not
read by any block in that time. DESIGN CHOICE (assumption 6). -/
def Setup.blank : Setup where
  number := 0
  zone := 0
  system := 0
  roles := ⟨false, false, false, false, false⟩
  outputs := Vector.replicate 4 .none
  channels := Vector.replicate 4 ⟨false, 0, 0, 0⟩
  branches := Vector.replicate 16 ⟨0, none, 0, 0, 0⟩
  timing := ⟨0, 0, 0, 0, 0⟩
  valves := ⟨0, 0, 0, 0⟩
  sensing := ⟨0, 0, 0, 0⟩
  extraction := ⟨0, 0, 0, 0, 0, 0, 0, 0⟩
  damperWait := 0
  resound := 0
  supplyLow := 0
  supplyResume := 0
  mask := 0

/-- R150: LOAD begins the first image read at clock 0. -/
def Start.powerOn : Start where
  phase := .load
  reads := 1
  readBegan := some 0
  retry := none
  phaseTimer := none
  listenStart := none
  faultKind := .none
  faultOffset := 0
  image := none

/-- R2, R9, R11, R13, R23. -/
def LineInterface.powerOn : LineInterface where
  stage := .busy
  slots := ⟨none, none, none, none, Vector.replicate 4 none⟩
  place := none
  txState := .ok
  consecutive := 0
  probeTimer := none
  probeDue := false
  roundHold := false
  firstState := false
  lastValid := none
  lastClash := none
  quiet := false
  counters := ⟨0, 0, 0, 0, 0, 0⟩

/-- R24. -/
def Peer.powerOn : Peer where
  presence := .absent
  heardA := none
  heardB := none
  since := none
  known := false
  content := none
  received := none
  override := none
  silence := none
  reset := none
  rejoins := 0
  single := none

/-- R39: every debounced state is inactive; the raw level of a pin is the outside's. DESIGN CHOICE (assumption 8). -/
def Debounced.powerOn : Debounced := ⟨false, false, none⟩

def Feedback.powerOn : Feedback := ⟨.powerOn, none⟩

def Inputs.powerOn : Inputs where
  call := .powerOn
  silence := .powerOn
  reset := .powerOn
  start := .powerOn
  stop := .powerOn
  heat := .powerOn
  feedback := Vector.replicate 4 .powerOn
  spark := Vector.replicate 4 false

/-- Table 3.3. -/
def SparkChannel.powerOn : SparkChannel where
  pulse := none
  blinded := false
  lowSince := none
  silent := false
  noisy := false
  testTimer := none
  sparkBuckets := Vector.replicate 10 0
  noiseBuckets := Vector.replicate 10 0
  storm := none
  sparks := 0
  tests := 0
  noise := 0

/-- R79, R80, R82, R83, R96, R97, R99, R100. -/
def Valve.powerOn : Valve where
  schedule := []
  state := .idle
  confirmTimer := none
  openSince := none
  stuckTimer := none
  waterFail := false
  stuck := false
  cutOff := false
  counters := ⟨0, 0, 0, 0, 0, 0, 0⟩
  saturations := 0
  outcomes := ⟨0, 0, 0, 0, 0, 0, 0⟩
  last := none

/-- R103, R106, R107, R115, R118, R119. -/
def Extraction.powerOn : Extraction where
  phase := .standby
  causes := 0
  first := none
  conditions := ⟨false, false, false⟩
  timer := none
  lowFlow := false
  lowCount := 0
  goodCount := 0
  stopCount := 0
  velocity := 0
  lastSample := none
  mode := .off
  window := none
  lastStart := none
  nextStart := none
  startFail := false
  gateFail := false
  rundownSlow := false
  contactor := ⟨none, false⟩
  gate := ⟨none, false⟩
  starts := 0
  refusals := 0

/-- R123. -/
def Barrier.powerOn : Barrier where
  state := .unarmed
  travelTimer := none
  released := none
  run := none
  kept := none
  ran := 0
  attempts := 0
  wait := .idle

/-- R137. -/
def Siren.powerOn : Siren where
  claims := []
  allClear := none
  pattern := .none
  driven := false
  fireSeen := false
  fault := false
  absence := 0
  absenceFrom := none
  absenceTaken := false

/-- The station right after power-on (R149, R150, and each block's power-on values). -/
def State.reset : State where
  clock := 0
  agings := 0
  start := .powerOn
  setup := .blank
  lineA := .powerOn
  lineB := .powerOn
  assembler := ⟨none, none⟩
  peers := Vector.replicate 32 .powerOn
  zones := ⟨Vector.replicate 16 .quiet, Vector.replicate 16 .quiet⟩
  views := Vector.replicate 4 ⟨none, false⟩
  flood := Vector.replicate 4 true
  inputs := .powerOn
  press := ⟨0, 0⟩
  own := ⟨.quiet, false, none⟩
  sensing := ⟨Vector.replicate 4 .powerOn, none, none, false⟩
  valves := Vector.replicate 4 .powerOn
  extraction := .powerOn
  barriers := ⟨Vector.replicate 4 .powerOn, [], none⟩
  sirens := ⟨Vector.replicate 4 .powerOn, none, none, none, none, none⟩
  supply := ⟨0, 0, false, none⟩
  record := ⟨[], 0, false⟩
  flags := 0
  port := ⟨[]⟩
  pending := []

end Sys2Proof.Machine
end

