-- ==== Sys2Proof/Machine/Clock.lean ====
section
/-! DEFINITION. The station clock, instants and timers (R149), and the plain helpers over vectors and saturating counts
that every block uses. -/

namespace Sys2Proof.Machine

/-- R149: x is later than y when x minus y, taken as a signed 32-bit number, is positive. -/
def later (x y : Time) : Bool := decide (0 < (x - y).toInt)

/-- The clock has reached t: t is not later than now. -/
def reached (now t : Time) : Bool := !later t now

/-- The instant ms after t. -/
def after (t : Time) (ms : Nat) : Time := t + BitVec.ofNat 32 ms

/-- A running timer (its deadline) has expired by now; a stopped timer has not. DEDUCED (assumption 28). -/
def due (now : Time) : Option Time → Bool
  | some deadline => reached now deadline
  | none => false

/-- The time a deadline leaves from now, 0 once reached. -/
def remaining (now deadline : Time) : Nat := if reached now deadline then 0 else (deadline - now).toNat

/-- An instant just kept. -/
def Instant.of (t : Time) : Instant := ⟨t, none⟩

/-- R149: an aged instant is earlier than every instant that is not aged, and of two aged instants the one that became
aged first is the earlier; instants that became aged together, and instants that are not aged, compare by reading.
DEDUCED (assumption 4). -/
def Instant.later (x y : Instant) : Bool :=
  match x.aged, y.aged with
  | none, none => Machine.later x.reading y.reading
  | none, some _ => true
  | some _, none => false
  | some a, some b => if a = b then Machine.later x.reading y.reading else decide (b < a)

/-- The later of two instants, the first when neither is later. -/
def Instant.latest (x y : Instant) : Instant := if y.later x then y else x

/-- The earlier of two instants, the first when neither is earlier. -/
def Instant.earliest (x y : Instant) : Instant := if x.later y then y else x

/-- The instant ms after x; an aged instant stays as it is. -/
def Instant.after (x : Instant) (ms : Nat) : Instant := { x with reading := Machine.after x.reading ms }

/-- R149: the time from x to now in ms; the time since an aged instant is 2^30 ms. An instant after now gives 0. -/
def Instant.elapsed (now : Time) (x : Instant) : Nat :=
  match x.aged with
  | some _ => Config.agedAfter
  | none => if Machine.later x.reading now then 0 else (now - x.reading).toNat

/-- The time from an instant that may be absent, and none when it is. -/
def elapsedFrom (now : Time) (x : Option Instant) : Option Nat := x.map (Instant.elapsed now)

/-- The later of two instants that may be absent. -/
def latestOf : Option Instant → Option Instant → Option Instant
  | some x, some y => some (x.latest y)
  | some x, none => some x
  | none, y => y

/-- R149: an instant becomes aged when the clock reaches it plus 2^30 ms. -/
def Instant.agesAt (now : Time) (x : Instant) : Bool :=
  x.aged.isNone && decide ((Config.agedAfter : Int) ≤ (now - x.reading).toInt)

/-- The instant as it stands after the ageing numbered rank, at now. -/
def Instant.age (now : Time) (rank : Nat) (x : Instant) : Instant :=
  if x.agesAt now then { x with aged := some rank } else x

/-- A 16-bit counter that saturates (R23, R50, R64, R79, R100, R119). -/
def bump (c : Count) : Count := if c = 0xFFFF#16 then c else c + 1#16

/-- An 8-bit counter that saturates (R24, R159). -/
def bump8 (c : Byte) : Byte := if c = 0xFF#8 then c else c + 1#8

/-- A number as a 16-bit value that saturates. -/
def sat16 (n : Nat) : Count := BitVec.ofNat 16 (min n 65535)

/-- A number as an octet. -/
def octet (n : Nat) : Byte := BitVec.ofNat 8 n

/-- A zone's membership in a set of zones. -/
def hasZone (zs : ZoneSet) (z : Zone) : Bool := zs.getLsbD z.val

/-- One entry of a vector replaced. -/
def put {α : Type} {n : Nat} (v : Vector α n) (i : Fin n) (x : α) : Vector α n := v.set i.val x i.isLt

/-- One entry of a vector changed by a function. -/
def change {α : Type} {n : Nat} (v : Vector α n) (i : Fin n) (f : α → α) : Vector α n := put v i (f v[i])

/-- A vector from its entries. -/
def tabulate {α : Type} {n : Nat} (f : Fin n → α) : Vector α n := Vector.ofFn f

/-- The indexes of a vector in order. -/
def indexes (n : Nat) : List (Fin n) := List.finRange n

end Sys2Proof.Machine
end

