-- ==== Sys2Proof/Machine/Codes.lean ====
section
/-! DEFINITION. The octet codes of every named value (R166, Tables 11.9 and 11.10). -/

namespace Sys2Proof.Machine

/-- A line as a record's subject. -/
def lineCode : Line → Nat
  | .a => 0
  | .b => 1

def Level.code : Level → Nat
  | .quiet => 0
  | .watch => 1
  | .storm => 2
  | .fire => 3
  | .evacuate => 4

def Level.ofCode? : Nat → Option Level
  | 0 => some .quiet
  | 1 => some .watch
  | 2 => some .storm
  | 3 => some .fire
  | 4 => some .evacuate
  | _ => none

/-- Table 1.3: the order of the levels. -/
def Level.atLeast (x y : Level) : Bool := y.code ≤ x.code

/-- The greater of two levels. -/
def Level.higher (x y : Level) : Level := if x.code < y.code then y else x

def StartPhase.code : StartPhase → Nat
  | .load => 0
  | .listen => 1
  | .settle => 2
  | .operating => 3
  | .configFault => 4

def FaultKind.code : FaultKind → Nat
  | .none => 0
  | .noImage => 1
  | .check => 2
  | .format => 3
  | .stationNumber => 4
  | .role => 5
  | .fanRole => 6
  | .motorBarriers => 7
  | .branchTable => 8
  | .zeroBranch => 9

def Presence.code : Presence → Nat
  | .absent => 0
  | .present => 1
  | .lost => 2

def FanPhase.code : FanPhase → Nat
  | .standby => 0
  | .starting => 1
  | .running => 2
  | .diverting => 3
  | .rundown => 4
  | .stopped => 5

def FanPhase.ofCode? : Nat → Option FanPhase
  | 0 => some .standby
  | 1 => some .starting
  | 2 => some .running
  | 3 => some .diverting
  | 4 => some .rundown
  | 5 => some .stopped
  | _ => none

/-- The set bit of a cause. -/
def Cause.bit : Cause → Nat
  | .fire => 0
  | .storm => 1
  | .valveTrouble => 2
  | .unserved => 3
  | .flowLost => 4
  | .startFail => 5
  | .stopKey => 6

/-- The code of a first cause: bit + 1, and 0 for none. -/
def firstCauseCode : Option Cause → Nat
  | some c => c.bit + 1
  | none => 0

def SamplerMode.code : SamplerMode → Nat
  | .off => 0
  | .periodic => 1
  | .continuous => 2

def Pattern.code : Pattern → Nat
  | .none => 0
  | .allClear => 1
  | .slow => 2
  | .fast => 3
  | .steady => 4

def Pattern.ofCode? : Nat → Option Pattern
  | 0 => some .none
  | 1 => some .allClear
  | 2 => some .slow
  | 3 => some .fast
  | 4 => some .steady
  | _ => none

def BarrierState.code : BarrierState → Nat
  | .unarmed => 0
  | .held => 1
  | .queued => 2
  | .closing => 3
  | .closed => 4
  | .jammed => 5
  | .reopened => 6

def DamperWait.code : DamperWait → Nat
  | .idle => 0
  | .running _ => 1
  | .expired => 2

def ValveState.code : ValveState → Nat
  | .idle => 0
  | .opening => 1
  | .flowing => 2
  | .flowingUnconfirmed => 3
  | .cut => 4

def ReleaseOutcome.code : ReleaseOutcome → Nat
  | .notDownstream => 1
  | .beyondReach => 2
  | .timed => 3
  | .flood => 4
  | .missed => 5

def FloodReason.code : FloodReason → Nat
  | .untimed => 1
  | .viewNotFresh => 2
  | .fanPhase => 3
  | .lowFlow => 4
  | .sampleOld => 5
  | .noVelocity => 6
  | .belowFloor => 7

def Source.code : Source → Nat
  | .own => 0
  | .lineA => 1
  | .lineB => 2

def KeyKind.code : KeyKind → Nat
  | .silence => 1
  | .reset => 2

def KeyKind.ofCode? : Nat → Option KeyKind
  | 1 => some .silence
  | 2 => some .reset
  | _ => none

/-- The code of an output's role. -/
def OutputRole.code : OutputRole → Nat
  | .none => 0
  | .valve .. => 1
  | .fanContactor => 2
  | .abortGate => 3
  | .magnet .. => 4
  | .shutter .. => 5
  | .damper .. => 6
  | .siren .. => 7

def RecordKind.code : RecordKind → Nat
  | .start => 1
  | .configFault => 2
  | .configClamped => 3
  | .peerPresent => 4
  | .peerLost => 5
  | .numberClash => 6
  | .lineQuiet => 7
  | .lineTxFailed => 8
  | .lineTxOk => 9
  | .sensorFlag => 10
  | .stormOn => 11
  | .stormOff => 12
  | .escalated => 13
  | .zoneLatched => 14
  | .call => 15
  | .keySilence => 16
  | .keyReset => 17
  | .windowMissed => 18
  | .scheduleSaturated => 19
  | .waterFail => 20
  | .valveStuck => 21
  | .cutOff => 22
  | .fanPhase => 23
  | .startRefused => 24
  | .barrierClosed => 25
  | .barrierJammed => 26
  | .barrierReopened => 27
  | .sirenFault => 28
  | .allClear => 29
  | .supplyLow => 30
  | .supplyOk => 31

/-- The bit of an attention flag (Table 11.10). -/
def Attention.bit : Attention → Nat
  | .configClamped => 0
  | .numberClash => 1
  | .lineAQuiet => 2
  | .lineBQuiet => 3
  | .lineTxFailed => 4
  | .peerLost => 5
  | .singleLine => 6
  | .sensorFault => 7
  | .unserved => 8
  | .valveTrouble => 9
  | .scheduleSaturated => 10
  | .barrierFault => 11
  | .sirenFault => 12
  | .supplyLow => 13
  | .fanFault => 14
  | .startRefused => 15

/-- The sixteen attention flags in the order of their bits. -/
def Attention.all : List Attention :=
  [.configClamped, .numberClash, .lineAQuiet, .lineBQuiet, .lineTxFailed, .peerLost, .singleLine, .sensorFault,
   .unserved, .valveTrouble, .scheduleSaturated, .barrierFault, .sirenFault, .supplyLow, .fanFault, .startRefused]

end Sys2Proof.Machine
end

