-- ==== Sys2Proof/Machine/Ops.lean ====
section
/-! DEFINITION. The named operations over the station's state that several blocks share: taking an event at its
instant, filing into the event record (R159), setting attention flags (R161), reaching a line interface or a feedback,
and what an output's role says of it. Each operation writes whole fields, so that the other fields are read off it
unchanged. -/

namespace Sys2Proof.Machine

/-! ## Taking an event -/

/-- R149: the clock reads now when the event is taken. DESIGN CHOICE (assumption 1). -/
def State.takeAt (s : State) (now : Time) : State := { s with clock := now }

/-! ## The event record -/

/-- One filing: kind, subject and value. -/
structure Filing where
  kind : RecordKind
  subject : Byte
  value : Count
  deriving DecidableEq, Repr

/-- R159: an entry is added after the newest; a full record first discards its oldest entry and counts it as dropped.
R160: an entry that a TAKE_RECORD has sent and that is discarded is no longer the oldest. -/
def EventRecord.push (r : EventRecord) (e : Entry) : EventRecord :=
  if Config.recordPlaces ≤ r.entries.length then
    { entries := r.entries.drop 1 ++ [e], dropped := bump8 r.dropped, sent := false }
  else
    { r with entries := r.entries ++ [e] }

/-- R159: the stamp is the clock at the instant of filing. -/
def EventRecord.file (r : EventRecord) (now : Time) (f : Filing) : EventRecord :=
  r.push ⟨now, f.kind, f.subject, f.value⟩

def EventRecord.fileAll (r : EventRecord) (now : Time) (fs : List Filing) : EventRecord :=
  fs.foldl (fun r f => r.file now f) r

def State.file (s : State) (kind : RecordKind) (subject : Byte) (value : Count) : State :=
  { s with record := s.record.file s.clock ⟨kind, subject, value⟩ }

def State.fileAll (s : State) (fs : List Filing) : State :=
  { s with record := s.record.fileAll s.clock fs }

/-! ## Attention flags -/

def Attention.mask (a : Attention) : BitVec 16 := 1#16 <<< a.bit

/-- R161: a flag that is set stays set. -/
def State.raise (s : State) (a : Attention) : State := { s with flags := s.flags ||| a.mask }

def State.raiseIf (s : State) (b : Bool) (a : Attention) : State :=
  { s with flags := if b then s.flags ||| a.mask else s.flags }

def State.flagged (s : State) (a : Attention) : Bool := s.flags.getLsbD a.bit

/-! ## Lines -/

def State.line (s : State) : Line → LineInterface
  | .a => s.lineA
  | .b => s.lineB

def State.withLine (s : State) (l : Line) (x : LineInterface) : State :=
  { s with lineA := match l with | .a => x | .b => s.lineA
           lineB := match l with | .a => s.lineB | .b => x }

def otherLine : Line → Line
  | .a => .b
  | .b => .a

/-! ## Start phases -/

/-- R154: the station has a usable image and has left LOAD. -/
def State.started (s : State) : Bool :=
  match s.start.phase with
  | .listen | .settle | .operating => true
  | .load | .configFault => false

/-- R14: permission to transmit, granted from the end of LISTEN on. -/
def State.permitted (s : State) : Bool :=
  match s.start.phase with
  | .settle | .operating => true
  | .load | .listen | .configFault => false

def State.operating (s : State) : Bool := s.start.phase == .operating

/-! ## Roles of the outputs -/

def OutputRole.isValve : OutputRole → Bool
  | .valve .. => true
  | _ => false

def OutputRole.isMagnet : OutputRole → Bool
  | .magnet .. => true
  | _ => false

/-- R120: a motor barrier. -/
def OutputRole.isMotor : OutputRole → Bool
  | .shutter .. => true
  | .damper .. => true
  | _ => false

def OutputRole.isDamper : OutputRole → Bool
  | .damper .. => true
  | _ => false

def OutputRole.isBarrier (r : OutputRole) : Bool := r.isMagnet || r.isMotor

def OutputRole.isSiren : OutputRole → Bool
  | .siren .. => true
  | _ => false

def OutputRole.isNone : OutputRole → Bool
  | .none => true
  | _ => false

/-- The trigger zone mask of a barrier output. -/
def OutputRole.trigger : OutputRole → ZoneSet
  | .magnet t _ => t
  | .shutter t _ _ => t
  | .damper t _ _ _ => t
  | _ => 0

/-- The travel time of a barrier output, in ms. -/
def OutputRole.travelMs : OutputRole → Nat
  | .magnet _ t => t * 1000
  | .shutter _ _ t => t * 1000
  | .damper _ _ t _ => t * 1000
  | _ => 0

/-- The rank of a motor barrier. -/
def OutputRole.rank : OutputRole → Nat
  | .shutter _ r _ => r
  | .damper _ r _ _ => r
  | _ => 0

/-- The covered zone mask of a siren output. -/
def OutputRole.covered : OutputRole → ZoneSet
  | .siren c => c
  | _ => 0

def State.role (s : State) (o : Output) : OutputRole := s.setup.outputs[o]

/-- The outputs of a kind, in the order of their numbers. -/
def State.outputsOf (s : State) (p : OutputRole → Bool) : List Output :=
  (indexes 4).filter fun o => p (s.role o)

/-- The output of the fan contactor, and of the abort gate (R101). -/
def State.contactorOutput (s : State) : Option Output :=
  (indexes 4).find? fun o => s.role o == .fanContactor
def State.gateOutput (s : State) : Option Output :=
  (indexes 4).find? fun o => s.role o == .abortGate

/-- R63, R69: the station has at least one VALVE output. -/
def State.hasValve (s : State) : Bool := s.setup.roles.valve

/-- R101: the station has the FAN role. -/
def State.hasFan (s : State) : Bool := s.setup.roles.fan

/-- The station number as an octet. -/
def stationOctet (k : Station) : Byte := BitVec.ofNat 8 k.val

/-! ## Feedback inputs -/

/-- The debounced feedback of an output (R82, R101, R120, R137). -/
def State.feedback (s : State) (o : Output) : Bool := s.inputs.feedback[o].input.state

def State.feedbackOf (s : State) : Option Output → Bool
  | some o => s.feedback o
  | none => false

/-- R82, R101, R120, R137: the feedbacks of outputs in use are debounced from the entry to SETTLE on. -/
def State.feedbackDebounced (s : State) (o : Output) : Bool := s.permitted && !(s.role o).isNone

/-- A debounced input takes a state; its pin then stands at that level. -/
def Debounced.settled (active : Bool) : Debounced := ⟨active, active, none⟩

def Feedback.become (active : Bool) (now : Time) (f : Feedback) : Feedback :=
  { input := .settled active
    activeSince := if active then some (.of now) else f.activeSince }

/-- The debounced feedback of an output changes at now. -/
def State.setFeedback (s : State) (o : Output) (active : Bool) : State :=
  { s with inputs := { s.inputs with feedback := change s.inputs.feedback o (Feedback.become active s.clock) } }

/-! ## Zones -/

/-- R32: the zone level is the higher of the live and the latched level. -/
def ZonePicture.level (p : ZonePicture) (z : Zone) : Level := (p.live[z]).higher p.latched[z]

def State.zoneLevel (s : State) (z : Zone) : Level := s.zones.level z

/-- At least one zone of a set is at a level or higher. -/
def State.anyZone (s : State) (zs : ZoneSet) (l : Level) : Bool :=
  (indexes 16).any fun z => hasZone zs z && (s.zoneLevel z).atLeast l

/-- The outcome of every command of this part. -/
def answer (s : State) : Host.Outcome State Fault Refusal := .next s

end Sys2Proof.Machine
end

