-- ==== Sys2Proof/Machine/Operands.lean ====
section
/-! DEFINITION. The octets of notices (R3, R4, R163): the cyclic check, what the station sends for each kind of notice,
and the five tests that a received notice passes (R19). -/

namespace Sys2Proof.Machine

/-! ## Numbers as octets, most significant first -/

def be16 (n : Nat) : List Byte := [octet (n / 256), octet n]
def be24 (n : Nat) : List Byte := octet (n / 65536) :: be16 n
def be32 (n : Nat) : List Byte := octet (n / 16777216) :: be24 n

def number16 (x y : Byte) : Nat := x.toNat * 256 + y.toNat
def number24 (x y z : Byte) : Nat := x.toNat * 65536 + number16 y z

/-- A bit at its place in an octet. -/
def bitAt (b : Bool) (i : Nat) : Nat := if b then 2 ^ i else 0

/-! ## The check (R4) -/

/-- R4: one message bit: compare, shift, and combine with 1021 hexadecimal when the compared bits differed. -/
def crcBit (r : BitVec 16) (b : Bool) : BitVec 16 :=
  if r.msb == b then r <<< 1 else (r <<< 1) ^^^ 0x1021#16

/-- R4: the bits of an octet, most significant first. -/
def crcOctet (r : BitVec 16) (o : Byte) : BitVec 16 :=
  [7, 6, 5, 4, 3, 2, 1, 0].foldl (fun r i => crcBit r (o.getLsbD i)) r

/-- R4: the register starts at FFFF hexadecimal. -/
def crc (os : List Byte) : BitVec 16 := os.foldl crcOctet 0xFFFF#16

/-! ## Classes and envelope (R3) -/

def classCall : BitVec 3 := 0#3
def classSpark : BitVec 3 := 1#3
def classKey : BitVec 3 := 2#3
def classState : BitVec 3 := 3#3

/-- Table 1.6: the fixed payload length of a class; classes 4 to 7 are unassigned. -/
def payloadLength (c : BitVec 3) : Option Nat :=
  match c.toNat with
  | 0 => some 1
  | 1 => some 7
  | 2 => some 2
  | 3 => some 14
  | _ => none

/-- R3: 32 × class + station number. -/
def precedence (c : BitVec 3) (sender : BitVec 5) : Byte := c ++ sender

/-- The octets that the check covers. -/
def covered (c : BitVec 3) (sender : BitVec 5) (payload : List Byte) : List Byte :=
  precedence c sender :: octet payload.length :: payload

/-- R3: the whole notice as sent. -/
def envelope (c : BitVec 3) (sender : BitVec 5) (payload : List Byte) : List Byte :=
  covered c sender payload ++ be16 (crc (covered c sender payload)).toNat

/-! ## Payloads (Tables 11.2 to 11.5) -/

def Roles.toOctet (r : Roles) : Byte :=
  octet (bitAt r.sense 0 + bitAt r.valve 1 + bitAt r.barrier 2 + bitAt r.siren 3 + bitAt r.fan 4)

def Roles.ofOctet (x : Byte) : Roles :=
  ⟨x.getLsbD 0, x.getLsbD 1, x.getLsbD 2, x.getLsbD 3, x.getLsbD 4⟩

/-- Table 11.5. -/
def StateContent.payload (c : StateContent) : List Byte :=
  [c.roles.toOctet, octet (c.zone.val * 16 + c.system.val), octet c.ownLevel.code,
   octet (bitAt c.sensorFault 0 + bitAt c.unserved 1 + bitAt c.valveTrouble 2 + bitAt c.flood 3 + bitAt c.supplyLow 4 +
     bitAt c.lowFlow 5),
   octet c.fanPhase.code] ++ be16 c.velocity ++ be16 c.sampleAge ++
  [octet c.causes.toNat, octet (c.closed * 16 + c.jammed), octet c.pattern.code] ++ be16 c.cadence

/-- Table 11.5, octets 12–13: the values a cadence phase may take beside a pattern. -/
def cadenceInRange (p : Pattern) (n : Nat) : Bool :=
  match p with
  | .slow => n < Config.slowCycle
  | .fast => n < Config.fastCycle
  | .none | .allClear | .steady => n == 0

/-- R19, test 5, for a STATE payload: every field in its range, every field marked 0 at 0. -/
def StateContent.read? : List Byte → Option StateContent
  | [b0, b1, b2, b3, b4, b5, b6, b7, b8, b9, b10, b11, b12, b13] =>
    match Level.ofCode? b2.toNat, FanPhase.ofCode? b4.toNat, Pattern.ofCode? b11.toNat with
    | some level, some phase, some pattern =>
      if b0.toNat < 32 && (b1.toNat / 4) % 4 == 0 && b3.toNat < 64 && number16 b5 b6 ≤ Config.velocityLimit &&
          b9.toNat < 128 && b10.toNat / 16 ≤ 4 && b10.toNat % 16 ≤ 4 && cadenceInRange pattern (number16 b12 b13) then
        some
          { roles := Roles.ofOctet b0
            zone := Fin.ofNat 16 (b1.toNat / 16)
            system := Fin.ofNat 4 b1.toNat
            ownLevel := level
            sensorFault := b3.getLsbD 0
            unserved := b3.getLsbD 1
            valveTrouble := b3.getLsbD 2
            flood := b3.getLsbD 3
            supplyLow := b3.getLsbD 4
            lowFlow := b3.getLsbD 5
            fanPhase := phase
            velocity := number16 b5 b6
            sampleAge := number16 b7 b8
            causes := BitVec.ofNat 7 b9.toNat
            closed := b10.toNat / 16
            jammed := b10.toNat % 16
            pattern := pattern
            cadence := number16 b12 b13 }
      else none
    | _, _, _ => none
  | _ => none

/-- R70: what release timing reads of a SPARK notice, with the count that R19 tests. -/
structure SparkPayload where
  stale : Bool
  unserved : Bool
  branch : Branch
  count : Nat
  position : Nat
  span : Nat
  age : Nat
  deriving DecidableEq, Repr

/-- Table 11.3. -/
def SparkPayload.payload (p : SparkPayload) : List Byte :=
  [octet (bitAt p.stale 7 + bitAt p.unserved 6 + p.branch.val), octet p.count] ++
    be24 (p.position * 4096 + p.span) ++ be16 p.age

/-- R19, test 5, for a SPARK payload. -/
def SparkPayload.read? : List Byte → Option SparkPayload
  | [b0, b1, b2, b3, b4, b5, b6] =>
    if (b0.toNat / 16) % 4 == 0 && 1 ≤ b1.toNat && number24 b2 b3 b4 / 4096 ≤ 4000 && number16 b5 b6 ≤ Config.ageLimit then
      some
        { stale := b0.getLsbD 7
          unserved := b0.getLsbD 6
          branch := Fin.ofNat 16 b0.toNat
          count := b1.toNat
          position := number24 b2 b3 b4 / 4096
          span := number24 b2 b3 b4 % 4096
          age := number16 b5 b6 }
    else none
  | _ => none

/-- R19, test 5, for a KEY payload (Table 11.4). -/
def readKey? : List Byte → Option (KeyKind × Byte)
  | [kind, count] => (KeyKind.ofCode? kind.toNat).map fun k => (k, count)
  | _ => none

/-- R19, test 5, for a CALL payload (Table 11.2). -/
def readCall? : List Byte → Option Zone
  | [zone] => if zone.toNat < 16 then some (Fin.ofNat 16 zone.toNat) else none
  | _ => none

/-! ## The notices that the station sends -/

def Notice.class_ : Notice → BitVec 3
  | .call _ => classCall
  | .spark .. => classSpark
  | .key .. => classKey
  | .state _ => classState

/-- The payload of a SPARK report with the age written at the start of its attempt. -/
def SparkReport.carried (r : SparkReport) (age : Nat) : SparkPayload :=
  ⟨r.stale, r.unserved, r.branch, r.count, r.position, r.span, age⟩

def Notice.payload : Notice → List Byte
  | .call zone => [octet zone.val]
  | .spark _ report age => (report.carried age).payload
  | .key kind count => [octet kind.code, count]
  | .state content => content.payload

/-- R3, R163: the octets that a station sends for a notice. -/
def Notice.octets (sender : Station) (n : Notice) : List Byte :=
  envelope n.class_ (BitVec.ofNat 5 sender.val) n.payload

/-- What the station is sending on a line: the octets of the notice in the in-transmission place. -/
def State.sending (s : State) (l : Line) : Option (List Byte) :=
  (s.line l).place.map fun a => a.notice.octets s.setup.number

/-! ## The tests of a complete notice (R19) -/

/-- What the tests make of a complete notice. -/
inductive Verdict (α : Type) where
  | checkError
  | contentError
  | valid (content : α)

/-- R19: the check, the class, the length, the sender and the payload are tested in this order. -/
def verdict {α : Type} (c : BitVec 3) (read : List Byte → Option α) (rx : Received) : Verdict α :=
  if crc (covered c rx.sender rx.payload) ≠ rx.check then .checkError
  else if payloadLength c ≠ some rx.payload.length then .contentError
  else if rx.sender = 0#5 then .contentError
  else match read rx.payload with
    | some content => .valid content
    | none => .contentError

/-- The station that the precedence octet names. -/
def stationOf (rx : Received) : Station := rx.sender.toFin

end Sys2Proof.Machine
end

