-- ==== Sys2Proof/Machine/Image.lean ====
section
/-! DEFINITION. The configuration image: its layout (R164), the structural tests (R151, R67, R101, R121) and the clamping
of a usable image (R153). -/

namespace Sys2Proof.Machine

/-- An octet of the image. -/
def image8 (img : List Byte) (i : Nat) : Nat := (img.getD i 0).toNat
/-- A two-octet number of the image. -/
def image16 (img : List Byte) (i : Nat) : Nat := image8 img i * 256 + image8 img (i + 1)
/-- A four-octet number of the image. -/
def image32 (img : List Byte) (i : Nat) : Nat := image16 img i * 65536 + image16 img (i + 2)

/-! ## Raw readings used by the structural tests -/

def rawRole (img : List Byte) (o : Output) : Nat := image8 img (4 + 8 * o.val)
def rawRank (img : List Byte) (o : Output) : Nat := image8 img (7 + 8 * o.val)
def rawValveBranch (img : List Byte) (o : Output) : Nat := image8 img (5 + 8 * o.val)
def rawEnabled (img : List Byte) (c : Channel) : Bool := image8 img (36 + 8 * c.val) % 2 == 1
def rawChannelBranch (img : List Byte) (c : Channel) : Nat := image8 img (37 + 8 * c.val)
def rawEntry (img : List Byte) (b : Nat) : Nat := image8 img (68 + 6 * b)
def rawHasParent (img : List Byte) (b : Nat) : Bool := 128 ≤ rawEntry img b
def rawSystem (img : List Byte) (b : Nat) : Nat := rawEntry img b / 16 % 4
def rawParent (img : List Byte) (b : Nat) : Nat := rawEntry img b % 16
def rawLength (img : List Byte) (b : Nat) : Nat := image16 img (71 + 6 * b)

/-! ## Structural tests (R151, Table 9.2) -/

def outputOffset (o : Output) : Nat := 4 + 8 * o.val

def checkFault (img : List Byte) : Option Nat :=
  if (crc (img.take 254)).toNat = image16 img 254 then none else some 254

def formatFault (img : List Byte) : Option Nat := if img.getD 0 0 = Config.formatCode then none else some 0

def numberFault (img : List Byte) : Option Nat :=
  if image8 img 1 = 0 ∨ 31 < image8 img 1 then some 1 else none

/-- Table 9.2, ROLE: the lowest offset, when several records offend. DESIGN CHOICE (assumption 39). -/
def roleFault (img : List Byte) : Option Nat :=
  ((indexes 4).find? fun o => 7 < rawRole img o).map outputOffset

/-- The outputs with one of two role codes. -/
def rolesIn (img : List Byte) (x y : Nat) : List Output :=
  (indexes 4).filter fun o => rawRole img o == x || rawRole img o == y

/-- R101: FAN_CONTACTOR and ABORT_GATE are given to exactly one output each, or to none. -/
def fanRoleFault (img : List Byte) : Option Nat :=
  if (rolesIn img 2 2).length = (rolesIn img 3 3).length ∧ (rolesIn img 2 2).length ≤ 1 then none
  else (rolesIn img 2 3).head?.map outputOffset

/-- R121: the motor barriers whose rank another motor barrier has. -/
def rankClashes (img : List Byte) : List Output :=
  (rolesIn img 5 6).filter fun o => (rolesIn img 5 6).any fun p => p ≠ o && rawRank img p == rawRank img o

/-- R121, R151: the first record with a rank above 3, or otherwise the second record that offends.
DEDUCED (assumption 22). -/
def motorFault (img : List Byte) : Option Nat :=
  match (rolesIn img 5 6).find? fun o => 3 < rawRank img o with
  | some o => some (outputOffset o)
  | none =>
    if 3 < (rolesIn img 5 6).length then (rolesIn img 5 6)[1]?.map outputOffset
    else (rankClashes img)[1]?.map outputOffset

/-- R67: an entry in use whose parent is itself, has a parent, or lies in another duct system. A parent of length 0 is
tested like any other. DESIGN CHOICE (assumption 34). -/
def branchOffends (img : List Byte) (b : Nat) : Bool :=
  rawLength img b != 0 && rawHasParent img b &&
    (rawParent img b == b || rawHasParent img (rawParent img b) ||
      rawSystem img (rawParent img b) != rawSystem img b)

/-- Table 9.2, BRANCH_TABLE: the lowest offset, when several entries offend. DESIGN CHOICE (assumption 39). -/
def branchFault (img : List Byte) : Option Nat :=
  ((indexes 16).find? fun b => branchOffends img b.val).map fun b => 68 + 6 * b.val

/-- R67: a branch that a valve or an enabled channel may not name. -/
def branchUnusable (img : List Byte) (b : Nat) : Bool := 15 < b || rawLength img b == 0

/-- Table 9.2, ZERO_BRANCH: the lowest offset, outputs before channels, when several records offend.
DESIGN CHOICE (assumption 39). -/
def zeroBranchFault (img : List Byte) : Option Nat :=
  (((indexes 4).find? fun o => rawRole img o == 1 && branchUnusable img (rawValveBranch img o)).map outputOffset).or
    (((indexes 4).find? fun c => rawEnabled img c && branchUnusable img (rawChannelBranch img c)).map fun c =>
      36 + 8 * c.val)

/-- R151: the tests of Table 9.2 in order; the first that fails is the station's structural error. -/
def structuralError (img : List Byte) : Option (FaultKind × Nat) :=
  ((checkFault img).map (FaultKind.check, ·)).or <|
  ((formatFault img).map (FaultKind.format, ·)).or <|
  ((numberFault img).map (FaultKind.stationNumber, ·)).or <|
  ((roleFault img).map (FaultKind.role, ·)).or <|
  ((fanRoleFault img).map (FaultKind.fanRole, ·)).or <|
  ((motorFault img).map (FaultKind.motorBarriers, ·)).or <|
  ((branchFault img).map (FaultKind.branchTable, ·)).or
  ((zeroBranchFault img).map (FaultKind.zeroBranch, ·))

/-! ## Clamping (R153) -/

/-- R153: the nearer limit of a range. -/
def clamp (low high n : Nat) : Nat := max low (min high n)

/-- R153: a range that admits 0 or a span; a value in the gap becomes the lower limit of the span. -/
def clampOrZero (low high n : Nat) : Nat := if n = 0 then 0 else clamp low high n

/-- An item of the image that has a range: its offset, the value as read and the value the station uses. -/
structure Item where
  offset : Nat
  raw : Nat
  used : Nat
  deriving DecidableEq, Repr

def item8 (img : List Byte) (offset : Nat) (f : Nat → Nat) : Item := ⟨offset, image8 img offset, f (image8 img offset)⟩
def item16 (img : List Byte) (offset : Nat) (f : Nat → Nat) : Item := ⟨offset, image16 img offset, f (image16 img offset)⟩

def zoneItem (img : List Byte) : Item := item8 img 2 (clamp 0 15)
def systemItem (img : List Byte) : Item := item8 img 3 (clamp 0 3)

/-- Table 4.1. -/
def joinItem (img : List Byte) (b : Nat) : Item := item16 img (69 + 6 * b) (clamp 0 4000)
def lengthItem (img : List Byte) (b : Nat) : Item := item16 img (71 + 6 * b) (clamp 0 4000)
def factorItem (img : List Byte) (b : Nat) : Item := item8 img (73 + 6 * b) (clamp 1 128)

/-- R68: a position beyond the branch's length, as clamped, becomes that length. -/
def valvePositionItem (img : List Byte) (o : Output) : Item :=
  item16 img (6 + 8 * o.val) (clamp 0 (lengthItem img (rawValveBranch img o)).used)
def reachItem (img : List Byte) (o : Output) : Item := item16 img (8 + 8 * o.val) (clamp 10 2000)

/-- Table 7.1. -/
def travelItem (img : List Byte) (o : Output) : Item := item8 img (8 + 8 * o.val) (clamp 1 120)
def damperSystemItem (img : List Byte) (o : Output) : Item := item8 img (9 + 8 * o.val) (clamp 0 3)

/-- Table 3.1. -/
def channelBranchItem (img : List Byte) (c : Channel) : Item := item8 img (37 + 8 * c.val) (clamp 0 15)
def channelPositionItem (img : List Byte) (c : Channel) : Item := item16 img (38 + 8 * c.val) (clamp 0 4000)

/-- Tables 4.3, 5.1, 3.2, 6.1, 7.1 and R137, R155, in order of offset. -/
def spreadItem (img : List Byte) : Item := item8 img 164 (clamp 0 50)
def leadItem (img : List Byte) : Item := item16 img 165 (clamp 0 1000)
def holdItem (img : List Byte) : Item := item16 img 167 (clamp 0 2000)
def timingFloorItem (img : List Byte) : Item := item16 img 169 (clamp 20 400)
def floodHoldItem (img : List Byte) : Item := item16 img 171 (clamp 1000 30000)
def confirmItem (img : List Byte) : Item := item16 img 173 (clamp 100 2000)
def cutOffItem (img : List Byte) : Item := item8 img 175 (clamp 5 60)
def floodCutOffItem (img : List Byte) : Item := item16 img 176 (clamp 30 300)
def gapItem (img : List Byte) : Item := item16 img 178 (clamp 100 1000)
def testIntervalItem (img : List Byte) : Item := item8 img 180 (clamp 10 60)
def stormOnItem (img : List Byte) : Item := item8 img 181 (clamp 2 200)
def stormOffItem (img : List Byte) : Item := item8 img 182 (clamp 0 ((stormOnItem img).used - 1))
def escalationItem (img : List Byte) : Item := item8 img 183 (clampOrZero 5 120)
def scaleItem (img : List Byte) : Item := item8 img 184 (clamp 1 255)
def floorItem (img : List Byte) : Item := item16 img 185 (clamp 20 600)
def hysteresisItem (img : List Byte) : Item := item8 img 187 (clamp 0 100)
def stopItem (img : List Byte) : Item := item8 img 188 (clamp 0 200)
def gateTimeItem (img : List Byte) : Item := item16 img 189 (clamp 200 5000)
def rundownItem (img : List Byte) : Item := item16 img 191 (clamp 10 300)
def graceItem (img : List Byte) : Item := item8 img 193 (clamp 5 60)
def damperWaitItem (img : List Byte) : Item := item8 img 196 (clamp 0 60)
def resoundItem (img : List Byte) : Item := item16 img 197 (clampOrZero 60 900)
def supplyLowItem (img : List Byte) : Item := item8 img 199 (clamp 0 14)
/-- R153: a resume level not above the low level, as clamped, becomes the low level + 1. -/
def supplyResumeItem (img : List Byte) : Item := item8 img 200 (clamp ((supplyLowItem img).used + 1) 15)

/-- The items with a range that an output record holds, by its role. -/
def outputItems (img : List Byte) (o : Output) : List Item :=
  match rawRole img o with
  | 1 => [valvePositionItem img o, reachItem img o]
  | 4 | 5 => [travelItem img o]
  | 6 => [travelItem img o, damperSystemItem img o]
  | _ => []

/-- The items with a range that a branch table entry holds; a join position is read only with a parent. -/
def branchItems (img : List Byte) (b : Nat) : List Item :=
  (if rawHasParent img b then [joinItem img b] else []) ++ [lengthItem img b, factorItem img b]

/-- R153: every item with a range, in order of offset. DEDUCED (assumption 21). -/
def imageItems (img : List Byte) : List Item :=
  [zoneItem img, systemItem img] ++
  (indexes 4).flatMap (outputItems img) ++
  ((indexes 4).flatMap fun c => [channelBranchItem img c, channelPositionItem img c]) ++
  ((indexes 16).flatMap fun b => branchItems img b.val) ++
  [spreadItem img, leadItem img, holdItem img, timingFloorItem img, floodHoldItem img,
   confirmItem img, cutOffItem img, floodCutOffItem img, gapItem img,
   testIntervalItem img, stormOnItem img, stormOffItem img, escalationItem img,
   scaleItem img, floorItem img, hysteresisItem img, stopItem img, gateTimeItem img, rundownItem img, graceItem img,
   damperWaitItem img, resoundItem img, supplyLowItem img, supplyResumeItem img]

/-- R153: the CONFIG_CLAMPED records, in order of offset. -/
def clampFilings (img : List Byte) : List Filing :=
  ((imageItems img).filter fun i => i.raw ≠ i.used).map fun i =>
    ⟨.configClamped, octet i.offset, BitVec.ofNat 16 i.raw⟩

/-! ## The setup of a usable image -/

def imageZones (img : List Byte) (i : Nat) : ZoneSet := BitVec.ofNat 16 (image16 img i)

/-- R164: an output record. -/
def imageOutput (img : List Byte) (o : Output) : OutputRole :=
  match rawRole img o with
  | 1 => .valve (Fin.ofNat 16 (rawValveBranch img o)) (valvePositionItem img o).used (reachItem img o).used
  | 2 => .fanContactor
  | 3 => .abortGate
  | 4 => .magnet (imageZones img (5 + 8 * o.val)) (travelItem img o).used
  | 5 => .shutter (imageZones img (5 + 8 * o.val)) (rawRank img o) (travelItem img o).used
  | 6 => .damper (imageZones img (5 + 8 * o.val)) (rawRank img o) (travelItem img o).used
      (Fin.ofNat 4 (damperSystemItem img o).used)
  | 7 => .siren (imageZones img (5 + 8 * o.val))
  | _ => .none

def imageChannel (img : List Byte) (c : Channel) : ChannelRecord where
  enabled := rawEnabled img c
  branch := Fin.ofNat 16 (channelBranchItem img c).used
  position := (channelPositionItem img c).used
  serving := BitVec.ofNat 32 (image32 img (40 + 8 * c.val))

def imageBranch (img : List Byte) (b : Branch) : BranchEntry where
  system := Fin.ofNat 4 (rawSystem img b.val)
  parent := if rawHasParent img b.val then some (Fin.ofNat 16 (rawParent img b.val)) else none
  join := if rawHasParent img b.val then (joinItem img b.val).used else 0
  length := (lengthItem img b.val).used
  factor := (factorItem img b.val).used

/-- R150: the roles derived from the image copy; FAN when the fan-role test passes and the two roles are given. -/
def imageRoles (img : List Byte) : Roles where
  sense := (indexes 4).any (rawEnabled img)
  valve := !(rolesIn img 1 1).isEmpty
  barrier := !(rolesIn img 4 4).isEmpty || !(rolesIn img 5 6).isEmpty
  siren := !(rolesIn img 7 7).isEmpty
  fan := (fanRoleFault img).isNone && !(rolesIn img 2 3).isEmpty

/-- Table 9.1: what a usable image makes of the station. -/
def imageSetup (img : List Byte) : Setup where
  number := Fin.ofNat 32 (image8 img 1)
  zone := Fin.ofNat 16 (zoneItem img).used
  system := Fin.ofNat 4 (systemItem img).used
  roles := imageRoles img
  outputs := tabulate (imageOutput img)
  channels := tabulate (imageChannel img)
  branches := tabulate (imageBranch img)
  timing := ⟨(spreadItem img).used, (leadItem img).used, (holdItem img).used, (timingFloorItem img).used,
    (floodHoldItem img).used⟩
  valves := ⟨(confirmItem img).used, (cutOffItem img).used, (floodCutOffItem img).used, (gapItem img).used⟩
  sensing := ⟨(testIntervalItem img).used, (stormOnItem img).used, (stormOffItem img).used, (escalationItem img).used⟩
  extraction := ⟨(scaleItem img).used, (floorItem img).used, (hysteresisItem img).used, (stopItem img).used,
    (gateTimeItem img).used, (rundownItem img).used, (graceItem img).used, imageZones img 194⟩
  damperWait := (damperWaitItem img).used
  resound := (resoundItem img).used
  supplyLow := (supplyLowItem img).used
  supplyResume := (supplyResumeItem img).used
  mask := imageZones img 201

end Sys2Proof.Machine
end

