-- ==== Sys2Proof/Machine/ZoneOps.lean ====
section
/-! DEFINITION. The own-level unit (R29, R30), the zone picture (R31 to R35), the fan views (R36 to R38), the flood
state of a duct system (R95) and the serving of spark channels (R61, R62). -/

namespace Sys2Proof.Machine

/-! ## Own level -/

/-- R45: a channel is active from the entry to SETTLE onward, while it is enabled. -/
def State.channelActive (s : State) (c : Channel) : Bool := s.permitted && s.setup.channels[c].enabled

/-- R29: the storm source. -/
def State.anyStorm (s : State) : Bool := (indexes 4).any fun c => s.sensing.channels[c].storm.isSome

/-- R29, Table 2.4: the highest level among the sources that stand; R30: from the start of LISTEN. -/
def State.composedLevel (s : State) : Level :=
  if !s.started then .quiet
  else if s.inputs.call.state then .evacuate
  else if s.inputs.heat.state || s.own.escalation then .fire
  else if s.anyStorm then .storm
  else if s.own.watchHold.isSome then .watch
  else .quiet

def State.recomposeOwn (s : State) : State := { s with own := { s.own with level := s.composedLevel } }

/-! ## Zone levels -/

/-- R24: an entry that is PRESENT and state-known is reporting. -/
def Peer.reporting (p : Peer) : Bool := p.presence == .present && p.known

/-- R31: what a peer entry contributes. -/
def Peer.contribution (p : Peer) : Option (Zone × Level) :=
  if p.presence ≠ .present then none
  else match p.override with
    | some z => some (z, .evacuate)
    | none => if p.known then p.content.map fun c => (c.zone, c.ownLevel) else none

/-- R31: the contributions of the station itself and of its peers. -/
def State.contributions (s : State) : List (Zone × Level) :=
  (s.setup.zone, s.own.level) :: s.peers.toList.filterMap Peer.contribution

/-- R32: the highest contribution in a zone, and QUIET when there is none. -/
def highestIn (z : Zone) (cs : List (Zone × Level)) : Level :=
  cs.foldl (fun l c => if c.1 = z then l.higher c.2 else l) .quiet

def State.liveLevels (s : State) : Vector Level 16 :=
  let cs := s.contributions
  tabulate fun z => highestIn z cs

/-- R33: the latched level rises to a live level of FIRE or EVACUATE that is above it. -/
def latchRule (live latched : Level) : Level := if live.atLeast .fire then latched.higher live else latched

/-- R33: the zones whose latched level differs, each with its new latched level. -/
def latchFilings (old new : Vector Level 16) : List Filing :=
  (indexes 16).filterMap fun z =>
    if old[z] = new[z] then none else some ⟨.zoneLatched, octet z.val, BitVec.ofNat 16 new[z].code⟩

/-- R141: a latched level of a covered zone has risen. -/
def anyRisen (covered : ZoneSet) (old new : Vector Level 16) : Bool :=
  (indexes 16).any fun z => hasZone covered z && old[z].code < new[z].code

/-- R141: the fire-seen flags follow the latches of the zones that each siren output covers. -/
def State.seeFire (s : State) (old new : Vector Level 16) : Vector Siren 4 :=
  tabulate fun o =>
    let u := s.sirens.units[o]
    { u with fireSeen := u.fireSeen || (s.operating && (s.role o).isSiren && anyRisen (s.role o).covered old new) }

/-- R32, R33: the live levels are recomputed and the latch rule follows at once. -/
def State.recomputeZones (s : State) : State :=
  let live := s.liveLevels
  let latched := tabulate fun z => latchRule live[z] s.zones.latched[z]
  { s with
    zones := ⟨live, latched⟩
    record := s.record.fileAll s.clock (latchFilings s.zones.latched latched)
    sirens := { s.sirens with units := s.seeFire s.zones.latched latched } }

/-- R35: on RESET the latched levels fall to QUIET, the live levels are recomputed and the latch rule is applied; the
recompute files nothing. -/
def State.resetZones (s : State) : State :=
  let live := s.liveLevels
  { s with zones := ⟨live, tabulate fun z => latchRule live[z] .quiet⟩ }

/-! ## Fan views -/

/-- R36: whether a station is a candidate for the view of a duct system. -/
def State.candidate (s : State) (system : System) (k : Station) : Bool :=
  if k = s.setup.number then s.started && s.hasFan && s.setup.system == system
  else
    let p := s.peers[k]
    p.reporting && (match p.content with
      | some c => c.roles.fan && c.system == system
      | none => false)

def State.candidates (s : State) (system : System) : List Station := (indexes 32).filter (s.candidate system)

/-- R36, R38: the lowest-numbered candidate is the source, and more than one candidate is a clash. At a fan station too,
whose own system may then have a lower-numbered peer as its source; release timing reads the own controller's state all the
same (R73, State.timingView). DEDUCED (assumption 33). -/
def State.chosenView (s : State) (system : System) : FanView :=
  let cs := s.candidates system
  ⟨cs.head?, 1 < cs.length⟩

/-- R36, R38: the sources are chosen again; FAN_FAULT is set when a view comes to carry a clash mark. -/
def State.chooseViews (s : State) : State :=
  let views := tabulate s.chosenView
  { s with
    views := views
    flags := if (indexes 4).any fun d => views[d].clash && !s.views[d].clash then s.flags ||| Attention.fanFault.mask
      else s.flags }

/-- R37: what a fresh view holds. -/
structure ViewData where
  phase : FanPhase
  velocity : Nat
  age : Nat
  lowFlow : Bool
  causes : BitVec 7
  deriving DecidableEq, Repr

/-- R105: the clock minus the last-sample instant, saturating at 65535, and 65535 without one. -/
def State.sampleAge (s : State) : Nat :=
  match s.extraction.lastSample with
  | some i => min 65535 (i.elapsed s.clock)
  | none => 65535

/-- R37: the own extraction controller as the source. -/
def State.ownViewData (s : State) : ViewData :=
  ⟨s.extraction.phase, s.extraction.velocity, s.sampleAge, s.extraction.lowFlow, s.extraction.causes⟩

/-- R37: a peer entry as the source; the effective sample age grows from the receive instant. -/
def Peer.viewData (now : Time) (p : Peer) : Option ViewData :=
  match p.content, p.received with
  | some c, some i =>
    some ⟨c.fanPhase, c.velocity, min 65535 (c.sampleAge + i.elapsed now), c.lowFlow, c.causes⟩
  | _, _ => none

/-- R37: the data of the view of a duct system at now; none while the view is not fresh. -/
def State.viewData (s : State) (system : System) : Option ViewData :=
  match s.views[system].source with
  | none => none
  | some k => if k = s.setup.number then some s.ownViewData else (s.peers[k]).viewData s.clock

/-! ## Flood (R95) -/

/-- R95: a phase in which the fan moves the air steadily. -/
def FanPhase.steady : FanPhase → Bool
  | .running => true
  | .diverting => true
  | .standby | .starting | .rundown | .stopped => false

def State.inFlood (s : State) (system : System) : Bool :=
  match s.viewData system with
  | none => true
  | some v => !v.phase.steady || v.lowFlow

/-- The duct system of a branch in the station's table. -/
def State.branchSystem (s : State) (b : Branch) : System := s.setup.branches[b].system

/-- R94, R95: the duct system of a valve output. -/
def State.valveSystem (s : State) (o : Output) : System :=
  match s.role o with
  | .valve b _ _ => s.branchSystem b
  | _ => 0

/-! ## Serving (R61, R62) -/

/-- R61: whether a station counts as PRESENT for a serving-station mask. -/
def State.servingPresent (s : State) (k : Station) : Bool :=
  if k = s.setup.number then s.hasValve else (s.peers[k]).presence == .present

/-- R61: a channel is served while a station of its mask is PRESENT; bit 0 of the mask is not read. -/
def State.served (s : State) (c : Channel) : Bool :=
  (indexes 32).any fun k => k ≠ 0 && s.setup.channels[c].serving.getLsbD k.val && s.servingPresent k

/-- R62: an active channel is unserved. -/
def State.anyUnserved (s : State) : Bool := (indexes 4).any fun c => s.channelActive c && !s.served c

/-- R62: the STATE unserved field is judged; the attention flag is set when it becomes set. -/
def State.judgeServed (s : State) : State :=
  { s with
    sensing := { s.sensing with unserved := s.anyUnserved }
    flags := if s.anyUnserved && !s.sensing.unserved then s.flags ||| Attention.unserved.mask else s.flags }

end Sys2Proof.Machine
end

