-- ==== Sys2Proof/Machine/Assembler.lean ====
section
/-! DEFINITION. The STATE assembler (R17): the reported fields as their owners define them, and the fills of the STATE
slots. -/

namespace Sys2Proof.Machine

/-- R58: a channel is in sensor fault while at least one of its three flags is set. -/
def SparkChannel.fault (c : SparkChannel) : Bool := c.blinded || c.silent || c.noisy

def State.anySensorFault (s : State) : Bool :=
  (indexes 4).any fun c => s.channelActive c && s.sensing.channels[c].fault

/-- R97: an output has valve trouble while at least one of its sticky faults is set. -/
def Valve.trouble (v : Valve) : Bool := v.waterFail || v.stuck || v.cutOff

def State.valveTrouble (s : State) : Bool :=
  (indexes 4).any fun o => (s.role o).isValve && s.valves[o].trouble

/-- R95: the STATE flood field. -/
def State.floodField (s : State) : Bool :=
  (indexes 4).any fun o => (s.role o).isValve && s.flood[s.valveSystem o]

/-- R136: how many barrier outputs are in a state. -/
def State.barriersIn (s : State) (b : BarrierState) : Nat :=
  ((indexes 4).filter fun o => (s.role o).isBarrier && s.barriers.units[o].state == b).length

/-- The higher-ranked of two patterns (R146). -/
def Pattern.higher (x y : Pattern) : Pattern := if x.code < y.code then y else x

/-- R146: the highest pattern sounding on any siren output. -/
def State.reportedPattern (s : State) : Pattern :=
  (indexes 4).foldl (fun p o => if (s.role o).isSiren then p.higher s.sirens.units[o].pattern else p) .none

/-- R17, R119: the reported fields of a STATE. The sample age and cadence phase are written at each attempt (R16), and
the extraction fields of a station without the FAN role are those of R119. -/
def State.reported (s : State) : StateContent where
  roles := s.setup.roles
  zone := s.setup.zone
  system := s.setup.system
  ownLevel := s.own.level
  sensorFault := s.anySensorFault
  unserved := s.sensing.unserved
  valveTrouble := s.valveTrouble
  flood := s.floodField
  supplyLow := s.supply.low
  lowFlow := s.hasFan && s.extraction.lowFlow
  fanPhase := if s.hasFan then s.extraction.phase else .standby
  velocity := if s.hasFan then s.extraction.velocity else 0
  sampleAge := 0
  causes := if s.hasFan then s.extraction.causes else 0
  closed := s.barriersIn .closed
  jammed := s.barriersIn .jammed
  pattern := s.reportedPattern
  cadence := 0

/-- R11: new content for a STATE slot replaces the whole content, when go holds. -/
def LineInterface.fillStateIf (go : Bool) (c : StateContent) (x : LineInterface) : LineInterface :=
  { x with slots := { x.slots with state := if go then some c else x.slots.state } }

/-- R17: a fill of both STATE slots, when go holds; each fill restarts the STATE interval. -/
def State.fillIf (s : State) (go : Bool) : State :=
  { s with
    lineA := s.lineA.fillStateIf go s.reported
    lineB := s.lineB.fillStateIf go s.reported
    assembler :=
      { interval := if go then some (after s.clock Config.stateInterval) else s.assembler.interval
        last := if go then some s.reported else s.assembler.last } }

def State.fill (s : State) : State := s.fillIf true

/-- R17: from the end of LISTEN, a reported field has changed since the most recent fill. -/
def State.reportChanged (s : State) : Bool := s.permitted && s.assembler.last != some s.reported

/-- R17: the slots are filled whenever a reported field changes.
DEDUCED (assumption 14). -/
def State.fillOnChange (s : State) : State := s.fillIf s.reportChanged

/-- R10, R17: a fill of one line's STATE slot. -/
def State.fillLine (s : State) (l : Line) : State :=
  { s.withLine l ((s.line l).fillStateIf true s.reported) with
    assembler := ⟨some (after s.clock Config.stateInterval), some s.reported⟩ }

end Sys2Proof.Machine
end

