-- ==== Sys2Proof/Machine/Flags.lean ====
section
/-! DEFINITION. The conditions of the sixteen attention flags (R161, Table 10.3), their judgement on RESET, and the
ATTN pin (R162). -/

namespace Sys2Proof.Machine

/-- R20, R22: an instant lies within the last 1500 ms. DEDUCED (assumption 11). -/
def recent (now : Time) (i : Option Instant) : Bool :=
  match i with
  | some x => x.elapsed now < Config.freshness
  | none => false

def Peer.heard (p : Peer) : Line → Option Instant
  | .a => p.heardA
  | .b => p.heardB

/-- R22, first test: no valid notice on the line for 1500 ms, measured until the first one from the start of LISTEN. -/
def State.unheard (s : State) (l : Line) : Bool :=
  match (s.line l).lastValid with
  | some i => Config.freshness ≤ i.elapsed s.clock
  | none => match s.start.listenStart with
    | some i => Config.freshness ≤ i.elapsed s.clock
    | none => false

/-- R22, second test: some peer entry is PRESENT and was heard on the other line within the last 1500 ms. -/
def State.heardOnOther (s : State) (l : Line) : Bool :=
  s.peers.toList.any fun p => p.presence == .present && recent s.clock (p.heard (otherLine l))

/-- R22: both tests of LINE_x_QUIET hold. -/
def State.quietTests (s : State) (l : Line) : Bool := s.started && s.unheard l && s.heardOnOther l

/-- R116: a START press would be refused in this phase. -/
def State.startRefusable (s : State) : Bool :=
  (s.extraction.phase == .standby || s.extraction.phase == .stopped) &&
    (s.extraction.conditions.storm || s.extraction.conditions.fire || s.extraction.conditions.valveTrouble)

/-- Table 10.3: whether the condition of a flag stands. -/
def State.condition (s : State) : Attention → Bool
  | .configClamped => false
  | .numberClash => recent s.clock s.lineA.lastClash || recent s.clock s.lineB.lastClash
  | .lineAQuiet => s.quietTests .a
  | .lineBQuiet => s.quietTests .b
  | .lineTxFailed => s.lineA.txState == .failed || s.lineB.txState == .failed
  | .peerLost => s.peers.toList.any fun p => p.presence == .lost
  | .singleLine => s.peers.toList.any fun p => p.single.isSome
  | .sensorFault => s.anySensorFault
  | .unserved => s.sensing.unserved
  | .valveTrouble => s.valveTrouble
  | .scheduleSaturated =>
    (indexes 4).any fun o => (s.role o).isValve && s.valves[o].schedule.length == Config.windows
  | .barrierFault => 0 < s.barriersIn .jammed + s.barriersIn .reopened
  | .sirenFault => (indexes 4).any fun o => (s.role o).isSiren && s.sirens.units[o].fault
  | .supplyLow => s.supply.low
  | .fanFault =>
    s.extraction.startFail || s.extraction.gateFail || s.extraction.rundownSlow || s.extraction.contactor.stands ||
      s.extraction.gate.stands || (indexes 4).any fun d => s.views[d].clash
  | .startRefused => s.startRefusable

/-- R161: the flags whose conditions stand. -/
def State.standing (s : State) : BitVec 16 :=
  Attention.all.foldl (fun m a => if s.condition a then m ||| a.mask else m) 0#16

/-- R161: on RESET a flag is cleared if its condition does not stand. -/
def State.judgeFlags (s : State) : State := { s with flags := s.flags &&& s.standing }

/-- R162, R152: the level of the ATTN pin. -/
def State.attn (s : State) : Bool :=
  s.start.phase == .configFault || (s.flags &&& s.setup.mask) != 0#16

/-- R22: a line comes to be quiet: the record and the attention flag; or it stops being so.
DEDUCED (assumption 12). -/
def State.judgeQuiet (s : State) (l : Line) : State :=
  let onset := s.quietTests l && !(s.line l).quiet
  let flag := match l with
    | .a => Attention.lineAQuiet
    | .b => Attention.lineBQuiet
  { s.withLine l { s.line l with quiet := s.quietTests l } with
    record := if onset then s.record.file s.clock ⟨.lineQuiet, octet (lineCode l), 0⟩ else s.record
    flags := if onset then s.flags ||| flag.mask else s.flags }

end Sys2Proof.Machine
end

