-- ==== Sys2Proof/Machine/LineOps.lean ====
section
/-! DEFINITION. The line interface: the send queue and its choice (R11, R12), attempts and their ends (R5 to R10), the
fields written at transmission start (R15, R16), and the receive stage (R18 to R21). -/

namespace Sys2Proof.Machine

/-! ## The send queue (R11) -/

/-- R11: a slot. -/
inductive Slot where
  | state | call | silence | reset
  | spark (channel : Channel)
  deriving DecidableEq, Repr

def Slots.pending (x : Slots) : Slot → Bool
  | .state => x.state.isSome
  | .call => x.call.isSome
  | .silence => x.silence.isSome
  | .reset => x.reset.isSome
  | .spark c => x.spark[c].isSome

/-- R5: the slot becomes empty. -/
def Slots.empty (x : Slots) : Slot → Slots
  | .state => { x with state := none }
  | .call => { x with call := none }
  | .silence => { x with silence := none }
  | .reset => { x with reset := none }
  | .spark c => { x with spark := put x.spark c none }

/-- R11: the CALL slot is filled with the station's zone, or rewritten. -/
def State.fillCall (s : State) : State :=
  { s with
    lineA := { s.lineA with slots := { s.lineA.slots with call := some s.setup.zone } }
    lineB := { s.lineB with slots := { s.lineB.slots with call := some s.setup.zone } } }

/-- R11: a KEY slot is filled with the current press count, or its count is replaced. -/
def Slots.fillKey (x : Slots) (k : KeyKind) (count : Byte) : Slots :=
  match k with
  | .silence => { x with silence := some count }
  | .reset => { x with reset := some count }

def State.fillKey (s : State) (k : KeyKind) (count : Byte) : State :=
  { s with
    lineA := { s.lineA with slots := s.lineA.slots.fillKey k count }
    lineB := { s.lineB with slots := s.lineB.slots.fillKey k count } }

/-- R12: the classes in order, without STATE. -/
def slotOrder : List Slot := [.call, .spark 0, .spark 1, .spark 2, .spark 3, .silence, .reset]

/-- R12: STATE may be chosen while it is pending and the round hold is clear. -/
def LineInterface.stateChoice (x : LineInterface) : Option Slot :=
  if x.slots.state.isSome && !x.roundHold then some .state else none

/-- R12: until the first successful STATE only the STATE slot is chosen; afterwards the slots in class order. -/
def LineInterface.choice (x : LineInterface) : Option Slot :=
  if x.firstState then (slotOrder.find? x.slots.pending).or x.stateChoice else x.stateChoice

/-- R5: what is due on the line: the queue's choice when the TX state is OK, the probe when it is FAILED. -/
def LineInterface.dueSlot (x : LineInterface) : Option Slot :=
  match x.txState with
  | .ok => x.choice
  | .failed => if x.probeDue && x.slots.state.isSome then some .state else none

/-! ## Fields written at transmission start -/

/-- R139: the value of a running cadence phase at an instant. -/
def Cadence.at_ (cycle : Nat) (now : Time) (c : Cadence) : Nat :=
  (c.value + (now - c.anchor).toNat) % cycle

/-- R16: the phase of the pattern that a STATE reports. -/
def State.cadenceFor (s : State) (p : Pattern) : Nat :=
  match p with
  | .slow => match s.sirens.slow with
    | some c => c.at_ Config.slowCycle s.clock
    | none => 0
  | .fast => match s.sirens.fast with
    | some c => c.at_ Config.fastCycle s.clock
    | none => 0
  | .none | .allClear | .steady => 0

/-- R16: the sample age and the cadence phase. -/
def State.stampState (s : State) (c : StateContent) : StateContent :=
  { c with
    sampleAge := if s.hasFan then s.sampleAge else 0
    cadence := s.cadenceFor c.pattern }

/-- R15: the age that an attempt writes. -/
def SparkReport.age (now : Time) (r : SparkReport) : Nat := min Config.ageLimit (r.first.elapsed now)

/-- R15: the notice's STALE flag is set when the age is written as 1023, and stays set. -/
def SparkReport.stampStale (now : Time) (r : SparkReport) : SparkReport :=
  { r with stale := r.stale || r.age now == Config.ageLimit }

/-- R5, R15, R16: the notice that an attempt moves out of a slot, its transmission-start fields written. -/
def State.noticeFrom (s : State) (x : Slots) : Slot → Option Notice
  | .state => x.state.map fun c => .state (s.stampState c)
  | .call => x.call.map .call
  | .silence => x.silence.map (.key .silence)
  | .reset => x.reset.map (.key .reset)
  | .spark c => x.spark[c].map fun r => .spark c (r.stampStale s.clock) (r.age s.clock)

/-- R5: an attempt begins with a slot that is due. -/
def State.beginAttempt (s : State) (x : LineInterface) (slot : Slot) : LineInterface :=
  match s.noticeFrom x.slots slot with
  | some n =>
    { x with
      slots := x.slots.empty slot
      place := some ⟨n, x.txState == .failed, s.clock⟩
      probeDue := false
      stage := .assembling s.clock }
  | none => x

/-! ## The end of an attempt -/

/-- R8: the older and the newer copy of a SPARK combined. -/
def SparkReport.combine (older newer : SparkReport) : SparkReport :=
  let span := min Config.spanLimit (older.first.elapsed (after newer.first.reading newer.span))
  { newer with
    first := older.first
    count := min 255 (older.count + newer.count)
    span := span
    stale := older.stale || newer.stale || span == Config.spanLimit }

/-- R8: the notice of an unsuccessful attempt goes back to its slot; newer STATE, CALL and KEY content is kept. -/
def Slots.giveBack (x : Slots) : Notice → Slots
  | .state c => { x with state := x.state.or (some c) }
  | .call z => { x with call := x.call.or (some z) }
  | .key .silence n => { x with silence := x.silence.or (some n) }
  | .key .reset n => { x with reset := x.reset.or (some n) }
  | .spark c r _ =>
    { x with spark := change x.spark c fun newer => match newer with
        | none => some r
        | some w => some (r.combine w) }

/-- R8: the in-transmission place becomes empty. -/
def LineInterface.giveBack (x : LineInterface) (a : Attempt) : LineInterface :=
  { x with place := none, slots := x.slots.giveBack a.notice }

/-- R6, R10: contention is lost; a probe stays due. -/
def LineInterface.loseContention (x : LineInterface) (a : Attempt) : LineInterface :=
  { x.giveBack a with
    counters := { x.counters with contention := bump x.counters.contention }
    probeDue := x.probeDue || a.probe }

/-- R7: the consecutive TX error count after one more error. -/
def LineInterface.moreErrors (x : LineInterface) : Nat := min Config.txErrorLimit (x.consecutive + 1)

/-- R9: this error makes an OK line FAILED. -/
def LineInterface.fails (x : LineInterface) : Bool :=
  x.txState == .ok && x.moreErrors == Config.txErrorLimit

/-- R18: what the receive stage has after a TX error at this bit of the attempt: a first start bit, bit 0, that read back
recessive begins no notice, so the line is as it was, idle; after any other bit the stage keeps assembling, or stays busy
when it has given the notice up. DEDUCED (assumption 9). -/
def LineInterface.stageAfter (x : LineInterface) (bit : Nat) : ReceiveStage :=
  match x.stage with
  | .busy => .busy
  | .idle => .idle
  | .assembling start => if bit = 0 then .idle else .assembling start

/-- R7, R9, R10: a TX error; the probe timer starts when the line becomes FAILED and restarts after a failed probe. -/
def LineInterface.txErrorAt (now : Time) (bit : Nat) (x : LineInterface) (a : Attempt) : LineInterface :=
  { x.giveBack a with
    stage := x.stageAfter bit
    counters := { x.counters with tx := bump x.counters.tx }
    consecutive := x.moreErrors
    txState := if x.fails then .failed else x.txState
    probeTimer := if x.fails || a.probe then some (after now Config.probe) else x.probeTimer }

def Notice.isState : Notice → Bool
  | .state _ => true
  | .call _ | .key .. | .spark .. => false

/-- R7, R10, R13: the attempt is successful; the own notice has been read back whole, so the line is busy until idle. -/
def LineInterface.succeed (x : LineInterface) (a : Attempt) : LineInterface :=
  { x with
    place := none
    stage := .busy
    consecutive := 0
    txState := if a.probe then .ok else x.txState
    probeTimer := if a.probe then none else x.probeTimer
    roundHold := x.roundHold || a.notice.isState
    firstState := x.firstState || a.notice.isState }

/-! ## Reception -/

/-- R18, R20: a notice that completes or gets its length octet is another station's: the line is not busy, and the station's
own attempt, if there was one, has ended. DEDUCED (assumption 9 and 25). -/
def LineInterface.receiving (x : LineInterface) : Bool := x.stage != .busy && x.place.isNone

/-- R18: the receive-start instant: that of the own attempt which lost or failed, or that of the notice. -/
def LineInterface.receiveStart (x : LineInterface) (start : Time) : Time :=
  match x.stage with
  | .assembling t => t
  | .idle | .busy => start

/-- R18, R19: a discarded notice is counted, and the line is busy until it is idle. -/
def LineInterface.discardFraming (x : LineInterface) : LineInterface :=
  { x with stage := .busy, counters := { x.counters with framing := bump x.counters.framing } }
def LineInterface.discardContent (x : LineInterface) : LineInterface :=
  { x with stage := .busy, counters := { x.counters with content := bump x.counters.content } }
def LineInterface.discardCheck (x : LineInterface) : LineInterface :=
  { x with stage := .busy, counters := { x.counters with check := bump x.counters.check } }

/-- R21: during LOAD and in CONFIG_FAULT a valid notice is counted and goes no further. DEDUCED (assumption 13). -/
def LineInterface.countValid (x : LineInterface) : LineInterface :=
  { x with stage := .busy, counters := { x.counters with valid := bump x.counters.valid } }

/-- R20, R21: a valid notice received; the instant at which it completes is the line's last-valid-notice instant. -/
def LineInterface.takeValid (now : Time) (x : LineInterface) : LineInterface :=
  { x.countValid with lastValid := some (.of now) }

/-- R20: a clash notice. -/
def State.clash (s : State) (l : Line) (class_ : BitVec 3) (rx : Received) : State :=
  let x := s.line l
  { s.withLine l { x.takeValid s.clock with lastClash := some (.of s.clock) } with
    flags := s.flags ||| Attention.numberClash.mask
    record := if recent s.clock x.lastClash then s.record
      else s.record.file s.clock ⟨.numberClash, octet (lineCode l), (precedence class_ rx.sender).zeroExtend 16⟩ }

/-- R25: the entry of the sender after a valid notice with this receive-start instant. -/
def Peer.hear (p : Peer) (l : Line) (start : Time) : Peer :=
  { p with
    heardA := match l with | .a => some (.of start) | .b => p.heardA
    heardB := match l with | .a => p.heardB | .b => some (.of start)
    presence := .present
    since := if p.presence = .present then p.since else some (.of start)
    rejoins := if p.presence = .lost then bump8 p.rejoins else p.rejoins
    single := if p.single = some l then none else p.single }

/-- R25: the PEER_PRESENT record, with the rejoin count. -/
def peerPresentFilings (k : Station) (p : Peer) : List Filing :=
  match p.presence with
  | .absent => [⟨.peerPresent, stationOctet k, 0⟩]
  | .lost => [⟨.peerPresent, stationOctet k, (bump8 p.rejoins).zeroExtend 16⟩]
  | .present => []

/-- R25: a valid notice from k is taken by k's entry. -/
def State.hearPeer (s : State) (l : Line) (k : Station) (start : Time) : State :=
  { s with
    peers := change s.peers k fun p => p.hear l start
    record := s.record.fileAll s.clock (peerPresentFilings k s.peers[k]) }

/-- R18 to R21: a complete notice on a line. A notice that fails a test is counted; a valid one is counted, and from
the start of LISTEN it is a clash when it carries the station's own number, and otherwise it is taken by the sender's
entry and handed on to deliver with the sender, the receive-start instant and the content. -/
def State.receive {α : Type} (s : State) (l : Line) (class_ : BitVec 3) (read : List Byte → Option α) (rx : Received)
    (deliver : State → Station → Time → α → State) : State :=
  let x := s.line l
  if !x.receiving then s
  else match verdict class_ read rx with
    | .checkError => s.withLine l x.discardCheck
    | .contentError => s.withLine l x.discardContent
    | .valid content =>
      if !s.started then s.withLine l x.countValid
      else if stationOf rx = s.setup.number then s.clash l class_ rx
      else
        let start := x.receiveStart rx.start
        deliver (((s.withLine l (x.takeValid s.clock)).hearPeer l (stationOf rx) start)) (stationOf rx) start content

end Sys2Proof.Machine
end

