-- ==== Sys2Proof/Machine/ReleaseOps.lean ====
section
/-! DEFINITION. The release timing unit (R69 to R81): from a spark report to one outcome for a valve output. Nothing
here depends on the release schedules; handing a window on is the valve controller's (ValveOps). -/

namespace Sys2Proof.Machine

/-- R69: a report; t0 is the origin instant of R70. -/
structure Report where
  source : Source
  station : Station
  branch : Branch
  position : Nat
  t0 : Time
  span : Nat
  untimed : Bool
  deriving DecidableEq, Repr

/-- R70: the report of a received SPARK notice. -/
def receivedReport (l : Line) (k : Station) (start : Time) (p : SparkPayload) : Report where
  source := match l with
    | .a => .lineA
    | .b => .lineB
  station := k
  branch := p.branch
  position := p.position
  t0 := start - BitVec.ofNat 32 p.age
  span := p.span
  untimed := p.age == Config.ageLimit || p.stale

/-- R63, R69: the local report of a spark on a channel. -/
def State.localReport (s : State) (c : Channel) (pulse : Time) : Report where
  source := .own
  station := s.setup.number
  branch := s.setup.channels[c].branch
  position := s.setup.channels[c].position
  t0 := pulse
  span := 0
  untimed := false

/-! ## Path (R71, R72) -/

/-- R71: a segment of a path: the branch it lies on and its length. -/
structure Segment where
  branch : Branch
  length : Nat
  deriving DecidableEq, Repr

/-- R71, step 2: the report's position clamped to the length of its branch, when the branch is in use. -/
def Setup.clampedPosition (u : Setup) (b : Branch) (p : Nat) : Nat :=
  if u.branches[b].length = 0 then p else min p u.branches[b].length

/-- R71: the path from a position on branch b to a valve on branch e; none when the valve is not downstream. -/
def Setup.path (u : Setup) (b : Branch) (p : Nat) (e : Branch) (pe : Nat) : Option (List Segment) :=
  let entry := u.branches[b]
  let pd := u.clampedPosition b p
  if entry.length = 0 then none
  else if entry.system ≠ u.branches[e].system then none
  else if b = e then
    if pd < pe then some [⟨b, pe - pd⟩] else none
  else if entry.parent = some e then
    if entry.join < pe then some [⟨b, entry.length - pd⟩, ⟨e, pe - entry.join⟩] else none
  else none

/-- R72: D1 + D2. -/
def pathLength (path : List Segment) : Nat := (path.map Segment.length).sum

/-! ## Velocity (R73, R74) -/

/-- R74: a segment with its three velocities; v is the velocity on the branch. -/
structure Velocities where
  length : Nat
  v : Nat
  high : Nat
  low : Nat
  deriving DecidableEq, Repr

/-- R74: each rounded down; a branch velocity above 1000 is clamped to 1000. -/
def Setup.velocities (u : Setup) (fan : Nat) (g : Segment) : Velocities :=
  let v := min Config.velocityLimit (fan * u.branches[g.branch].factor / 64)
  ⟨g.length, v, v * (100 + u.timing.spread) / 100, v * (100 - u.timing.spread) / 100⟩

/-- R74: segments of length 0 get no velocities. -/
def Setup.timedSegments (u : Setup) (fan : Nat) (path : List Segment) : List Velocities :=
  (path.filter fun g => 0 < g.length).map (u.velocities fan)

/-- R73, R74: the first test that fails sends the report to flood; otherwise the segments with their velocities. -/
def Setup.timing? (u : Setup) (view : Option ViewData) (path : List Segment) : Except FloodReason (List Velocities) :=
  match view with
  | none => .error .viewNotFresh
  | some v =>
    if !v.phase.steady then .error .fanPhase
    else if v.lowFlow then .error .lowFlow
    else if Config.sampleLimit < v.age then .error .sampleOld
    else if v.velocity = 0 then .error .noVelocity
    else
      let segments := u.timedSegments (min Config.velocityLimit v.velocity) path
      if segments.any fun g => g.low < u.timing.floor then .error .belowFloor else .ok segments

/-! ## Window (R75, R76) -/

/-- R75: the early transit time of a segment, rounded down. -/
def Velocities.early (g : Velocities) : Nat := g.length * 1000 / g.high

/-- R75: the late transit time of a segment, rounded up. -/
def Velocities.late (g : Velocities) : Nat := (g.length * 1000 + (g.low - 1)) / g.low

def earlySum (gs : List Velocities) : Nat := (gs.map Velocities.early).sum
def lateSum (gs : List Velocities) : Nat := (gs.map Velocities.late).sum

/-- What the computation answers for one valve output. -/
inductive Computed where
  | notDownstream
  | beyondReach
  | missed (late : Nat)
  | timed (opens closes : Time) (late clipped : Bool)
  | flood (opens closes : Time) (reason : FloodReason)
  deriving DecidableEq, Repr

/-- R76: MISSED, LATE, CLIPPED and the empty guard, in this order. -/
def timedWindow (now opens closes : Time) : Computed :=
  if !later closes now then .missed (now - closes).toNat
  else
    let late := later now opens
    let opens := if late then now else opens
    let clipped := Config.windowLimit < (closes - opens).toNat
    let closes := if clipped then after opens Config.windowLimit else closes
    let closes := if closes = opens then after opens 1 else closes
    .timed opens closes late clipped

/-- R76: the two instants of the window. -/
def Setup.windowFor (u : Setup) (now : Time) (r : Report) (gs : List Velocities) : Computed :=
  timedWindow now
    (after r.t0 (earlySum gs) - BitVec.ofNat 32 u.timing.lead)
    (after r.t0 (r.span + lateSum gs + u.timing.hold))

/-- R77: a flood window. -/
def Setup.floodWindow (u : Setup) (now : Time) (reason : FloodReason) : Computed :=
  .flood now (after now u.timing.floodHold) reason

/-- R69 to R77: the outcome of a report for the valve at position pe of branch e, with this reach. -/
def Setup.compute (u : Setup) (now : Time) (view : Option ViewData) (r : Report) (e : Branch) (pe reach : Nat) :
    Computed :=
  match u.path r.branch r.position e pe with
  | none => .notDownstream
  | some path =>
    if reach < pathLength path then .beyondReach
    else if r.untimed then u.floodWindow now .untimed
    else match u.timing? view path with
      | .error reason => u.floodWindow now reason
      | .ok segments => u.windowFor now r segments

/-! ## What the unit keeps (R79, R80) -/

/-- R79. -/
def OutcomeCounters.count (k : OutcomeCounters) : Computed → OutcomeCounters
  | .notDownstream => { k with notDownstream := bump k.notDownstream }
  | .beyondReach => { k with beyondReach := bump k.beyondReach }
  | .missed _ => { k with missed := bump k.missed }
  | .timed _ _ late clipped =>
    { k with
      timed := bump k.timed
      late := if late then bump k.late else k.late
      clipped := if clipped then bump k.clipped else k.clipped }
  | .flood .. => { k with flood := bump k.flood }

/-- R80. -/
def Computed.lastReport (x : Computed) (now : Time) (r : Report) (position : Nat) : LastReport :=
  match x with
  | .notDownstream => ⟨r.source, r.station, r.branch, position, .notDownstream, now, false, false, none, none⟩
  | .beyondReach => ⟨r.source, r.station, r.branch, position, .beyondReach, now, false, false, none, none⟩
  | .missed _ => ⟨r.source, r.station, r.branch, position, .missed, now, false, false, none, none⟩
  | .timed o c late clipped =>
    ⟨r.source, r.station, r.branch, position, .timed, now, late, clipped, some (o, c), none⟩
  | .flood o c reason => ⟨r.source, r.station, r.branch, position, .flood, now, false, false, some (o, c), some reason⟩

/-- R78: the window handed on to the release schedule, with its origin mark. -/
def Computed.window : Computed → Option Window
  | .timed o c late clipped => some ⟨.of o, .of c, ⟨late, clipped, false⟩⟩
  | .flood o c _ => some ⟨.of o, .of c, ⟨false, false, true⟩⟩
  | .notDownstream | .beyondReach | .missed _ => none

/-- R76: the record of a MISSED outcome. -/
def Computed.filings (o : Output) : Computed → List Filing
  | .missed late => [⟨.windowMissed, octet o.val, sat16 late⟩]
  | .notDownstream | .beyondReach | .timed .. | .flood .. => []

end Sys2Proof.Machine
end

