-- ==== Sys2Proof/Machine/ValveOps.lean ====
section
/-! DEFINITION. The valve controller: release schedules and insertion (R83 to R88), valve states (R89 to R93), the
cut-off (R94), the stuck flow switch (R96), and the handing on of release windows (R78). -/

namespace Sys2Proof.Machine

/-! ## Merging windows (R84, R85) -/

def Marks.union (x y : Marks) : Marks := ⟨x.late || y.late, x.clipped || y.clipped, x.flood || y.flood⟩

/-- R85, step 1: w lies within g of W. -/
def Window.within (g : Nat) (W w : Window) : Bool :=
  !W.opens.later (w.closes.after g) && !w.opens.later (W.closes.after g)

/-- R85, step 2: the merged window. -/
def Window.merge (W w : Window) : Window :=
  ⟨W.opens.earliest w.opens, W.closes.latest w.closes, W.marks.union w.marks⟩

/-- R85: merging until no window of the list lies within g, with at most as many merges as fuel; the final window, the
rest of the list, and whether a merge took place. -/
def mergeAll (g : Nat) : Nat → Window → List Window → Window × List Window × Bool
  | 0, W, ws => (W, ws, false)
  | fuel + 1, W, ws =>
    match ws.find? (W.within g) with
    | none => (W, ws, false)
    | some w =>
      let r := mergeAll g fuel (W.merge w) (ws.eraseP (W.within g))
      (r.1, r.2.1, true)

/-- R83: a window at its place in open order. -/
def place (W : Window) : List Window → List Window
  | [] => [W]
  | w :: ws => if w.opens.later W.opens then W :: w :: ws else w :: place W ws

/-- R86: the distance between two opens, by their readings, for an aged open too. DESIGN CHOICE (assumption 35). -/
def openDistance (W w : Window) : Nat := (W.opens.reading - w.opens.reading).toInt.natAbs

/-- R86: the window of the list whose open is nearest, the earlier of two equally near. -/
def nearest (W : Window) (ws : List Window) : Option Window :=
  ws.foldl (fun best w => match best with
    | none => some w
    | some b => if openDistance W w < openDistance W b then some w else some b) none

/-- An insertion: the schedule after it, and the length of the final window when the schedule was saturated. -/
structure Inserted where
  schedule : List Window
  saturated : Option Nat
  deriving DecidableEq, Repr

/-- R86: the length of a window in ms, by its readings, for an aged open too. DESIGN CHOICE (assumption 35). -/
def Window.length (W : Window) : Nat := (W.closes.reading - W.opens.reading).toNat

/-- R85, R86: a window inserted into a schedule with merge gap g. -/
def insertWindow (g : Nat) (W : Window) (ws : List Window) : Inserted :=
  let m := mergeAll g ws.length W ws
  if m.2.2 then ⟨place m.1 m.2.1, none⟩
  else if ws.length < Config.windows then ⟨place W ws, none⟩
  else match nearest W ws with
    | none => ⟨place W ws, none⟩
    | some w =>
      let n := mergeAll g ws.length (W.merge w) (ws.erase w)
      ⟨place n.1 n.2.1, some n.1.length⟩

/-! ## Valve states -/

/-- R82: the output is on in OPENING, FLOWING and FLOWING_UNCONFIRMED. -/
def ValveState.on : ValveState → Bool
  | .opening | .flowing | .flowingUnconfirmed => true
  | .idle | .cut => false

/-- R90, R92: water is confirmed. -/
def Valve.confirmWater (v : Valve) : Valve :=
  { v with
    state := .flowing
    confirmTimer := none
    counters := { v.counters with confirmed := bump v.counters.confirmed } }

/-- R89: entering OPENING, and passing to FLOWING at once when the feedback is already active. -/
def Valve.enterOpening (now : Time) (confirm : Nat) (feedback : Bool) (v : Valve) : Valve :=
  let v' : Valve :=
    { v with
      state := .opening
      confirmTimer := some (after now confirm)
      openSince := some (.of now)
      stuckTimer := none
      counters :=
        { v.counters with
          openings := bump v.counters.openings
          underTrouble := if v.trouble then bump v.counters.underTrouble else v.counters.underTrouble } }
  if feedback then v'.confirmWater else v'

/-- R83: the open instant of the first window has been reached. -/
def Valve.firstOpen (now : Time) (v : Valve) : Bool :=
  match v.schedule with
  | [] => false
  | w :: _ => !w.opens.later (.of now)

/-- R88: the close instant of the first window has been reached. -/
def Valve.firstClosed (now : Time) (v : Valve) : Bool :=
  match v.schedule with
  | [] => false
  | w :: _ => !w.closes.later (.of now)

/-- R87, R89, R99: an IDLE valve whose first window is open enters OPENING. -/
def Valve.openIfDue (now : Time) (confirm : Nat) (feedback : Bool) (v : Valve) : Valve :=
  if v.state = .idle ∧ v.firstOpen now then v.enterOpening now confirm feedback else v

/-- R96: the stuck timer when the output has just turned off. -/
def Valve.stuckStart (now : Time) (confirm : Nat) (feedback : Bool) (v : Valve) : Option Time :=
  if feedback && !v.stuck then some (after now confirm) else none

/-- R90 to R92: the output turns off at the end of the current window. -/
def Valve.turnOff (now : Time) (confirm : Nat) (feedback : Bool) (v : Valve) : Valve :=
  { v with
    state := .idle
    confirmTimer := none
    openSince := none
    stuckTimer := v.stuckStart now confirm feedback
    counters := { v.counters with
      short := if v.state = .opening then bump v.counters.short else v.counters.short } }

/-- R88, R90 to R93: the end of the current window. -/
def Valve.endWindow (now : Time) (confirm : Nat) (feedback : Bool) (v : Valve) : Valve :=
  match v.state with
  | .idle => v
  | .cut => { v with state := .idle }
  | .opening | .flowing | .flowingUnconfirmed => v.turnOff now confirm feedback

/-- R94: the output is forced off and the valve enters CUT. -/
def Valve.forceOff (now : Time) (confirm : Nat) (feedback : Bool) (v : Valve) : Valve :=
  { v with
    state := .cut
    confirmTimer := none
    openSince := none
    stuckTimer := v.stuckStart now confirm feedback
    cutOff := true
    counters := { v.counters with cutOff := bump v.counters.cutOff } }

/-- R90, R91: the confirm timer expires in OPENING or FLOWING. -/
def Valve.failWater (v : Valve) : Valve :=
  { v with
    state := .flowingUnconfirmed
    confirmTimer := none
    waterFail := true
    counters := { v.counters with unconfirmed := bump v.counters.unconfirmed } }

/-- R96: STUCK is set; the timer then stops. -/
def Valve.setStuck (v : Valve) : Valve :=
  { v with
    stuck := true
    stuckTimer := none
    counters := { v.counters with stuck := bump v.counters.stuck } }

/-- R90 to R92, R96: the debounced flow switch takes a new state while the station is OPERATING. -/
def Valve.takeFlow (now : Time) (confirm : Nat) (active : Bool) (v : Valve) : Valve :=
  match v.state with
  | .opening => if active then v.confirmWater else v
  | .flowing => { v with confirmTimer := if active then none else some (after now confirm) }
  | .flowingUnconfirmed => if active then v.confirmWater else v
  | .idle | .cut => { v with stuckTimer := v.stuckStart now confirm active }

/-- R98: RESET at a valve output. -/
def Valve.takeReset (feedback : Bool) (v : Valve) : Valve :=
  { v with
    waterFail := false
    cutOff := false
    stuck := v.stuck && feedback && !v.state.on }

/-- R96: at the entry to OPERATING the feedback's active time counts from when it became active, at the earliest from
the entry to SETTLE; a switch already active for the confirm time sets STUCK at once. -/
def Valve.beginStuck (now : Time) (confirm : Nat) (activeSince : Option Instant) (v : Valve) : Valve :=
  match activeSince with
  | none => v
  | some i =>
    if confirm ≤ i.elapsed now then v.setStuck else { v with stuckTimer := some (after i.reading confirm) }

/-! ## The cut-off (R94) -/

/-- R94: the applicable cut-off in s. -/
def Setup.cutOffSeconds (u : Setup) (flood : Bool) : Nat := if flood then u.valves.floodCutOff else u.valves.cutOff

/-- R94: the open-time watch in ms, 0 when stopped. -/
def Valve.openTime (now : Time) (v : Valve) : Nat :=
  match v.openSince with
  | some i => i.elapsed now
  | none => 0

/-- R94: the watch runs and has reached the cut-off. -/
def Valve.overtime (now : Time) (seconds : Nat) (v : Valve) : Bool :=
  v.state.on && v.openSince.isSome && seconds * 1000 ≤ v.openTime now

/-- R94: the CUT_OFF record. -/
def cutOffFiling (now : Time) (o : Output) (v : Valve) : Filing :=
  ⟨.cutOff, octet o.val, sat16 (v.openTime now / 1000)⟩

/-! ## Over the station -/

def State.confirmMs (s : State) : Nat := s.setup.valves.confirm

def State.withValve (s : State) (o : Output) (v : Valve) : State := { s with valves := put s.valves o v }

/-- R94, R95: valves that the new flood state of their system cuts at once. -/
def State.cutByFlood (s : State) (flood : Vector Bool 4) (o : Output) : Bool :=
  (s.role o).isValve && flood[s.valveSystem o] != s.flood[s.valveSystem o] &&
    s.valves[o].overtime s.clock (s.setup.cutOffSeconds flood[s.valveSystem o])

/-- R95: the flood states are judged again, and the valves of a system whose state changes choose their cut-off. -/
def State.judgeFlood (s : State) : State :=
  let flood := tabulate s.inFlood
  { s with
    flood := flood
    valves := tabulate fun o =>
      if s.cutByFlood flood o then s.valves[o].forceOff s.clock s.confirmMs (s.feedback o) else s.valves[o]
    record := s.record.fileAll s.clock
      (((indexes 4).filter (s.cutByFlood flood)).map fun o => cutOffFiling s.clock o s.valves[o])
    flags := if (indexes 4).any (s.cutByFlood flood) then s.flags ||| Attention.valveTrouble.mask else s.flags }

/-- R86: the record of a saturation. -/
def saturationFilings (o : Output) : Option Nat → List Filing
  | some length => [⟨.scheduleSaturated, octet o.val, sat16 length⟩]
  | none => []

/-- R78, R85 to R87: what a valve output becomes with the result of a computation: its counters and last report, its
schedule, and, while the station is OPERATING, its state. -/
def State.valveAfter (s : State) (o : Output) (r : Report) (x : Computed) : Valve × Option Nat :=
  let v := s.valves[o]
  let v := { v with
    outcomes := v.outcomes.count x
    last := some (x.lastReport s.clock r (s.setup.clampedPosition r.branch r.position)) }
  match x.window with
  | none => (v, none)
  | some w =>
    let i := insertWindow s.setup.valves.gap w v.schedule
    let v := { v with
      schedule := i.schedule
      saturations := if i.saturated.isSome then bump v.saturations else v.saturations }
    (if s.operating then v.openIfDue s.clock s.confirmMs (s.feedback o) else v, i.saturated)

/-- R73: the fan view that release timing reads: at a fan station that of its own duct system is its own controller's state,
and every other one is the view as R36 and R37 give it. -/
def State.timingView (s : State) (system : System) : Option ViewData :=
  if s.hasFan && s.setup.system == system then some s.ownViewData else s.viewData system

/-- R69, R73: the outcome of a report for one output. -/
def State.computedFor (s : State) (r : Report) (e : Branch) (pe reach : Nat) : Computed :=
  s.setup.compute s.clock (s.timingView (s.branchSystem e)) r e pe reach

/-- R69, R78 to R81: a report computed for one output; an output that is no valve is left alone. -/
def State.releaseFor (s : State) (r : Report) (o : Output) : State :=
  match s.role o with
  | .valve e pe reach =>
    let x := s.computedFor r e pe reach
    let a := s.valveAfter o r x
    { s with
      valves := put s.valves o a.1
      record := s.record.fileAll s.clock (x.filings o ++ saturationFilings o a.2)
      flags := if a.2.isSome then s.flags ||| Attention.scheduleSaturated.mask else s.flags }
  | _ => s

/-- R69: from the end of LISTEN a report is computed once for each VALVE output, in output order. -/
def State.release (s : State) (r : Report) : State :=
  if s.permitted then (indexes 4).foldl (fun s o => s.releaseFor r o) s else s

end Sys2Proof.Machine
end

