-- ==== Sys2Proof/Machine/ExtractionOps.lean ====
section
/-! DEFINITION. The extraction controller: outputs and mismatches (R101, R102), the flow sampler (R103, R104), LOW_FLOW
(R106), the changes of phase (R107 to R112) and the causes (R113 to R115). -/

namespace Sys2Proof.Machine

/-- R101, Table 6.2: the contactor output by the phase. -/
def FanPhase.contactorOn : FanPhase → Bool
  | .starting | .running | .diverting => true
  | .standby | .rundown | .stopped => false

/-- Table 6.2: the gate output by the phase. -/
def FanPhase.gateOn : FanPhase → Bool
  | .diverting | .rundown | .stopped => true
  | .standby | .starting | .running => false

/-! ## Causes as a set -/

def Cause.mask (c : Cause) : BitVec 7 := 1#7 <<< c.bit

def hasCause (set : BitVec 7) (c : Cause) : Bool := set.getLsbD c.bit

def addCauses (set : BitVec 7) (cs : List Cause) : BitVec 7 := cs.foldl (fun m c => m ||| c.mask) set

/-! ## Sampler (R104) -/

/-- R104: the mode that holds. -/
def State.samplerMode (s : State) : SamplerMode :=
  if !s.hasFan then .off
  else match s.start.phase with
    | .load | .listen | .configFault => .off
    | .settle => .continuous
    | .operating => match s.extraction.phase with
      | .standby | .stopped => .off
      | .running => if s.anyZone s.setup.extraction.zones .watch then .continuous else .periodic
      | .starting | .diverting | .rundown => .continuous

/-- R103: a sample window starts. -/
def Extraction.startWindow (now : Time) (e : Extraction) : Extraction :=
  { e with window := some ⟨now, 0⟩, lastStart := some (.of now), nextStart := none }

/-- R104: the next PERIODIC window starts 2000 ms after the start of the most recent one, at once if that has passed. -/
def Extraction.planPeriodic (now : Time) (e : Extraction) : Extraction :=
  match e.lastStart with
  | none => e.startWindow now
  | some i =>
    if Config.samplePeriod ≤ i.elapsed now then e.startWindow now
    else { e with nextStart := some (after i.reading Config.samplePeriod) }

/-- R104: the mode governs the next window; a window in progress runs to its completion. -/
def Extraction.nextWindow (now : Time) (e : Extraction) : Extraction :=
  match e.window with
  | some _ => { e with nextStart := none }
  | none => match e.mode with
    | .off => { e with nextStart := none }
    | .continuous => e.startWindow now
    | .periodic => e.planPeriodic now

/-- R104: the mode is judged again, and when it has changed it governs the next window. -/
def Extraction.judgeMode (now : Time) (m : SamplerMode) (e : Extraction) : Extraction :=
  if m = e.mode then e else { e with mode := m }.nextWindow now

def State.judgeSampler (s : State) : State :=
  { s with extraction := s.extraction.judgeMode s.clock s.samplerMode }

/-! ## Mismatches (R102) -/

/-- R102: the timer runs while output and feedback disagree, until the mismatch stands. -/
def Mismatch.judge (now : Time) (time : Nat) (output feedback : Bool) (m : Mismatch) : Mismatch :=
  if output = feedback then ⟨none, false⟩
  else if m.stands || m.timer.isSome then m
  else ⟨some (after now time), false⟩

/-- R102: both mismatch timers, judged from the entry to OPERATING at a station with the FAN role. -/
def State.judgeMismatches (s : State) : State :=
  let e := s.extraction
  { s with extraction :=
      if s.operating && s.hasFan then
        { e with
          contactor := e.contactor.judge s.clock Config.contactorMismatch e.phase.contactorOn
            (s.feedbackOf s.contactorOutput)
          gate := e.gate.judge s.clock s.setup.extraction.gateTime e.phase.gateOn (s.feedbackOf s.gateOutput) }
      else e }

/-- R102: at the entry to OPERATING an active feedback with its output off has disagreed since it became active. -/
def Mismatch.begin_ (now : Time) (time : Nat) (activeSince : Option Instant) : Mismatch :=
  match activeSince with
  | none => ⟨none, false⟩
  | some i => if time ≤ i.elapsed now then ⟨none, true⟩ else ⟨some (after i.reading time), false⟩

/-! ## Phases (R107 to R112) -/

/-- R166: the packed value of a FAN_PHASE record. -/
def Extraction.phaseValue (e : Extraction) : Count :=
  BitVec.ofNat 16 (firstCauseCode e.first * 4096 + bitAt e.gateFail 9 + bitAt e.rundownSlow 8 + e.causes.toNat)

/-- R107: what every change of phase brings once the new phase's own state is set: the record, the outputs' mismatch
judgement, the sampler's mode and the flood state. -/
def State.phaseChanged (s : State) : State :=
  (((s.file .fanPhase (octet s.extraction.phase.code) s.extraction.phaseValue).judgeMismatches).judgeSampler).judgeFlood

/-- R112: STOPPED is entered. -/
def State.enterStopped (s : State) : State :=
  { s with extraction := { s.extraction with phase := .stopped, timer := none } }.phaseChanged

/-- R111: RUNDOWN is entered. -/
def State.enterRundown (s : State) : State :=
  { s with extraction :=
      { s.extraction with
        phase := .rundown
        timer := some (after s.clock (s.setup.extraction.rundownLimit * 1000))
        stopCount := 0 } }.phaseChanged

/-- R110: DIVERTING is entered; with the gate feedback active on entry the phase becomes RUNDOWN. -/
def State.enterDiverting (s : State) : State :=
  let s' :=
    { s with extraction :=
        { s.extraction with
          phase := .diverting
          timer := some (after s.clock s.setup.extraction.gateTime) } }.phaseChanged
  if s'.feedbackOf s'.gateOutput then s'.enterRundown else s'

/-- R109: RUNNING is entered. -/
def State.enterRunning (s : State) : State :=
  { s with extraction := { s.extraction with phase := .running, timer := none } }.phaseChanged

/-- R108, R116: STARTING is entered by a START accepted. -/
def State.enterStarting (s : State) : State :=
  { s with extraction :=
      { s.extraction with
        phase := .starting
        causes := 0
        first := none
        lowFlow := false
        lowCount := 0
        goodCount := 0
        timer := some (after s.clock (s.setup.extraction.startGrace * 1000))
        starts := bump s.extraction.starts } }.phaseChanged

/-! ## Causes (R113 to R115) -/

/-- R115: causes that one event brings, in the order of Table 6.3. -/
def State.raiseCauses (s : State) (cs : List Cause) : State :=
  match cs with
  | [] => s
  | c :: _ =>
    match s.extraction.phase with
    | .standby => s
    | .starting | .running =>
      { s with extraction :=
          { s.extraction with causes := addCauses s.extraction.causes cs, first := some c } }.enterDiverting
    | .diverting | .rundown | .stopped =>
      { s with extraction := { s.extraction with causes := addCauses s.extraction.causes cs } }

/-- R113: a VALVE peer of the station's duct system that reports valve trouble. -/
def State.peerTrouble (s : State) : Bool :=
  s.peers.toList.any fun p => p.reporting && (match p.content with
    | some c => c.roles.valve && c.system == s.setup.system && c.valveTrouble
    | none => false)

/-- R113: which of the three conditions stand, at a station with the FAN role. -/
def State.conditionsNow (s : State) : Conditions :=
  if s.started && s.hasFan then
    { fire := s.anyZone s.setup.extraction.zones .fire
      storm := s.anyZone s.setup.extraction.zones .storm
      valveTrouble := (s.hasValve && s.valveTrouble) || s.peerTrouble }
  else ⟨false, false, false⟩

/-- R113: the conditions that pass from not standing to standing. -/
def Conditions.arisen (old new : Conditions) : List Cause :=
  (if new.fire && !old.fire then [Cause.fire] else []) ++
  (if new.storm && !old.storm then [Cause.storm] else []) ++
  (if new.valveTrouble && !old.valveTrouble then [Cause.valveTrouble] else [])

/-- R113, R115: the conditions are judged again, and those that arise are causes at this instant, together with the
event causes that the same event brings, which Table 6.3 lists after them. -/
def State.judgeCauses (s : State) (event : List Cause) : State :=
  { s with extraction := { s.extraction with conditions := s.conditionsNow } }.raiseCauses
    (s.extraction.conditions.arisen s.conditionsNow ++ event)

/-- R114: a branch counts when this station's table uses it and puts it in the station's duct system. -/
def State.branchServed (s : State) (b : Branch) : Bool :=
  s.setup.branches[b].length ≠ 0 && s.setup.branches[b].system == s.setup.system

/-- R114: the cause that an unserved spark on a branch brings at a fan station. -/
def State.unservedCause (s : State) (b : Branch) : List Cause :=
  if s.hasFan && s.branchServed b then [.unserved] else []

/-- R116, R166: the conditions standing, in their cause-set bits. -/
def Conditions.bits (c : Conditions) : Count :=
  BitVec.ofNat 16 (bitAt c.fire 0 + bitAt c.storm 1 + bitAt c.valveTrouble 2)

/-- R116: a condition that refuses START stands. -/
def Conditions.any (c : Conditions) : Bool := c.fire || c.storm || c.valveTrouble

/-! ## Samples (R103, R106, R108, R111) -/

/-- R103: the velocity that a count of pulses gives. -/
def Setup.sampleVelocity (u : Setup) (pulses : Nat) : Nat :=
  min Config.velocityLimit (pulses * 4 * u.extraction.scale / 16)

/-- R103: the sample of the window in progress becomes the velocity. -/
def State.takeSample (s : State) (w : SampleWindow) : State :=
  { s with extraction :=
      { s.extraction with
        velocity := s.setup.sampleVelocity w.pulses
        lastSample := some (.of s.clock)
        window := none } }

/-- R106: the low count and LOW_FLOW after a sample that is judged. -/
def Extraction.judgeLowFlow (u : ExtractionParameters) (e : Extraction) : Extraction :=
  if e.lowFlow then
    if u.floor + u.hysteresis ≤ e.velocity then { e with lowFlow := false } else e
  else if e.velocity < u.floor then
    if Config.successive ≤ e.lowCount + 1 then { e with lowFlow := true, lowCount := 0 }
    else { e with lowCount := e.lowCount + 1 }
  else { e with lowCount := 0 }

/-- R106: the sample is judged for LOW_FLOW. -/
def State.judgeFlow (s : State) : State :=
  { s with extraction := s.extraction.judgeLowFlow s.setup.extraction }

/-- R106, R114: LOW_FLOW becoming set while RUNNING is the cause FLOW_LOST. -/
def State.sampleCauses (s : State) : List Cause :=
  if s.extraction.phase == .running && !s.extraction.lowFlow && s.judgeFlow.extraction.lowFlow then [.flowLost] else []

/-- R108: the fourth successive good sample ends STARTING. -/
def State.judgeGood (s : State) : State :=
  let good := if s.setup.extraction.floor ≤ s.extraction.velocity then s.extraction.goodCount + 1 else 0
  let s' := { s with extraction := { s.extraction with goodCount := good } }
  if Config.successive ≤ good then s'.enterRunning else s'

/-- R111: the fourth successive slow sample ends RUNDOWN. -/
def State.judgeStop (s : State) : State :=
  let slow := if s.extraction.velocity < s.setup.extraction.stop then s.extraction.stopCount + 1 else 0
  let s' := { s with extraction := { s.extraction with stopCount := slow } }
  if Config.successive ≤ slow then s'.enterStopped else s'

/-- R103: the sample is judged for LOW_FLOW and by the phase in which it completes. -/
def State.judgeSample (s : State) : State :=
  match s.extraction.phase with
  | .starting => s.judgeGood
  | .rundown => s.judgeFlow.judgeStop
  | .standby | .running | .diverting | .stopped => s.judgeFlow

/-- R104: after a completed sample the mode governs the next window. -/
def State.planWindow (s : State) : State :=
  { s with extraction := s.extraction.nextWindow s.clock }

/-- R118: RESET at the extraction controller. -/
def State.resetMarks (s : State) : State :=
  { s with extraction :=
      { s.extraction with
        startFail := false
        rundownSlow := false
        gateFail := s.extraction.gateFail &&
          (s.extraction.phase.gateOn != s.feedbackOf s.gateOutput) } }

end Sys2Proof.Machine
end

