-- ==== Sys2Proof/Machine/BarrierOps.lean ====
section
/-! DEFINITION. The barrier controller: release (R122, R124, R125, R127), the closing queue (R128, R129), damper
permission and waits (R130, R131), runs and their ends (R132, R133), and RESET (R135). -/

namespace Sys2Proof.Machine

def State.barrier (s : State) (o : Output) : Barrier := s.barriers.units[o]

def State.withBarrier (s : State) (o : Output) (b : Barrier) : State :=
  { s with barriers := { s.barriers with units := put s.barriers.units o b } }

/-- R122: the release condition of a barrier holds. -/
def State.releaseHolds (s : State) (o : Output) : Bool := s.anyZone (s.role o).trigger .fire

/-- R120: what a barrier output drives. -/
def State.barrierOn (s : State) (o : Output) : Bool :=
  match (s.barrier o).state with
  | .held => (s.role o).isMagnet
  | .closing => (s.role o).isMotor
  | .unarmed | .queued | .closed | .jammed | .reopened => false

/-! ## Becoming CLOSED, JAMMED, HELD, REOPENED -/

def Barrier.close (b : Barrier) : Barrier :=
  { b with state := .closed, travelTimer := none, run := none, kept := none, wait := .idle }
def Barrier.jam (b : Barrier) : Barrier :=
  { b with state := .jammed, travelTimer := none, run := none, kept := none, wait := .idle }
/-- R124, R126, R134, R135: the attempt count returns to 0. -/
def Barrier.hold (b : Barrier) : Barrier :=
  { b with state := .held, travelTimer := none, run := none, kept := none, attempts := 0, wait := .idle }
def Barrier.reopen (b : Barrier) : Barrier := { b with state := .reopened }

/-- R127, R134: a motor barrier becomes QUEUED; a new closing process begins. -/
def Barrier.enqueue (b : Barrier) : Barrier :=
  { b with state := .queued, run := none, kept := none, ran := 0, wait := .idle }

/-- A record of a barrier output. -/
def barrierFiling (k : RecordKind) (o : Output) (n : Nat) : Filing := ⟨k, octet o.val, sat16 n⟩

/-! ## The closing queue (R128) -/

/-- R128: an entry without kept travel takes its place by rank, after the entries that hold kept travel. -/
def State.enterQueue (s : State) (o : Output) (q : List Output) : List Output :=
  match q with
  | [] => [o]
  | e :: es =>
    if (s.barrier e).kept.isSome || (s.role e).rank ≤ (s.role o).rank then e :: s.enterQueue o es else o :: e :: es

/-- R127: a QUEUED barrier leaves the queue. -/
def leaveQueue (o : Output) (q : List Output) : List Output := q.filter fun e => e ≠ o

/-! ## Release (R124, R125, R127) -/

/-- R125, R127: a HELD barrier is released. -/
def State.releaseBarrier (s : State) (o : Output) : State :=
  let b := { s.barrier o with released := some (.of s.clock) }
  if s.feedback o then
    (s.withBarrier o b.close).fileAll [barrierFiling .barrierClosed o 0]
  else if (s.role o).isMotor then
    { s with barriers :=
        { s.barriers with
          units := put s.barriers.units o b.enqueue
          queue := s.enterQueue o s.barriers.queue } }
  else
    s.withBarrier o { b with state := .closing, travelTimer := some (after s.clock (s.role o).travelMs) }

/-- R124: while the station is OPERATING, a HELD barrier whose release condition holds is released. -/
def State.releaseIfDue (s : State) (o : Output) : State :=
  if s.operating && (s.role o).isBarrier && (s.barrier o).state == .held && s.releaseHolds o then s.releaseBarrier o
  else s

/-- R129: all barriers that one instant releases join the queue before a run is considered. -/
def State.releaseBarriers (s : State) : State := (indexes 4).foldl (fun s o => s.releaseIfDue o) s

/-! ## Permission and waits (R130, R131) -/

/-- R130: a phase that holds dampers back. -/
def FanPhase.holdsDampers : FanPhase → Bool
  | .starting | .running | .diverting => true
  | .standby | .rundown | .stopped => false

/-- R130: the fan view of a duct system does not hold its dampers back. -/
def State.viewPermits (s : State) (system : System) : Bool :=
  match s.viewData system with
  | none => true
  | some v => !v.phase.holdsDampers

/-- R129, R130: an entry that may run: a SHUTTER always, a DAMPER while it is permitted. -/
def State.mayRun (s : State) (o : Output) : Bool :=
  match s.role o with
  | .damper _ _ _ system =>
    s.viewPermits system || (s.zoneLevel s.setup.zone).atLeast .fire || (s.barrier o).wait == .expired
  | _ => true

/-- R131: a damper wait starts; a wait of 0 starts and expires at the same instant. -/
def State.startWait (s : State) (o : Output) : State :=
  s.withBarrier o { s.barrier o with
    wait := if s.setup.damperWait = 0 then .expired else .running (after s.clock (s.setup.damperWait * 1000)) }

/-- R131: the earliest entry of the queue that is not permitted starts its wait if it is idle; as a wait of 0 permits
its damper at once, the judgement is made again as often as there are entries. -/
def State.judgeWaits (s : State) : Nat → State
  | 0 => s
  | n + 1 =>
    match s.barriers.queue.find? fun o => !s.mayRun o with
    | none => s
    | some o => if (s.barrier o).wait = .idle then (s.startWait o).judgeWaits n else s

/-! ## Runs (R129, R132, R133) -/

/-- R129: a run starts for an entry of the queue. -/
def State.startRun (s : State) (o : Output) : State :=
  let b := s.barrier o
  let travel := match b.kept with
    | some t => t
    | none => (s.role o).travelMs
  { s with barriers :=
      { units := put s.barriers.units o
          { b with
            state := .closing
            run := some (s.clock, after s.clock travel)
            kept := none
            attempts := if b.kept.isSome then b.attempts else b.attempts + 1 }
        queue := leaveQueue o s.barriers.queue
        running := some o } }

/-- R129: a run is considered: no motor runs, LOW is clear, and the first entry that may run is started. -/
def State.considerRun (s : State) : State :=
  if s.operating && s.barriers.running.isNone && !s.supply.low then
    match s.barriers.queue.find? s.mayRun with
    | some o => s.startRun o
    | none => s
  else s

/-- R129, R131: the queue after a change to it or to permission: waits are judged, then a run is considered.
DEDUCED (assumption 17). -/
def State.considerQueue (s : State) : State := (s.judgeWaits 4).considerRun

/-- R132: the travel actually run in this closing process, in ms. -/
def Barrier.travelled (now : Time) (b : Barrier) : Nat :=
  match b.run with
  | some (start, _) => b.ran + (now - start).toNat
  | none => b.ran

/-- R132: the run of a motor barrier ends. -/
def State.endRun (s : State) (o : Output) (f : Barrier → Barrier) : State :=
  let b := s.barrier o
  { s with barriers :=
      { s.barriers with
        units := put s.barriers.units o (f { b with ran := b.travelled s.clock })
        running := none } }

/-- R133: LOW becomes set while a motor runs: its remaining travel is kept and it returns to the head of the queue. -/
def State.pauseRun (s : State) : State :=
  match s.barriers.running with
  | none => s
  | some o =>
    let b := s.barrier o
    { s with barriers :=
        { units := put s.barriers.units o
            { b with
              state := .queued
              ran := b.travelled s.clock
              kept := b.run.map fun r => remaining s.clock r.2
              run := none }
          queue := o :: s.barriers.queue
          running := none } }

/-! ## Feedback (R125 to R127, R132, R134) -/

/-- R125, R126: the time from release to now, in units of 100 ms. -/
def Barrier.sinceRelease (now : Time) (b : Barrier) : Nat := (elapsedFrom now b.released).getD 0 / 100

/-- R125, R126: a MAGNET acts on its feedback. -/
def State.magnetFeedback (s : State) (o : Output) (active : Bool) : State :=
  let b := s.barrier o
  match b.state, active with
  | .closing, true =>
    (s.withBarrier o b.close).fileAll [barrierFiling .barrierClosed o (b.sinceRelease s.clock)]
  | .jammed, true =>
    (s.withBarrier o b.close).fileAll [barrierFiling .barrierClosed o (b.sinceRelease s.clock)]
  | .reopened, true => (s.withBarrier o b.close).fileAll [barrierFiling .barrierClosed o 0]
  | .closed, false =>
    if s.releaseHolds o then
      ((s.withBarrier o b.reopen).fileAll [barrierFiling .barrierReopened o 0]).raise .barrierFault
    else s.withBarrier o b.hold
  | _, _ => s

/-- R134: a CLOSED motor barrier loses its feedback with its release condition holding. -/
def State.reopenMotor (s : State) (o : Output) : State :=
  let b := s.barrier o
  if b.attempts < Config.closeRuns then
    ({ s with barriers :=
        { s.barriers with
          units := put s.barriers.units o b.enqueue
          queue := s.enterQueue o s.barriers.queue } }.fileAll
      [barrierFiling .barrierReopened o b.attempts]).raise .barrierFault
  else
    ((s.withBarrier o b.jam).fileAll
      [barrierFiling .barrierReopened o b.attempts, barrierFiling .barrierJammed o b.attempts]).raise .barrierFault

/-- R127, R132, R134: a motor barrier acts on its feedback. -/
def State.motorFeedback (s : State) (o : Output) (active : Bool) : State :=
  let b := s.barrier o
  match b.state, active with
  | .queued, true =>
    { s with barriers :=
        { s.barriers with
          units := put s.barriers.units o b.close
          queue := leaveQueue o s.barriers.queue } }.fileAll [barrierFiling .barrierClosed o 0]
  | .closing, true =>
    (s.endRun o Barrier.close).fileAll [barrierFiling .barrierClosed o (b.travelled s.clock / 100)]
  | .jammed, true => (s.withBarrier o b.close).fileAll [barrierFiling .barrierClosed o (b.ran / 100)]
  | .closed, false => if s.releaseHolds o then s.reopenMotor o else s.withBarrier o b.hold
  | _, _ => s

/-- R125 to R134: a barrier acts on the change of its feedback. -/
def State.barrierFeedback (s : State) (o : Output) (active : Bool) : State :=
  if (s.role o).isMotor then s.motorFeedback o active
  else if (s.role o).isMagnet then s.magnetFeedback o active
  else s

/-! ## Arming and RESET (R124, R135) -/

/-- R124: at the entry to OPERATING every barrier output becomes HELD, and those whose condition holds are then
released as if they had been HELD. -/
def State.armBarriers (s : State) : State :=
  { s with barriers :=
      { s.barriers with units := tabulate fun o =>
          if (s.role o).isBarrier then (s.barrier o).hold else s.barrier o } }

/-- R135: a barrier that RESET re-arms. -/
def BarrierState.rearmed : BarrierState → Bool
  | .closed | .jammed | .reopened => true
  | .unarmed | .held | .queued | .closing => false

/-- R135: RESET at the barriers, on the release conditions as they stand. -/
def State.rearmBarriers (s : State) : State :=
  { s with barriers :=
      { s.barriers with units := tabulate fun o =>
          if (s.role o).isBarrier && (s.barrier o).state.rearmed && !s.releaseHolds o then (s.barrier o).hold
          else s.barrier o } }

end Sys2Proof.Machine
end

