-- ==== Sys2Proof/Machine/SirenOps.lean ====
section
/-! DEFINITION. The siren controller: claims lists (R140, R141), the choice of pattern (R142), silencing and resound
(R143, R144), the all-clear (R145), cadence phases and their leaders (R139, R146 to R148), and the absence count
(R138). -/

namespace Sys2Proof.Machine

/-! ## Claims (R140, R141) -/

/-- R140: a claim comes before another: higher level, then earlier since-instant, then lower zone number. -/
def Claim.before (x y : Claim) : Bool :=
  if x.level.code ≠ y.level.code then y.level.code < x.level.code
  else if y.since.later x.since then true
  else if x.since.later y.since then false
  else x.zone < y.zone

/-- R140: a claim at its place in the order. -/
def insertClaim (c : Claim) : List Claim → List Claim
  | [] => [c]
  | d :: ds => if d.before c then d :: insertClaim c ds else c :: d :: ds

/-- R140: the list in order. -/
def orderClaims (cs : List Claim) : List Claim := cs.foldl (fun acc c => insertClaim c acc) []

/-- R141: what the claim of a zone becomes at a zone level. -/
def claimAt (now : Time) (z : Zone) (level : Level) (c : Option Claim) : Option Claim :=
  if !level.atLeast .storm then none
  else match c with
    | none => some ⟨z, level, .of now, false⟩
    | some c =>
      if c.level.code < level.code then some { c with level := level, since := .of now, silenced := false }
      else some { c with level := level }

/-- R141: the claims list of an output, by the zone levels of the zones it covers. -/
def State.claimsFor (s : State) (o : Output) : List Claim :=
  orderClaims ((indexes 16).filterMap fun z =>
    if hasZone (s.role o).covered z then
      claimAt s.clock z (s.zoneLevel z) (s.sirens.units[o].claims.find? fun c => c.zone = z)
    else none)

/-- R141, R145: the claims follow the zone levels; an ALL_CLEAR claim goes when a zone claim comes. -/
def State.followZones (s : State) : State :=
  { s with sirens :=
      { s.sirens with units := tabulate fun o =>
          let u := s.sirens.units[o]
          if s.operating && (s.role o).isSiren then
            { u with
              claims := s.claimsFor o
              allClear := if (s.claimsFor o).isEmpty then u.allClear else none }
          else u } }

/-! ## Patterns (R139, R142) -/

/-- R142: the pattern of a zone claim. -/
def Level.pattern : Level → Pattern
  | .storm => .slow
  | .fire => .fast
  | .evacuate => .steady
  | .quiet | .watch => .none

/-- R142: the first unsilenced zone claim decides; otherwise ALL_CLEAR if its claim is present. -/
def Siren.chosen (u : Siren) : Pattern :=
  match u.claims.find? fun c => !c.silenced with
  | some c => c.level.pattern
  | none => if u.allClear.isSome then .allClear else .none

/-- R139: on at this phase. -/
def slowOn (phase : Nat) : Bool := phase < 1000
def fastOn (phase : Nat) : Bool := phase < 250
/-- R139: ALL_CLEAR is on in the first 2000 ms of each 3000 ms of its 9000 ms. -/
def allClearOn (elapsed : Nat) : Bool := elapsed < Config.allClear && elapsed % 3000 < 2000

/-- R139: the level that a pattern gives an output at now. -/
def Sirens.levelOf (now : Time) (slow fast : Option Cadence) (u : Siren) (p : Pattern) : Bool :=
  match p with
  | .none => false
  | .steady => true
  | .slow => match slow with
    | some c => slowOn (c.at_ Config.slowCycle now)
    | none => false
  | .fast => match fast with
    | some c => fastOn (c.at_ Config.fastCycle now)
    | none => false
  | .allClear => match u.allClear with
    | some i => allClearOn (i.elapsed now)
    | none => false

/-! ## Absence count (R138) -/

/-- R138: the absence count at now, which stops growing at its limit. -/
def Siren.absenceAt (now : Time) (u : Siren) : Nat :=
  match u.absenceFrom with
  | some t => min Config.absenceLimit (u.absence + (now - t).toNat)
  | none => u.absence

/-- R138: an output takes a pattern and a level: the count returns to 0 with no pattern or an active feedback, grows
while the output is on without current until its limit has been taken, and otherwise holds. -/
def Siren.drive (now : Time) (pattern : Pattern) (level feedback : Bool) (u : Siren) : Siren :=
  let cleared := pattern == .none || feedback
  let count := if cleared then 0 else u.absenceAt now
  let taken := u.absenceTaken && !cleared
  { u with
    pattern := pattern
    driven := level
    absence := count
    absenceTaken := taken
    absenceFrom := if level && !cleared && !taken then some now else none }

/-! ## Leaders (R146) -/

/-- R146: the candidates for the leader of a pattern, in station order. -/
def State.leads (s : State) (p : Pattern) (k : Station) : Bool :=
  if k = s.setup.number then s.reportedPattern == p
  else (s.peers[k]).reporting && (match (s.peers[k]).content with
    | some c => c.pattern == p
    | none => false)

/-- R146: the leader of a pulse pattern, the lowest-numbered candidate, from the start of LISTEN on.
DESIGN CHOICE (assumption 36). -/
def State.chosenLeader (s : State) (p : Pattern) : Option Station :=
  if s.started then (indexes 32).find? fun k => k ≠ 0 && s.leads p k else none

/-- R146: both leaders are chosen again. -/
def State.chooseLeaders (s : State) : State :=
  { s with sirens :=
      { s.sirens with slowLeader := s.chosenLeader .slow, fastLeader := s.chosenLeader .fast } }

/-! ## Cadence phases (R147, R148) -/

/-- R147: a peer's phase projected to now. -/
def Peer.projected (now : Time) (cycle : Nat) (p : Peer) : Nat :=
  match p.content, p.received with
  | some c, some i => (c.cadence + i.elapsed now) % cycle
  | _, _ => 0

/-- R147: the phase at which a pattern starts: the leader's projected phase, or 0. -/
def State.startPhase (s : State) (leader : Option Station) (cycle : Nat) : Nat :=
  match leader with
  | some k => if k = s.setup.number then 0 else (s.peers[k]).projected s.clock cycle
  | none => 0

/-- R139, R147: the phase of a pattern with at least one output sounding it, or with none. -/
def State.cadenceWith (s : State) (sounding : Bool) (c : Option Cadence) (leader : Option Station) (cycle : Nat) :
    Option Cadence :=
  if !sounding then none
  else match c with
    | some c => some c
    | none => some ⟨s.startPhase leader cycle, s.clock⟩

/-- R142: the patterns of the siren outputs as chosen from their claims. -/
def State.chosenPattern (s : State) (o : Output) : Pattern :=
  if s.operating && (s.role o).isSiren then s.sirens.units[o].chosen else .none

/-- R139, R142, R146, R147: the pattern of each output is chosen, phases start or become idle, levels follow, and the
leaders are chosen again after the phases have started. DEDUCED (assumption 16). -/
def State.choosePatterns (s : State) : State :=
  let slow := s.cadenceWith ((indexes 4).any fun o => s.chosenPattern o == .slow) s.sirens.slow s.sirens.slowLeader
    Config.slowCycle
  let fast := s.cadenceWith ((indexes 4).any fun o => s.chosenPattern o == .fast) s.sirens.fast s.sirens.fastLeader
    Config.fastCycle
  { s with sirens :=
      { s.sirens with
        slow := slow
        fast := fast
        units := tabulate fun o =>
          let u := s.sirens.units[o]
          if s.operating && (s.role o).isSiren then
            u.drive s.clock (s.chosenPattern o) (Sirens.levelOf s.clock slow fast u (s.chosenPattern o)) (s.feedback o)
          else u } }.chooseLeaders

/-- R139: a running phase with its anchor moved to now. -/
def Cadence.moveTo (cycle : Nat) (now : Time) (c : Cadence) : Cadence := ⟨c.at_ cycle now, now⟩

/-- R139: the outputs take the levels that the phases give at now. -/
def State.followCadence (s : State) : State :=
  { s with sirens :=
      { s.sirens with
        slow := s.sirens.slow.map (Cadence.moveTo Config.slowCycle s.clock)
        fast := s.sirens.fast.map (Cadence.moveTo Config.fastCycle s.clock)
        units := tabulate fun o =>
          let u := s.sirens.units[o]
          if s.operating && (s.role o).isSiren then
            u.drive s.clock u.pattern (Sirens.levelOf s.clock s.sirens.slow s.sirens.fast u u.pattern) (s.feedback o)
          else u } }

/-- R148: the difference d brought into the range greater than −cycle/2 and at most cycle/2. -/
def cadenceDifference (cycle projected own : Nat) : Int :=
  let d : Int := projected - own
  if d ≤ -((cycle / 2 : Nat) : Int) then d + cycle
  else if ((cycle / 2 : Nat) : Int) < d then d - cycle
  else d

/-- R148: the phase after a bounded correction. -/
def correctedPhase (cycle projected own : Nat) : Nat :=
  let d := max (-(Config.cadenceStep : Int)) (min (Config.cadenceStep : Int) (cadenceDifference cycle projected own))
  ((own + d) % cycle).toNat

/-- R148: a STATE from the leader of a running pattern that still reports it corrects the phase.
DEDUCED (assumption 16). -/
def State.correctedCadence (s : State) (k : Station) (p : Pattern) (leader : Option Station) (cycle : Nat)
    (c : Option Cadence) : Option Cadence :=
  match c with
  | none => none
  | some c =>
    if leader = some k ∧ k ≠ s.setup.number ∧ (s.peers[k]).content.map StateContent.pattern = some p then
      some ⟨correctedPhase cycle ((s.peers[k]).projected s.clock cycle) (c.at_ cycle s.clock), s.clock⟩
    else some c

/-- R146, R148: a STATE from k has been taken: the phases that it corrects, the levels they give, and the leaders. A phase
that begins at the same instant begins from the leader chosen here. DESIGN CHOICE (assumption 38). -/
def State.cadenceFromState (s : State) (k : Station) : State :=
  { s with sirens :=
      { s.sirens with
        slow := s.correctedCadence k .slow s.sirens.slowLeader Config.slowCycle s.sirens.slow
        fast := s.correctedCadence k .fast s.sirens.fastLeader Config.fastCycle s.sirens.fast } }.followCadence.chooseLeaders

/-! ## SILENCE, resound, RESET (R143 to R145) -/

/-- R143: a zone claim at STORM or FIRE is silenced. -/
def Claim.silence (c : Claim) : Claim := { c with silenced := c.silenced || c.level != .evacuate }

def Siren.silence (u : Siren) : Siren := { u with claims := u.claims.map Claim.silence }
def Siren.unsilence (u : Siren) : Siren := { u with claims := u.claims.map fun c => { c with silenced := false } }

/-- The units of the siren outputs changed by a function. -/
def State.mapSirens (s : State) (f : Output → Siren → Siren) : Vector Siren 4 :=
  tabulate fun o => if (s.role o).isSiren then f o s.sirens.units[o] else s.sirens.units[o]

def State.hasSiren (s : State) : Bool := s.setup.roles.siren

/-- R143: a SILENCE taken while OPERATING, at a station with siren outputs; a resound time of 0 stops the timer. -/
def State.silence (s : State) : State :=
  if s.operating && s.hasSiren then
    { s with sirens :=
        { s.sirens with
          units := s.mapSirens fun _ u => u.silence
          resound := if s.setup.resound = 0 then none else some (after s.clock (s.setup.resound * 1000)) } }.choosePatterns
  else s

/-- R145, step 3: every covered zone is QUIET. -/
def State.coveredQuiet (s : State) (o : Output) : Bool := !s.anyZone (s.role o).covered .watch

/-- R145, step 3: this output gets an ALL_CLEAR claim. -/
def State.earnsAllClear (s : State) (o : Output) : Bool :=
  (s.role o).isSiren && s.coveredQuiet o && s.sirens.units[o].fireSeen

/-- R145: RESET at the sirens, after the claims have followed the recompute. -/
def State.resetSirens (s : State) : State :=
  if s.operating then
    { s with
      record := s.record.fileAll s.clock
        (((indexes 4).filter s.earnsAllClear).map fun (o : Output) => ⟨.allClear, octet o.val, 0⟩)
      sirens :=
        { s.sirens with
          resound := none
          units := s.mapSirens fun o u =>
            if s.earnsAllClear o then { u.unsilence with allClear := some (.of s.clock), fireSeen := false }
            else u.unsilence } }.choosePatterns
  else s

/-- R140: at the entry to OPERATING fire-seen is set by the latched levels that stand. -/
def State.formFireSeen (s : State) : State :=
  { s with sirens :=
      { s.sirens with units := s.mapSirens fun o u =>
          { u with fireSeen := u.fireSeen ||
              (indexes 16).any fun z => hasZone (s.role o).covered z && s.zones.latched[z].atLeast .fire } } }

end Sys2Proof.Machine
end

