-- ==== Sys2Proof/Machine/Consequences.lean ====
section
/-! DEFINITION. What follows an event at its own instant, through the paths that join the blocks (Introduction 0.3.1):
the own level, the zone picture, the fan views, and each of their consumers, judged in one fixed order. Every step is
written so that it acts only on a change, so a judgement made without one leaves its block as it stands. -/

namespace Sys2Proof.Machine

/-- The extraction controller and the flood states: a change of a view may cut a valve, a cut valve may be a cause, and
a cause may change the own view; causes that such a cut brings are taken by the second judgement. event holds the
event causes that the event in hand brings (R115). DEDUCED (assumption 20). -/
def State.judgeExtraction (s : State) (event : List Cause) : State :=
  ((s.judgeFlood.judgeCauses event).judgeCauses []).judgeSampler

/-- R122 to R131: releases, then the closing queue. -/
def State.judgeBarriers (s : State) : State := s.releaseBarriers.considerQueue

/-- R141, R142: claims, then patterns. -/
def State.judgeSirens (s : State) : State := s.followZones.choosePatterns

/-- Everything that reads the zone picture and the fan views, and the STATE fill that a changed field brings.
DESIGN CHOICE (assumption 7). -/
def State.judgeConsumers (s : State) (event : List Cause) : State :=
  (s.judgeExtraction event).judgeBarriers.judgeSirens.fillOnChange

/-- R30, R32, R36 and their consumers, after an event that may have changed a level, an entry, a phase or a fault. -/
def State.settleWith (s : State) (event : List Cause) : State :=
  s.recomposeOwn.recomputeZones.chooseViews.judgeConsumers event

/-- The same after an event that brings no event cause. -/
def State.settle (s : State) : State := s.settleWith []

/-! ## Keys taken locally or from a notice (R43, R44) -/

/-- R54, R43: the escalation latch is cleared, and the escalation timer starts again if a channel is in storm.
DEDUCED (assumption 15). -/
def State.resetEscalation (s : State) : State :=
  { s with
    own := { s.own with escalation := false }
    sensing := { s.sensing with
      escalation :=
        if s.anyStorm && s.setup.sensing.escalation != 0 then some (after s.clock (s.setup.sensing.escalation * 1000))
        else s.sensing.escalation } }

/-- R98: RESET at every VALVE output. -/
def State.resetValves (s : State) : State :=
  { s with valves := tabulate fun o =>
      if (s.role o).isValve then s.valves[o].takeReset (s.feedback o) else s.valves[o] }

/-- R43: a RESET taken: the escalation latch and the own level; the zone picture; then the other owners on the
recomputed zone picture; then the attention flags. The siren patterns are chosen once, after the claims have followed the
recompute and steps 1 to 3 of R145 are done. DESIGN CHOICE (assumption 37). -/
def State.takeReset (s : State) : State :=
  (((s.resetEscalation.recomposeOwn.resetZones.resetValves.resetMarks.chooseViews.judgeExtraction []).judgeBarriers
    |>.rearmBarriers).followZones.resetSirens.fillOnChange).judgeFlags

/-- R44, R143: a SILENCE taken. -/
def State.takeSilence (s : State) : State := s.silence.fillOnChange

/-- R42, R43, R44: the effect of a key, taken locally or from a notice. -/
def State.takeKey (s : State) (k : KeyKind) : State :=
  match k with
  | .silence => s.takeSilence
  | .reset => s.takeReset

end Sys2Proof.Machine
end

