-- ==== Sys2Proof/Machine/LineCommands.lean ====
section
/-! DEFINITION. The commands of the line interface (R2, R5 to R22) and of notices received (R19 to R21, R25, R26, R34,
R42, R69). -/

namespace Sys2Proof.Machine

/-! ## Transmission -/

/-- R5: an attempt may begin on a line: the station is permitted to transmit, the line is idle, and the
in-transmission place is empty. -/
def State.mayBegin (s : State) (l : Line) : Bool :=
  s.permitted && (s.line l).stage == .idle && (s.line l).place.isNone

/-- R5, R12: an attempt begins with what is due, if anything is. -/
def State.startAttempt (s : State) (l : Line) : State :=
  match (s.line l).dueSlot with
  | some slot => s.withLine l (s.beginAttempt (s.line l) slot)
  | none => s

/-- ATTEMPT_START (R5, R12, R15, R16). -/
def execAttemptStart (now : Time) (l : Line) (s : State) : Host.Outcome State Fault Refusal :=
  let s := s.takeAt now
  answer (if s.mayBegin l then s.startAttempt l else s)

/-- CONTENTION_LOST (R6, R8). -/
def execContentionLost (now : Time) (l : Line) (s : State) : Host.Outcome State Fault Refusal :=
  let s := s.takeAt now
  answer
    (match (s.line l).place with
    | some a => s.withLine l ((s.line l).loseContention a)
    | none => s)

/-- R7, R9: the end of an attempt by a TX error; the sixteenth in a row files a record and sets the flag. -/
def State.txErrorOn (s : State) (l : Line) (bit : Nat) (a : Attempt) : State :=
  let x := s.line l
  { s.withLine l (x.txErrorAt s.clock bit a) with
    record :=
      if x.fails then s.record.file s.clock ⟨.lineTxFailed, octet (lineCode l), bump x.counters.tx⟩ else s.record
    flags := if x.fails then s.flags ||| Attention.lineTxFailed.mask else s.flags }

/-- TX_ERROR (R7, R8, R9, R10, R18). -/
def execTxError (now : Time) (place : LineBit) (s : State) : Host.Outcome State Fault Refusal :=
  let s := s.takeAt now
  answer
    (match (s.line place.line).place with
    | some a => s.txErrorOn place.line place.bit a
    | none => s)

/-- R7, R10, R13: the end of an attempt by success; a successful probe files a LINE_TX_OK record. -/
def State.succeedOn (s : State) (l : Line) (a : Attempt) : State :=
  { s.withLine l ((s.line l).succeed a) with
    record := if a.probe then s.record.file s.clock ⟨.lineTxOk, octet (lineCode l), 0⟩ else s.record }

/-- ATTEMPT_SUCCESS (R7, R10, R13). -/
def execAttemptSuccess (now : Time) (l : Line) (s : State) : Host.Outcome State Fault Refusal :=
  let s := s.takeAt now
  answer
    (match (s.line l).place with
    | some a => s.succeedOn l a
    | none => s)

/-- R10: the probe timer of a FAILED line expires. -/
def State.makeProbeDue (s : State) (l : Line) : State :=
  (s.withLine l { s.line l with probeTimer := none, probeDue := true }).fillLine l

/-- PROBE_TIMER_EXPIRY (R10, R17). -/
def execProbeTimerExpiry (now : Time) (l : Line) (s : State) : Host.Outcome State Fault Refusal :=
  let s := s.takeAt now
  answer
    (if (s.line l).txState == .failed && due now (s.line l).probeTimer then s.makeProbeDue l else s)

/-- STATE_ROUND_HOLD_CLEAR (R13): the line has been recessive for 40 bit times, whatever else falls at their end: an attempt
that begins there, or whose first start bit, read back recessive, is the fortieth. -/
def execStateRoundHoldClear (now : Time) (l : Line) (s : State) : Host.Outcome State Fault Refusal :=
  let s := s.takeAt now
  answer (s.withLine l { s.line l with roundHold := false })

/-- STATE_INTERVAL_EXPIRY (R17). -/
def execStateIntervalExpiry (now : Time) (s : State) : Host.Outcome State Fault Refusal :=
  let s := s.takeAt now
  answer (if due now s.assembler.interval then s.fill else s)

/-- LINE_IDLE (R2): a line that is not carrying a notice and has been recessive for 12 bit times. -/
def execLineIdle (now : Time) (l : Line) (s : State) : Host.Outcome State Fault Refusal :=
  let s := s.takeAt now
  answer (if (s.line l).stage == .busy then s.withLine l { s.line l with stage := .idle } else s)

/-! ## Reception -/

/-- RECEIVE_FRAMING_ERROR (R18): also while the station's own attempt stands, since the bit that breaks the framing may be
the one that ends the attempt, and either may be taken first. -/
def execReceiveFramingError (now : Time) (l : Line) (s : State) : Host.Outcome State Fault Refusal :=
  let s := s.takeAt now
  answer (if (s.line l).stage != .busy then s.withLine l (s.line l).discardFraming else s)

/-- NOTICE_LENGTH_ERROR (R18): a length octet above 24. -/
def execNoticeLengthError (now : Time) (l : Line) (length : Byte) (s : State) : Host.Outcome State Fault Refusal :=
  let s := s.takeAt now
  answer (if (s.line l).receiving && 24 < length.toNat then s.withLine l (s.line l).discardContent else s)

/-- CHECK_ERROR (R19): a complete notice that fails its check, or passes it with an unassigned class. -/
def execCheckError (now : Time) (l : Line) (class_ : BitVec 3) (rx : Received) (s : State) :
    Host.Outcome State Fault Refusal :=
  let s := s.takeAt now
  answer
    (if !(s.line l).receiving then s
    else if crc (covered class_ rx.sender rx.payload) ≠ rx.check then s.withLine l (s.line l).discardCheck
    else if (payloadLength class_).isNone then s.withLine l (s.line l).discardContent
    else s)

/-- R22, R62: what a notice from a peer may change beside its own content: the quiet tests of both lines and the
unserved field. -/
def State.afterHearing (s : State) : State := ((s.judgeQuiet .a).judgeQuiet .b).judgeServed

/-- R34: the sender's call override, and the CALL record unless it held an override for that zone. -/
def State.deliverCall (s : State) (k : Station) (_start : Time) (z : Zone) : State :=
  { s with
    peers := change s.peers k fun p => { p with override := some z }
    record := if (s.peers[k]).override = some z then s.record
      else s.record.file s.clock ⟨.call, stationOctet k, BitVec.ofNat 16 z.val⟩ }

/-- CALL_NOTICE (R19 to R21, R25, R34). -/
def execCallNotice (now : Time) (l : Line) (rx : Received) (s : State) : Host.Outcome State Fault Refusal :=
  answer ((s.takeAt now).receive l classCall readCall? rx fun s k start z =>
    (s.deliverCall k start z).afterHearing.settle)

/-- R69: a SPARK notice goes to release timing, and its outcomes follow. R114: at a fan station an UNSERVED one goes to
the extraction controller. Both from the end of LISTEN (R21). -/
def State.sparkCauses (s : State) (p : SparkPayload) : List Cause :=
  if s.permitted && p.unserved then s.unservedCause p.branch else []

/-- SPARK_NOTICE (R19 to R21, R25, R69 to R81, R114): release timing reads the fan view before the notice changes the own
fan phase. DESIGN CHOICE (assumption 32). -/
def execSparkNotice (now : Time) (l : Line) (rx : Received) (s : State) : Host.Outcome State Fault Refusal :=
  answer ((s.takeAt now).receive l classSpark SparkPayload.read? rx fun s k start p =>
    (s.afterHearing.release (receivedReport l k start p)).settleWith (s.sparkCauses p))

def Peer.pressCount (p : Peer) : KeyKind → Option Byte
  | .silence => p.silence
  | .reset => p.reset

def Peer.storePress (p : Peer) (key : KeyKind) (count : Byte) : Peer :=
  match key with
  | .silence => { p with silence := some count }
  | .reset => { p with reset := some count }

def KeyKind.record : KeyKind → RecordKind
  | .silence => .keySilence
  | .reset => .keyReset

/-- R42: a KEY notice with an equal stored count is a duplicate; otherwise its count is stored, the record is filed and
the key's effect is applied. -/
def State.deliverKey (s : State) (k : Station) (_start : Time) (n : KeyKind × Byte) : State :=
  if (s.peers[k]).pressCount n.1 = some n.2 then s
  else
    ({ s with
      peers := change s.peers k fun p => p.storePress n.1 n.2
      record := s.record.file s.clock ⟨n.1.record, stationOctet k, n.2.zeroExtend 16⟩ }).takeKey n.1

/-- KEY_NOTICE (R19 to R21, R25, R42). -/
def execKeyNotice (now : Time) (l : Line) (rx : Received) (s : State) : Host.Outcome State Fault Refusal :=
  answer ((s.takeAt now).receive l classKey readKey? rx fun s k start n =>
    (s.afterHearing.deliverKey k start n).fillOnChange)

/-- R26: the sender's stored content is replaced. -/
def Peer.takeState (start : Time) (c : StateContent) (p : Peer) : Peer :=
  { p with content := some c, received := some (.of start), known := true, override := none }

def State.deliverState (s : State) (k : Station) (start : Time) (c : StateContent) : State :=
  { s with peers := change s.peers k (Peer.takeState start c) }

/-- STATE_NOTICE (R19 to R21, R25, R26, R146, R148). -/
def execStateNotice (now : Time) (l : Line) (rx : Received) (s : State) : Host.Outcome State Fault Refusal :=
  answer ((s.takeAt now).receive l classState StateContent.read? rx fun s k start c =>
    ((s.deliverState k start c).afterHearing.cadenceFromState k).settle)

/-- LINE_QUIET (R22). -/
def execLineQuiet (now : Time) (l : Line) (s : State) : Host.Outcome State Fault Refusal :=
  answer ((s.takeAt now).judgeQuiet l)

/-! ## Peer timers (R27, R28) -/

/-- R27: the freshness limit of a PRESENT entry has been reached. -/
def Peer.outOfDate (now : Time) (p : Peer) : Bool :=
  p.presence == .present && (match elapsedFrom now (latestOf p.heardA p.heardB) with
    | some t => Config.freshness ≤ t
    | none => false)

/-- R27: the entry becomes LOST. -/
def Peer.lose (p : Peer) : Peer :=
  { p with presence := .lost, known := false, override := none, silence := none, reset := none, single := none }

/-- R27: the value of the PEER_LOST record. -/
def Peer.lostValue (now : Time) (p : Peer) : Count :=
  match elapsedFrom now p.received with
  | some t => sat16 t
  | none => 0xFFFF#16

/-- R27, R146: the entry becomes LOST, and the leaders are chosen; a phase that begins at the same instant begins from the
leader chosen here. DESIGN CHOICE (assumption 38). -/
def State.losePeer (s : State) (k : Station) : State :=
  ({ s with
    peers := change s.peers k Peer.lose
    record := s.record.file s.clock ⟨.peerLost, stationOctet k, (s.peers[k]).lostValue s.clock⟩
    flags := s.flags ||| Attention.peerLost.mask }).afterHearing.chooseLeaders.settle

/-- PEER_LOST (R27). -/
def execPeerLost (now : Time) (k : Station) (s : State) : Host.Outcome State Fault Refusal :=
  let s := s.takeAt now
  answer (if (s.peers[k]).outOfDate now then s.losePeer k else s)

/-- R28: 1500 ms have passed since the later of the line's last-heard instant and PRESENT-since. -/
def Peer.unheardOn (now : Time) (p : Peer) (l : Line) : Bool :=
  match elapsedFrom now (latestOf p.since (p.heard l)) with
  | some t => Config.freshness ≤ t
  | none => false

/-- R28: the line that meets the test, of a PRESENT entry without SINGLE_LINE. DEDUCED (assumption 29). -/
def Peer.singleTest (now : Time) (p : Peer) : Option Line :=
  if p.presence == .present && p.single.isNone then
    if p.unheardOn now .a then some .a else if p.unheardOn now .b then some .b else none
  else none

/-- SINGLE_LINE (R28). -/
def execSingleLine (now : Time) (k : Station) (s : State) : Host.Outcome State Fault Refusal :=
  let s := s.takeAt now
  answer
    (match (s.peers[k]).singleTest now with
    | some l =>
      { s with
        peers := change s.peers k fun p => { p with single := some l }
        flags := s.flags ||| Attention.singleLine.mask }
    | none => s)

end Sys2Proof.Machine
end

