-- ==== Sys2Proof/Machine/KeyCommands.lean ====
section
/-! DEFINITION. The commands of the key inputs and of the heat input (R29, R39 to R44, R116, R117). A debounced input is
taken from the start of LISTEN on; in LOAD and in CONFIG_FAULT no input is debounced, so these commands have no effect
there. -/

namespace Sys2Proof.Machine

/-! ## CALL and heat -/

/-- R40: the debounced CALL input becomes active. -/
def State.callActive (s : State) : State :=
  { s.fillCall with
    inputs := { s.inputs with call := .settled true }
    record := s.record.file s.clock ⟨.call, stationOctet s.setup.number, BitVec.ofNat 16 s.setup.zone.val⟩ }

/-- CALL_PRESS (R40). -/
def execCallPress (now : Time) (s : State) : Host.Outcome State Fault Refusal :=
  let s := s.takeAt now
  answer (if s.started && !s.inputs.call.state then s.callActive.settle else s)

/-- CALL_RELEASE (R40). -/
def execCallRelease (now : Time) (s : State) : Host.Outcome State Fault Refusal :=
  let s := s.takeAt now
  answer
    (if s.started && s.inputs.call.state then
      { s with inputs := { s.inputs with call := .settled false } }.settle
    else s)

/-- HEAT_INPUT_CHANGE (R29, R39). -/
def execHeatInputChange (now : Time) (active : Bool) (s : State) : Host.Outcome State Fault Refusal :=
  let s := s.takeAt now
  answer
    (if s.started && s.inputs.heat.state != active then
      { s with inputs := { s.inputs with heat := .settled active } }.settle
    else s)

/-! ## SILENCE and RESET -/

/-- R41: the press counts wrap from 255 to 0. -/
def PressCounts.of (p : PressCounts) : KeyKind → Byte
  | .silence => p.silence
  | .reset => p.reset

def PressCounts.press (p : PressCounts) (k : KeyKind) : PressCounts :=
  match k with
  | .silence => { p with silence := p.silence + 1#8 }
  | .reset => { p with reset := p.reset + 1#8 }

/-- R39: the debounced state of a key is active after its press. -/
def Inputs.keyDown (i : Inputs) (k : KeyKind) : Inputs :=
  match k with
  | .silence => { i with silence := .settled true }
  | .reset => { i with reset := .settled true }

/-- R41: the new press count, its record, the key's effect and the KEY slots of both lines. -/
def State.keyPress (s : State) (k : KeyKind) : State :=
  let count := (s.press.press k).of k
  (({ s with
    press := s.press.press k
    inputs := s.inputs.keyDown k
    record := s.record.file s.clock
      ⟨k.record, stationOctet s.setup.number, count.zeroExtend 16⟩ }).takeKey k).fillKey k count

/-- SILENCE_PRESS (R39, R41, R44). DESIGN CHOICE (assumption 31). -/
def execSilencePress (now : Time) (s : State) : Host.Outcome State Fault Refusal :=
  let s := s.takeAt now
  answer (if s.started then s.keyPress .silence else s)

/-- RESET_PRESS (R39, R41, R43). DESIGN CHOICE (assumption 31). -/
def execResetPress (now : Time) (s : State) : Host.Outcome State Fault Refusal :=
  let s := s.takeAt now
  answer (if s.started then s.keyPress .reset else s)

/-! ## START and STOP -/

/-- R44: START and STOP reach the extraction controller of a fan station that is OPERATING. -/
def State.takesFanKeys (s : State) : Bool := s.operating && s.hasFan

/-- R116: the press is refused. -/
def State.refuseStart (s : State) : State :=
  { s with
    record := s.record.file s.clock
      ⟨.startRefused, octet s.extraction.phase.code, s.extraction.conditions.bits⟩
    flags := s.flags ||| Attention.startRefused.mask
    extraction := { s.extraction with refusals := bump s.extraction.refusals } }

/-- R116: a START press in each phase. -/
def State.startFan (s : State) : State :=
  match s.extraction.phase with
  | .standby | .stopped => if s.extraction.conditions.any then s.refuseStart else s.enterStarting
  | .starting | .running | .diverting | .rundown => s

/-- START_PRESS (R39, R44, R116). DESIGN CHOICE (assumption 31). -/
def execStartPress (now : Time) (s : State) : Host.Outcome State Fault Refusal :=
  let s := s.takeAt now
  answer
    (if s.started then
      let s := { s with inputs := { s.inputs with start := .settled true } }
      if s.takesFanKeys then s.startFan.settle else s
    else s)

/-- STOP_PRESS (R39, R44, R117). DESIGN CHOICE (assumption 31). -/
def execStopPress (now : Time) (s : State) : Host.Outcome State Fault Refusal :=
  let s := s.takeAt now
  answer
    (if s.started then
      let s := { s with inputs := { s.inputs with stop := .settled true } }
      if s.takesFanKeys then s.settleWith [.stopKey] else s
    else s)

end Sys2Proof.Machine
end

