-- ==== Sys2Proof/Machine/ChannelCommands.lean ====
section
/-! DEFINITION. The commands of the spark channels (R45 to R65) with the shared escalation and watch hold timers. -/

namespace Sys2Proof.Machine

/-! ## One channel -/

def State.channel (s : State) (c : Channel) : SparkChannel := s.sensing.channels[c]

def State.withChannel (s : State) (c : Channel) (x : SparkChannel) : State :=
  { s with sensing := { s.sensing with channels := put s.sensing.channels c x } }

/-- R58, R166: the standing flags as a value. -/
def SparkChannel.flagBits (x : SparkChannel) : Count :=
  BitVec.ofNat 16 (bitAt x.blinded 0 + bitAt x.silent 1 + bitAt x.noisy 2)

/-- R58: the SENSOR_FLAG record of a channel whose flags have changed. -/
def flagFiling (c : Channel) (x : SparkChannel) : Filing := ⟨.sensorFlag, octet c.val, x.flagBits⟩

/-- R58: a flag of a channel changes: the record, and the attention flag when it has become set. -/
def State.changeFlags (s : State) (c : Channel) (set : Bool) (x : SparkChannel) : State :=
  { s.withChannel c x with
    record := s.record.file s.clock (flagFiling c x)
    flags := if set then s.flags ||| Attention.sensorFault.mask else s.flags }

/-! ## Buckets (R50) -/

/-- R50: the sum of the ten buckets. -/
def windowCount (b : Vector Count 10) : Nat := (b.toList.map BitVec.toNat).sum

/-- R50: the current bucket, the newest, takes a pulse. -/
def addPulse (b : Vector Count 10) : Vector Count 10 := change b 0 bump

/-- R50: the oldest bucket is dropped and a new current bucket begins at 0. -/
def turnBuckets (b : Vector Count 10) : Vector Count 10 :=
  tabulate fun i => if i = 0 then 0 else b[i - 1]

/-! ## Sparks (R49, R52, R55, R59 to R63) -/

/-- R59: the report that a spark fills into an empty slot. -/
def State.newReport (s : State) (c : Channel) (pulse : Time) : SparkReport where
  first := .of pulse
  span := 0
  count := 1
  stale := false
  unserved := !s.served c
  branch := s.setup.channels[c].branch
  position := s.setup.channels[c].position

/-- R60: a spark coalesces into a pending slot. -/
def SparkReport.coalesce (pulse : Time) (unserved : Bool) (r : SparkReport) : SparkReport :=
  let span := min Config.spanLimit (r.first.elapsed pulse)
  { r with
    count := min 255 (r.count + 1)
    span := span
    stale := r.stale || span == Config.spanLimit
    unserved := unserved }

/-- R59, R60: a spark at the SPARK slot of one line. -/
def State.sparkOnSlot (s : State) (c : Channel) (pulse : Time) : Option SparkReport → SparkReport
  | none => s.newReport c pulse
  | some r => r.coalesce pulse (!s.served c)

def State.sparkOnLine (s : State) (c : Channel) (pulse : Time) (x : LineInterface) : LineInterface :=
  { x with slots := { x.slots with spark := change x.slots.spark c fun r => some (s.sparkOnSlot c pulse r) } }

/-- R59, R60: both lines' slots are acted on, each by its own state. -/
def State.sparkSlots (s : State) (c : Channel) (pulse : Time) : State :=
  { s with lineA := s.sparkOnLine c pulse s.lineA, lineB := s.sparkOnLine c pulse s.lineB }

/-- R49, R50: the channel with the spark counted. -/
def SparkChannel.countSpark (x : SparkChannel) : SparkChannel :=
  { x with pulse := none, sparks := bump x.sparks, sparkBuckets := addPulse x.sparkBuckets }

/-- R52: the storm entry test on a channel whose spark has been counted. -/
def SparkChannel.entersStorm (stormOn : Nat) (x : SparkChannel) : Bool :=
  x.storm.isNone && stormOn ≤ windowCount x.sparkBuckets

/-- R54: the escalation timer starts when a channel enters storm while it is stopped, the latch is clear and
escalation is enabled. -/
def State.escalationAtEntry (s : State) : Option Time :=
  if s.sensing.escalation.isNone && !s.own.escalation && s.setup.sensing.escalation != 0 then
    some (after s.clock (s.setup.sensing.escalation * 1000))
  else s.sensing.escalation

/-- R52: a channel enters storm. -/
def State.enterStorm (s : State) (c : Channel) (x : SparkChannel) : State :=
  { s with
    sensing :=
      { s.sensing with
        channels := put s.sensing.channels c { x with storm := some ⟨.of s.clock, 0⟩ }
        escalation := s.escalationAtEntry }
    record := s.record.file s.clock ⟨.stormOn, octet c.val, sat16 (windowCount x.sparkBuckets)⟩ }

/-- R49, R50, R52: the spark at its own channel. -/
def State.sparkAtChannel (s : State) (c : Channel) : State :=
  let x := (s.channel c).countSpark
  if x.entersStorm s.setup.sensing.stormOn then s.enterStorm c x else s.withChannel c x

/-- R55: each spark restarts the watch hold timer. -/
def State.restartWatch (s : State) : State :=
  { s with own := { s.own with watchHold := some (after s.clock Config.watchHold) } }

/-- R63: the hand-off to release timing at a station with a VALVE output. -/
def State.handOff (s : State) (c : Channel) (pulse : Time) : State :=
  if s.hasValve then s.release (s.localReport c pulse) else s

/-- R63, R114: the cause that a spark on an unserved channel brings at a fan station. -/
def State.channelCauses (s : State) (c : Channel) : List Cause :=
  if s.served c then [] else s.unservedCause s.setup.channels[c].branch

/-- R49: a spark on an active channel, taken at its falling edge. Its effects are not ordered among themselves; release
timing reads the fan view before the spark changes the own fan phase. DESIGN CHOICE (assumption 32). -/
def State.spark (s : State) (c : Channel) (pulse : Time) : State :=
  (((s.sparkAtChannel c).restartWatch.sparkSlots c pulse).handOff c pulse).settleWith (s.channelCauses c)

/-! ## Noise and test pulses (R48, R56, R57) -/

/-- R48, R57: the channel with a noise pulse counted. -/
def SparkChannel.countNoise (x : SparkChannel) : SparkChannel :=
  { x with pulse := none, noise := bump x.noise, noiseBuckets := addPulse x.noiseBuckets }

/-- R57: NOISY is set on the noise pulse after which the window count is 10 or more. -/
def SparkChannel.becomesNoisy (x : SparkChannel) : Bool :=
  !x.noisy && Config.noisyFrom ≤ windowCount x.noiseBuckets

def State.noisePulse (s : State) (c : Channel) : State :=
  let x := (s.channel c).countNoise
  (if x.becomesNoisy then s.changeFlags c true { x with noisy := true } else s.withChannel c x).fillOnChange

/-- R48: the channel with a test pulse counted; from OPERATING the test interval timer restarts. -/
def State.countTest (s : State) (x : SparkChannel) : SparkChannel :=
  { x with
    pulse := none
    tests := bump x.tests
    testTimer := if s.operating then some (after s.clock (s.setup.sensing.testInterval * 1000)) else x.testTimer }

/-- R48, R56: a test pulse clears SILENT while the station is OPERATING. -/
def State.testPulse (s : State) (c : Channel) : State :=
  let x := s.countTest (s.channel c)
  (if s.operating && x.silent then s.changeFlags c false { x with silent := false } else s.withChannel c x).fillOnChange

/-! ## Edges (R46, R47) -/

/-- The raw level of a spark input (R46): the pin is the outside's. -/
def State.setSparkPin (s : State) (c : Channel) (level : Bool) : State :=
  { s with inputs := { s.inputs with spark := put s.inputs.spark c level } }

/-- R46, R47: a rising edge begins a pulse, or while BLINDED stops the measurement of the low time. With the input high
already the command is taken as a rising edge all the same, and a pulse in progress begins anew. DESIGN CHOICE
(assumption 42). -/
def State.pulseStart (s : State) (c : Channel) : State :=
  let x := s.channel c
  s.withChannel c
    (if x.blinded then { x with lowSince := none } else { x with pulse := some s.clock })

/-- SENSOR_PULSE_START (R45, R46, R47). -/
def execSensorPulseStart (now : Time) (c : Channel) (s : State) : Host.Outcome State Fault Refusal :=
  let s := (s.takeAt now).setSparkPin c true
  answer (if s.channelActive c then s.pulseStart c else s)

/-- R47: the channel becomes BLINDED: the pulse in progress is abandoned without a class. -/
def State.becomeBlinded (s : State) (c : Channel) : State :=
  (s.changeFlags c true { s.channel c with pulse := none, blinded := true, lowSince := none }).fillOnChange

/-- R47: the input of a BLINDED channel goes low: the measurement of the low time starts from zero. -/
def State.lowBegins (s : State) (c : Channel) : State :=
  s.withChannel c { s.channel c with lowSince := some s.clock }

/-- Table 3.4: the pulse class by its width in steps of 10 µs; a glitch has no effect. A pulse of 250 ms or more has
blinded the channel before its falling edge. DESIGN CHOICE (assumption 10). -/
def State.classify (s : State) (c : Channel) (pulse : Time) (width : Nat) : State :=
  if width < Config.glitchBelow then s.withChannel c { s.channel c with pulse := none }
  else if width < Config.sparkBelow then s.spark c pulse
  else if width < Config.noiseBelow then s.noisePulse c
  else if width < Config.testBelow then s.testPulse c
  else if width < Config.blindedFrom then s.noisePulse c
  else (s.becomeBlinded c).lowBegins c

/-- R46, R47: a falling edge of an active channel. With the input low already the command is taken as a falling edge all the
same: while BLINDED the low time is measured from now, and a pulse in progress ends. DESIGN CHOICE (assumption 42). -/
def State.pulseEnd (s : State) (c : Channel) (width : Nat) : State :=
  if (s.channel c).blinded then s.lowBegins c
  else match (s.channel c).pulse with
    | some pulse => s.classify c pulse width
    | none => s

/-- SENSOR_PULSE_END (R46 to R49). -/
def execSensorPulseEnd (now : Time) (c : Channel) (width : Nat) (s : State) : Host.Outcome State Fault Refusal :=
  let s := (s.takeAt now).setSparkPin c false
  answer (if s.channelActive c then s.pulseEnd c width else s)

/-- R47: a pulse in progress has been high for 250 ms. -/
def SparkChannel.blindDue (now : Time) (x : SparkChannel) : Bool :=
  !x.blinded && due now (x.pulse.map fun t => after t Config.blindedHigh)

/-- BLINDED (R47). -/
def execBlinded (now : Time) (c : Channel) (s : State) : Host.Outcome State Fault Refusal :=
  let s := s.takeAt now
  answer (if s.channelActive c && (s.channel c).blindDue now then s.becomeBlinded c else s)

/-- R47: a BLINDED channel's input has been low for 1000 ms. -/
def SparkChannel.clearDue (now : Time) (x : SparkChannel) : Bool :=
  x.blinded && due now (x.lowSince.map fun t => after t Config.blindedLow)

/-- BLINDED_CLEAR (R47). -/
def execBlindedClear (now : Time) (c : Channel) (s : State) : Host.Outcome State Fault Refusal :=
  let s := s.takeAt now
  answer
    (if s.channelActive c && (s.channel c).clearDue now then
      (s.changeFlags c false { s.channel c with blinded := false, lowSince := none }).fillOnChange
    else s)

/-! ## Boundaries (R50, R53, R57) -/

/-- R50: a channel at a boundary, before its tests. -/
def SparkChannel.turn (x : SparkChannel) : SparkChannel :=
  { x with sparkBuckets := turnBuckets x.sparkBuckets, noiseBuckets := turnBuckets x.noiseBuckets }

/-- R53: the storm state after the exit test; none when the channel leaves storm. -/
def exitTest (stormOff count : Nat) (t : Storm) : Option Storm :=
  if count ≤ stormOff then
    if Config.stormExit ≤ t.exitCount + 1 then none else some { t with exitCount := t.exitCount + 1 }
  else some { t with exitCount := 0 }

/-- R53, R57: what a channel becomes at a boundary. -/
def SparkChannel.boundary (stormOff : Nat) (x : SparkChannel) : SparkChannel :=
  let x := x.turn
  { x with
    storm := x.storm.bind (exitTest stormOff (windowCount x.sparkBuckets))
    noisy := x.noisy && windowCount x.noiseBuckets != 0 }

/-- R53, R57: what a channel files at a boundary: STORM_OFF with the whole seconds since entry, and SENSOR_FLAG when
NOISY clears. -/
def boundaryFilings (now : Time) (c : Channel) (old new : SparkChannel) : List Filing :=
  (match old.storm with
    | some t => if new.storm.isNone then [⟨.stormOff, octet c.val, sat16 (t.entry.elapsed now / 1000)⟩] else []
    | none => []) ++
  (if old.noisy && !new.noisy then [flagFiling c new] else [])

/-- R50: the channels after a boundary. -/
def State.boundaryChannels (s : State) : Vector SparkChannel 4 :=
  tabulate fun c => if s.channelActive c then (s.channel c).boundary s.setup.sensing.stormOff else s.channel c

/-- R54: the escalation timer stops when no channel is in storm. -/
def escalationWith (channels : Vector SparkChannel 4) (timer : Option Time) : Option Time :=
  if (indexes 4).any fun c => channels[c].storm.isSome then timer else none

/-- R50, R53, R54, R57: a bucket boundary. -/
def State.boundary (s : State) : State :=
  ({ s with
    sensing :=
      { s.sensing with
        channels := s.boundaryChannels
        escalation := escalationWith s.boundaryChannels s.sensing.escalation
        lastBoundary := some s.clock }
    record := s.record.fileAll s.clock
      ((indexes 4).flatMap fun c => boundaryFilings s.clock c (s.channel c) s.boundaryChannels[c]) }).settle

/-- R50: a boundary falls at now: a whole multiple of 1000 ms, later than the last one and than the entry to SETTLE.
DEDUCED (assumption 30). -/
def State.boundaryDue (s : State) : Bool :=
  s.permitted && s.clock.toNat % Config.bucket == 0 && s.sensing.lastBoundary != some s.clock

/-- BUCKET_BOUNDARY (R50, R53, R54, R57). -/
def execBucketBoundary (now : Time) (s : State) : Host.Outcome State Fault Refusal :=
  let s := s.takeAt now
  answer (if s.boundaryDue then s.boundary else s)

/-! ## Timers (R54 to R56) -/

/-- R54: the lowest-numbered channel in storm. -/
def State.firstStorm (s : State) : Option Channel := (indexes 4).find? fun c => (s.channel c).storm.isSome

/-- R54: the escalation timer expires. -/
def State.escalate (s : State) (c : Channel) : State :=
  ({ s with
    own := { s.own with escalation := true }
    sensing := { s.sensing with escalation := none }
    record := s.record.file s.clock ⟨.escalated, octet c.val, sat16 s.setup.sensing.escalation⟩ }).settle

/-- ESCALATED (R54). -/
def execEscalated (now : Time) (s : State) : Host.Outcome State Fault Refusal :=
  let s := s.takeAt now
  answer
    (if due now s.sensing.escalation then
      match s.firstStorm with
      | some c => s.escalate c
      | none => s
    else s)

/-- WATCH_HOLD_EXPIRY (R55). -/
def execWatchHoldExpiry (now : Time) (s : State) : Host.Outcome State Fault Refusal :=
  let s := s.takeAt now
  answer
    (if due now s.own.watchHold then { s with own := { s.own with watchHold := none } }.settle else s)

/-- SILENT (R56). -/
def execSilent (now : Time) (c : Channel) (s : State) : Host.Outcome State Fault Refusal :=
  let s := s.takeAt now
  answer
    (if due now (s.channel c).testTimer then
      (s.changeFlags c true { s.channel c with testTimer := none, silent := true }).fillOnChange
    else s)

end Sys2Proof.Machine
end

