-- ==== Sys2Proof/Machine/ValveCommands.lean ====
section
/-! DEFINITION. The commands of the valve controller (R82, R88 to R96). -/

namespace Sys2Proof.Machine

def State.valve (s : State) (o : Output) : Valve := s.valves[o]

/-- R89: the first window's open instant is reached while the station is OPERATING. -/
def State.openValve (s : State) (o : Output) : State :=
  if s.operating && (s.role o).isValve then
    s.withValve o ((s.valve o).openIfDue s.clock s.confirmMs (s.feedback o))
  else s

/-- WINDOW_OPEN (R89, R99). -/
def execWindowOpen (now : Time) (o : Output) (s : State) : Host.Outcome State Fault Refusal :=
  answer ((s.takeAt now).openValve o)

/-- R88: the first window is removed. -/
def Valve.dropWindow (v : Valve) : Valve := { v with schedule := v.schedule.drop 1 }

/-- R88, R90 to R93, R99: the window is removed, and while the station is OPERATING that is the end of the current
window. -/
def State.closeWindow (s : State) (o : Output) : State :=
  let v := (s.valve o).dropWindow
  (s.withValve o (if s.operating then v.endWindow s.clock s.confirmMs (s.feedback o) else v)).openValve o

/-- WINDOW_CLOSE (R88, R90 to R93, R99). -/
def execWindowClose (now : Time) (o : Output) (s : State) : Host.Outcome State Fault Refusal :=
  let s := s.takeAt now
  answer (if (s.role o).isValve && (s.valve o).firstClosed now then s.closeWindow o else s)

/-- A change of the debounced feedback of an output of a kind may be taken: it is debounced and stands otherwise. -/
def State.takesFeedback (s : State) (p : OutputRole → Bool) (o : Output) (active : Bool) : Bool :=
  p (s.role o) && s.feedbackDebounced o && s.feedback o != active

/-- R90 to R92, R96: the flow switch acts on the valve from the entry to OPERATING. -/
def State.flowChange (s : State) (o : Output) (active : Bool) : State :=
  if s.operating then (s.setFeedback o active).withValve o ((s.valve o).takeFlow s.clock s.confirmMs active)
  else s.setFeedback o active

/-- FLOW_SWITCH_CHANGE (R82, R90 to R92, R96). -/
def execFlowSwitchChange (now : Time) (o : Output) (active : Bool) (s : State) :
    Host.Outcome State Fault Refusal :=
  let s := s.takeAt now
  answer (if s.takesFeedback OutputRole.isValve o active then s.flowChange o active else s)

/-- R97: a sticky fault of an output becomes set, or is set again: the record and the flag. -/
def State.stickyFault (s : State) (o : Output) (v : Valve) (kind : RecordKind) (value : Count) : State :=
  { s.withValve o v with
    record := s.record.file s.clock ⟨kind, octet o.val, value⟩
    flags := s.flags ||| Attention.valveTrouble.mask }

/-- CONFIRM_TIMER_EXPIRY (R90, R91, R97). -/
def execConfirmTimerExpiry (now : Time) (o : Output) (s : State) : Host.Outcome State Fault Refusal :=
  let s := s.takeAt now
  answer
    (if (s.role o).isValve && due now (s.valve o).confirmTimer then
      (s.stickyFault o (s.valve o).failWater .waterFail (sat16 s.confirmMs)).settle
    else s)

/-- R94: the open-time watch of an output has reached the cut-off that applies. -/
def State.cutOffDue (s : State) (o : Output) : Bool :=
  (s.role o).isValve && (s.valve o).overtime s.clock (s.setup.cutOffSeconds s.flood[s.valveSystem o])

/-- CUT_OFF (R94, R97). -/
def execCutOff (now : Time) (o : Output) (s : State) : Host.Outcome State Fault Refusal :=
  let s := s.takeAt now
  answer
    (if s.cutOffDue o then
      (s.stickyFault o ((s.valve o).forceOff s.clock s.confirmMs (s.feedback o)) .cutOff
        (cutOffFiling s.clock o (s.valve o)).value).settle
    else s)

/-- VALVE_STUCK (R96, R97). -/
def execValveStuck (now : Time) (o : Output) (s : State) : Host.Outcome State Fault Refusal :=
  let s := s.takeAt now
  answer
    (if (s.role o).isValve && due now (s.valve o).stuckTimer then
      (s.stickyFault o (s.valve o).setStuck .valveStuck 0).settle
    else s)

end Sys2Proof.Machine
end

