-- ==== Sys2Proof/Machine/ExtractionCommands.lean ====
section
/-! DEFINITION. The commands of the extraction controller (R101 to R112, R118). -/

namespace Sys2Proof.Machine

/-! ## Flow sampler (R103, R104) -/

/-- R103: a rising edge counts while the window of 250 ms lasts. -/
def SampleWindow.count (now : Time) (w : SampleWindow) : SampleWindow :=
  if later now (after w.start Config.sampleWindow) then w else { w with pulses := w.pulses + 1 }

/-- FLOW_PULSE (R103). -/
def execFlowPulse (now : Time) (s : State) : Host.Outcome State Fault Refusal :=
  let s := s.takeAt now
  answer { s with extraction := { s.extraction with window := s.extraction.window.map (SampleWindow.count now) } }

/-- R103, R104: a window completes. -/
def State.completeSample (s : State) (w : SampleWindow) : State :=
  let s := s.takeSample w
  s.judgeSample.planWindow.settleWith s.sampleCauses

/-- SAMPLE_COMPLETE (R103, R104, R106, R108, R111). -/
def execSampleComplete (now : Time) (s : State) : Host.Outcome State Fault Refusal :=
  let s := s.takeAt now
  answer
    (match s.extraction.window with
    | some w => if reached now (after w.start Config.sampleWindow) then s.completeSample w else s
    | none => s)

/-- PERIODIC_WINDOW_START (R104). -/
def execPeriodicWindowStart (now : Time) (s : State) : Host.Outcome State Fault Refusal :=
  let s := s.takeAt now
  answer
    (if s.extraction.mode == .periodic && due now s.extraction.nextStart then
      { s with extraction := s.extraction.startWindow now }
    else s)

/-! ## Phase timers (R108, R110, R111, R118) -/

/-- The timer of a phase expires. -/
def State.phaseTimerDue (s : State) (p : FanPhase) : Bool :=
  s.extraction.phase == p && due s.clock s.extraction.timer

/-- START_GRACE_EXPIRY (R108, R114, R118). -/
def execStartGraceExpiry (now : Time) (s : State) : Host.Outcome State Fault Refusal :=
  let s := s.takeAt now
  answer
    (if s.phaseTimerDue .starting then
      { s with
        extraction := { s.extraction with startFail := true }
        flags := s.flags ||| Attention.fanFault.mask }.settleWith [.startFail]
    else s)

/-- GATE_TIMER_EXPIRY (R110, R118). -/
def execGateTimerExpiry (now : Time) (s : State) : Host.Outcome State Fault Refusal :=
  let s := s.takeAt now
  answer
    (if s.phaseTimerDue .diverting then
      { s with
        extraction := { s.extraction with gateFail := true }
        flags := s.flags ||| Attention.fanFault.mask }.enterRundown.settle
    else s)

/-- RUNDOWN_LIMIT_EXPIRY (R111, R118). -/
def execRundownLimitExpiry (now : Time) (s : State) : Host.Outcome State Fault Refusal :=
  let s := s.takeAt now
  answer
    (if s.phaseTimerDue .rundown then
      { s with
        extraction := { s.extraction with rundownSlow := true }
        flags := s.flags ||| Attention.fanFault.mask }.enterStopped.settle
    else s)

/-! ## Feedbacks and mismatches (R101, R102, R110) -/

def OutputRole.isGate : OutputRole → Bool
  | .abortGate => true
  | _ => false

def OutputRole.isContactor : OutputRole → Bool
  | .fanContactor => true
  | _ => false

/-- R110: the gate feedback becoming active ends DIVERTING. -/
def State.endDiverting (s : State) (active : Bool) : State :=
  if s.extraction.phase == .diverting && active then s.enterRundown else s

/-- GATE_FEEDBACK_CHANGE (R101, R102, R110). -/
def execGateFeedbackChange (now : Time) (active : Bool) (s : State) : Host.Outcome State Fault Refusal :=
  let s := s.takeAt now
  answer
    (match s.gateOutput with
    | some o =>
      if s.takesFeedback OutputRole.isGate o active then
        (((s.setFeedback o active).judgeMismatches).endDiverting active).settle
      else s
    | none => s)

/-- RUNNING_CONTACT_CHANGE (R101, R102). -/
def execRunningContactChange (now : Time) (active : Bool) (s : State) : Host.Outcome State Fault Refusal :=
  let s := s.takeAt now
  answer
    (match s.contactorOutput with
    | some o =>
      if s.takesFeedback OutputRole.isContactor o active then (s.setFeedback o active).judgeMismatches else s
    | none => s)

/-- CONTACTOR_MISMATCH (R102, R118). -/
def execContactorMismatch (now : Time) (s : State) : Host.Outcome State Fault Refusal :=
  let s := s.takeAt now
  answer
    (if due now s.extraction.contactor.timer then
      { s with
        extraction := { s.extraction with contactor := ⟨none, true⟩ }
        flags := s.flags ||| Attention.fanFault.mask }
    else s)

/-- GATE_MISMATCH (R102, R118). -/
def execGateMismatch (now : Time) (s : State) : Host.Outcome State Fault Refusal :=
  let s := s.takeAt now
  answer
    (if due now s.extraction.gate.timer then
      { s with
        extraction := { s.extraction with gate := ⟨none, true⟩ }
        flags := s.flags ||| Attention.fanFault.mask }
    else s)

end Sys2Proof.Machine
end

