-- ==== Sys2Proof/Machine/BarrierCommands.lean ====
section
/-! DEFINITION. The commands of the barrier controller (R125 to R134). -/

namespace Sys2Proof.Machine

/-- R125 to R134: from the entry to OPERATING a barrier acts on its feedback, and the queue is considered. -/
def State.barrierChange (s : State) (o : Output) (active : Bool) : State :=
  let s := s.setFeedback o active
  if s.operating then (s.barrierFeedback o active).considerQueue.fillOnChange else s

/-- BARRIER_FEEDBACK_CHANGE (R120, R125 to R134). -/
def execBarrierFeedbackChange (now : Time) (o : Output) (active : Bool) (s : State) :
    Host.Outcome State Fault Refusal :=
  let s := s.takeAt now
  answer (if s.takesFeedback OutputRole.isBarrier o active then s.barrierChange o active else s)

/-- R136: a barrier becomes JAMMED: the record and the flag. -/
def State.fileJam (s : State) (o : Output) (value : Nat) : State :=
  { s with
    record := s.record.file s.clock (barrierFiling .barrierJammed o value)
    flags := s.flags ||| Attention.barrierFault.mask }

/-- R125: the travel timer of a closing MAGNET expires. -/
def State.travelDue (s : State) (o : Output) : Bool :=
  (s.role o).isMagnet && (s.barrier o).state == .closing && due s.clock (s.barrier o).travelTimer

/-- TRAVEL_TIMER_EXPIRY (R125, R136). -/
def execTravelTimerExpiry (now : Time) (o : Output) (s : State) : Host.Outcome State Fault Refusal :=
  let s := s.takeAt now
  answer (if s.travelDue o then ((s.withBarrier o (s.barrier o).jam).fileJam o 0).fillOnChange else s)

/-- R132: the remaining travel of the running motor reaches 0. -/
def State.travelOut (s : State) (o : Output) : Bool :=
  s.barriers.running == some o && due s.clock ((s.barrier o).run.map Prod.snd)

/-- TRAVEL_EXHAUSTED (R132, R136). -/
def execTravelExhausted (now : Time) (o : Output) (s : State) : Host.Outcome State Fault Refusal :=
  let s := s.takeAt now
  answer
    (if s.travelOut o then
      ((s.endRun o Barrier.jam).fileJam o (s.barrier o).attempts).considerQueue.fillOnChange
    else s)

/-- R131: a damper wait that runs has reached its end. -/
def State.waitDue (s : State) (o : Output) : Bool :=
  match (s.barrier o).wait with
  | .running deadline => reached s.clock deadline
  | .idle | .expired => false

/-- DAMPER_WAIT_EXPIRY (R129, R131). -/
def execDamperWaitExpiry (now : Time) (o : Output) (s : State) : Host.Outcome State Fault Refusal :=
  let s := s.takeAt now
  answer
    (if s.waitDue o then
      (s.withBarrier o { s.barrier o with wait := .expired }).considerQueue.fillOnChange
    else s)

end Sys2Proof.Machine
end

