-- ==== Sys2Proof/Machine/SirenCommands.lean ====
section
/-! DEFINITION. The commands of the siren controller (R138, R139, R144, R145) and of the supply monitor (R155, R156). -/

namespace Sys2Proof.Machine

/-! ## Sirens -/

def State.siren (s : State) (o : Output) : Siren := s.sirens.units[o]

def State.withSiren (s : State) (o : Output) (u : Siren) : State :=
  { s with sirens := { s.sirens with units := put s.sirens.units o u } }

/-- R138: the current sense of an output changes: an active feedback clears the current fault mark and returns the
absence count to 0; with an inactive feedback the count grows while the output is on. -/
def Siren.takeFeedback (now : Time) (active : Bool) (u : Siren) : Siren :=
  { u with fault := u.fault && !active }.drive now u.pattern u.driven active

/-- SIREN_FEEDBACK_CHANGE (R137, R138). -/
def execSirenFeedbackChange (now : Time) (o : Output) (active : Bool) (s : State) :
    Host.Outcome State Fault Refusal :=
  let s := s.takeAt now
  answer
    (if s.takesFeedback OutputRole.isSiren o active then
      (s.setFeedback o active).withSiren o ((s.siren o).takeFeedback now active)
    else s)

/-- R138: the absence count reaches 500 ms. -/
def Siren.absenceDue (now : Time) (u : Siren) : Bool :=
  !u.absenceTaken && Config.absenceLimit ≤ u.absenceAt now

/-- R138: the mark is set and the count stops growing. -/
def Siren.failCurrent (u : Siren) : Siren :=
  { u with fault := true, absence := Config.absenceLimit, absenceFrom := none, absenceTaken := true }

/-- SIREN_FAULT (R138). DEDUCED (assumption 19). -/
def execSirenFault (now : Time) (o : Output) (s : State) : Host.Outcome State Fault Refusal :=
  let s := s.takeAt now
  answer
    (if (s.role o).isSiren && (s.siren o).absenceDue now then
      { s.withSiren o (s.siren o).failCurrent with
        record := s.record.file s.clock
          ⟨.sirenFault, octet o.val, BitVec.ofNat 16 (s.siren o).pattern.code⟩
        flags := s.flags ||| Attention.sirenFault.mask }
    else s)

/-- CADENCE_LEVEL_CHANGE (R139): the outputs take the levels of their patterns at this instant. -/
def execCadenceLevelChange (now : Time) (s : State) : Host.Outcome State Fault Refusal :=
  answer (s.takeAt now).followCadence

/-- RESOUND_TIMER_EXPIRY (R144). -/
def execResoundTimerExpiry (now : Time) (s : State) : Host.Outcome State Fault Refusal :=
  let s := s.takeAt now
  answer
    (if due now s.sirens.resound then
      { s with sirens :=
          { s.sirens with
            resound := none
            units := s.mapSirens fun _ u => u.unsilence } }.choosePatterns.fillOnChange
    else s)

/-- R145: an ALL_CLEAR claim has reached 9000 ms. -/
def Siren.allClearDue (now : Time) (u : Siren) : Bool :=
  match u.allClear with
  | some i => Config.allClear ≤ i.elapsed now
  | none => false

/-- ALL_CLEAR_END (R145). -/
def execAllClearEnd (now : Time) (o : Output) (s : State) : Host.Outcome State Fault Refusal :=
  let s := s.takeAt now
  answer
    (if (s.role o).isSiren && (s.siren o).allClearDue now then
      (s.withSiren o { s.siren o with allClear := none }).choosePatterns.fillOnChange
    else s)

/-! ## Supply monitor -/

/-- R155: the level of a field supply voltage in mV: the highest n with at least 18.0 + 0.5 n volts. -/
def supplyLevel (millivolts : Nat) : Nat :=
  if millivolts < 18000 then 0 else min 15 ((millivolts - 18000) / 500)

/-- R155: the level is replaced at each sample, and the next one is 50 ms later. -/
def State.gradeSupply (s : State) (level : Nat) : State :=
  { s with supply := { s.supply with level := level, next := some (after s.clock Config.supplyPeriod) } }

/-- R156: LOW becomes set. -/
def State.supplyFalls (s : State) : State :=
  { s with
    supply := { s.supply with low := true, count := 0 }
    record := s.record.file s.clock ⟨.supplyLow, 0, sat16 s.supply.level⟩
    flags := s.flags ||| Attention.supplyLow.mask }.pauseRun.considerQueue.fillOnChange

/-- R156: LOW clears. -/
def State.supplyRecovers (s : State) : State :=
  { s with
    supply := { s.supply with low := false }
    record := s.record.file s.clock ⟨.supplyOk, 0, sat16 s.supply.level⟩ }.considerQueue.fillOnChange

/-- R155: a graded sample is judged for LOW. -/
def State.judgeSupply (s : State) : State :=
  if s.supply.low then
    if s.setup.supplyResume ≤ s.supply.level then s.supplyRecovers else s
  else if s.supply.level ≤ s.setup.supplyLow then
    if Config.successive ≤ s.supply.count + 1 then s.supplyFalls
    else { s with supply := { s.supply with count := s.supply.count + 1 } }
  else { s with supply := { s.supply with count := 0 } }

/-- SUPPLY_SAMPLE (R155, R156): in CONFIG_FAULT the sample is graded only. -/
def execSupplySample (now : Time) (millivolts : Nat) (s : State) : Host.Outcome State Fault Refusal :=
  let s := s.takeAt now
  answer
    (if due now s.supply.next then
      if s.started then (s.gradeSupply (supplyLevel millivolts)).judgeSupply
      else s.gradeSupply (supplyLevel millivolts)
    else s)

end Sys2Proof.Machine
end

