-- ==== Sys2Proof/Machine/Readout.lean ====
section
/-! DEFINITION. The response records of the maintenance port (R157, R158, R165): what each request reads of the station
at the instant of its snapshot. -/

namespace Sys2Proof.Machine

/-! ## Fields -/

/-- R165: a flag of one octet: 1 when it is set, 0 when it is clear. DESIGN CHOICE (assumption 40). -/
def flagOctet (b : Bool) : Byte := if b then 1 else 0

/-- A 16-bit field. -/
def field16 (c : Count) : List Byte := be16 c.toNat

/-- R165: an instant or a reading, in four octets. -/
def field32 (t : Time) : List Byte := be32 t.toNat

/-- R165: the remaining time of a timer; a stopped timer is FFFFFFFF. -/
def timerField (now : Time) : Option Time → List Byte
  | some deadline => be32 (remaining now deadline)
  | none => be32 0xFFFFFFFF

/-- R165: an optional item is 0 when absent. -/
def instantField : Option Instant → List Byte
  | some i => field32 i.reading
  | none => be32 0

def optionOctet : Option Byte → Byte
  | some x => x
  | none => 0

/-- R165: an output number, or FF for no output. -/
def outputField : Option Output → Byte
  | some o => octet o.val
  | none => 0xFF

def Marks.toOctet (m : Marks) : Byte := octet (bitAt m.late 0 + bitAt m.clipped 1 + bitAt m.flood 2)

/-- R166: the response codes. -/
def responseOk : Byte := 0
def responseUnknown : Byte := 1
def responseNoSuch : Byte := 2
def responseEmpty : Byte := 3

/-! ## STATUS -/

/-- R150, R158: an octet of the image copy, 0 without one. -/
def State.imageOctet (s : State) (i : Nat) : Byte :=
  match s.start.image with
  | some img => img.getD i 0
  | none => 0

/-- R150: the identity that STATUS shows: the station's own from LISTEN on, and otherwise the image copy's.
DEDUCED (assumption 26). -/
def State.identity (s : State) : List Byte :=
  if s.started then
    [stationOctet s.setup.number, octet s.setup.zone.val, octet s.setup.system.val, s.setup.roles.toOctet]
  else
    [s.imageOctet 1, s.imageOctet 2, s.imageOctet 3,
     match s.start.image with
      | some img => (imageRoles img).toOctet
      | none => 0]

/-- R29: the five sources. -/
def State.sources (s : State) : Byte :=
  octet (bitAt s.inputs.call.state 0 + bitAt s.inputs.heat.state 1 + bitAt s.own.escalation 2 + bitAt s.anyStorm 3 +
    bitAt s.own.watchHold.isSome 4)

def State.txFailed (s : State) : Byte :=
  octet (bitAt (s.lineA.txState == .failed) 0 + bitAt (s.lineB.txState == .failed) 1)

def State.statusRecord (s : State) : List Byte :=
  [responseOk, octet s.start.phase.code, octet s.start.faultKind.code, s.start.faultOffset, s.imageOctet 0,
   s.imageOctet 254, s.imageOctet 255] ++ s.identity ++ field32 s.clock ++
  [octet s.own.level.code, s.sources, s.press.silence, s.press.reset, s.txFailed, octet s.supply.level,
   flagOctet s.supply.low] ++ field16 s.flags ++ field16 s.setup.mask ++
  [flagOctet s.attn, octet s.record.entries.length, s.record.dropped]

/-! ## ZONES -/

def State.zoneFields (s : State) (z : Zone) : List Byte :=
  [octet (s.zones.live[z]).code, octet (s.zones.latched[z]).code, octet (s.zoneLevel z).code]

/-- R36 to R38: the view of a duct system; a view that is not fresh holds no data. -/
def State.viewFields (s : State) (d : System) : List Byte :=
  let source := match s.views[d].source with
    | some k => stationOctet k
    | none => 0
  match s.viewData d with
  | some v =>
    [1, source, flagOctet s.views[d].clash, octet v.phase.code] ++ be16 v.velocity ++ be16 v.age ++
      [flagOctet v.lowFlow, octet v.causes.toNat]
  | none => [0, source, flagOctet s.views[d].clash, 0] ++ be16 0 ++ be16 0 ++ [0, 0]

def State.zonesRecord (s : State) : List Byte :=
  responseOk :: ((indexes 16).flatMap s.zoneFields ++ (indexes 4).flatMap s.viewFields)

/-! ## PEER -/

def Peer.presentItems (p : Peer) : Byte :=
  octet (bitAt p.heardA.isSome 0 + bitAt p.heardB.isSome 1 + bitAt p.since.isSome 2 + bitAt p.content.isSome 3 +
    bitAt p.override.isSome 4 + bitAt p.silence.isSome 5 + bitAt p.reset.isSome 6)

def contentField : Option StateContent → List Byte
  | some c => c.payload
  | none => List.replicate 14 0

def Peer.fields (p : Peer) : List Byte :=
  [octet p.presence.code, p.presentItems] ++ instantField p.heardA ++ instantField p.heardB ++ instantField p.since ++
  [flagOctet p.known] ++ contentField p.content ++ instantField p.received ++
  [optionOctet (p.override.map fun z => octet z.val), optionOctet p.silence, optionOctet p.reset, p.rejoins,
   flagOctet p.single.isSome]

/-- R158: the station's own number from the end of LOAD on: that of the image copy. -/
def State.ownNumber (s : State) : Nat := if s.started then s.setup.number.val else (s.imageOctet 1).toNat

/-- R158: a station number 1 to 31 other than the station's own. -/
def State.peerRecord (s : State) (argument : Byte) : List Byte :=
  if h : argument.toNat < 32 then
    if argument = 0 ∨ argument.toNat = s.ownNumber then [responseNoSuch]
    else responseOk :: (s.peers[argument.toNat]'h).fields
  else [responseNoSuch]

/-! ## VALVE -/

def OutcomeCounters.fields (k : OutcomeCounters) : List Byte :=
  field16 k.notDownstream ++ field16 k.beyondReach ++ field16 k.timed ++ field16 k.late ++ field16 k.clipped ++
    field16 k.flood ++ field16 k.missed

def ValveCounters.fields (k : ValveCounters) : List Byte :=
  field16 k.openings ++ field16 k.underTrouble ++ field16 k.confirmed ++ field16 k.unconfirmed ++ field16 k.short ++
    field16 k.cutOff ++ field16 k.stuck

/-- R80: the last-report record, with its presence octet; marks, window and reason are 0 when not present. -/
def lastReportFields : Option LastReport → List Byte
  | none => List.replicate 21 0
  | some r =>
    [1, octet r.source.code, stationOctet r.station, octet r.branch.val] ++ be16 r.position ++
    [octet r.outcome.code] ++ field32 r.computed ++ [octet (bitAt r.late 0 + bitAt r.clipped 1)] ++
    (match r.window with
      | some (o, c) => field32 o ++ field32 c
      | none => be32 0 ++ be32 0) ++
    [match r.reason with
      | some f => octet f.code
      | none => 0]

def Valve.faultBits (v : Valve) : Byte := octet (bitAt v.waterFail 0 + bitAt v.stuck 1 + bitAt v.cutOff 2)

def Window.fields (w : Window) : List Byte := field32 w.opens.reading ++ field32 w.closes.reading ++ [w.marks.toOctet]

def State.valveFields (s : State) (o : Output) : List Byte :=
  let v := s.valve o
  let flood := s.flood[s.valveSystem o]
  v.outcomes.fields ++ lastReportFields v.last ++
  [octet v.state.code, flagOctet v.state.on, flagOctet (s.feedback o), v.faultBits, flagOctet flood] ++
  be16 (s.setup.cutOffSeconds flood) ++ be32 (v.openTime s.clock) ++ v.counters.fields ++ field16 v.saturations ++
  (octet v.schedule.length :: v.schedule.flatMap Window.fields)

/-- R158: the output that an argument names, when it has a role of the kind asked for. -/
def State.namedOutput (s : State) (p : OutputRole → Bool) (argument : Byte) : Option Output :=
  (indexes 4).find? fun o => o.val == argument.toNat && p (s.role o)

def State.valveRecord (s : State) (argument : Byte) : List Byte :=
  match s.namedOutput OutputRole.isValve argument with
  | some o => responseOk :: s.valveFields o
  | none => [responseNoSuch]

/-! ## BARRIERS -/

/-- R136: the remaining time of a MAGNET's travel timer; a motor barrier's remaining travel while CLOSING, its kept
travel while QUEUED, and 0 otherwise. -/
def State.barrierTime (s : State) (o : Output) : List Byte :=
  let b := s.barrier o
  if (s.role o).isMagnet then timerField s.clock b.travelTimer
  else match b.run with
    | some (_, deadline) => be32 (remaining s.clock deadline)
    | none => be32 (b.kept.getD 0)

/-- R131, R136: the remaining time of a damper wait, FFFF when it does not run. DEDUCED (assumption 26). -/
def waitField (now : Time) : DamperWait → List Byte
  | .running deadline => be16 (remaining now deadline)
  | .idle | .expired => be16 0xFFFF

/-- R136: a DAMPER's duct system, permission and wait; other barriers have none of them. -/
def State.damperFields (s : State) (o : Output) : List Byte :=
  match s.role o with
  | .damper _ _ _ system =>
    [octet system.val, flagOctet (s.mayRun o), octet (s.barrier o).wait.code] ++ waitField s.clock (s.barrier o).wait
  | _ => [0, 0, 0, 0, 0]

/-- R136, R165: one entry of BARRIERS; a MAGNET's rank, which R121 leaves unread, is 0. DEDUCED (assumption 26). -/
def State.barrierFields (s : State) (o : Output) : List Byte :=
  let b := s.barrier o
  [octet o.val, octet (s.role o).code, octet b.state.code, flagOctet (s.barrierOn o), flagOctet (s.feedback o)] ++
  be16 (s.role o).trigger.toNat ++ [flagOctet (s.releaseHolds o)] ++ s.barrierTime o ++
  [octet b.attempts, octet (s.role o).rank] ++ s.damperFields o

/-- R136, R165: the closing queue and, for each barrier output, its fields. Table 11.8 gives the entries no order: they
stand by output number, lowest first. DESIGN CHOICE (assumption 41). -/
def State.barriersRecord (s : State) : List Byte :=
  let outputs := s.outputsOf OutputRole.isBarrier
  [responseOk, octet outputs.length, outputField s.barriers.running, flagOctet s.supply.low,
   octet s.barriers.queue.length, outputField s.barriers.queue[0]?, outputField s.barriers.queue[1]?,
   outputField s.barriers.queue[2]?] ++ outputs.flatMap s.barrierFields

/-! ## SIRENS -/

/-- R165: a running cadence phase, FFFF when idle. -/
def cadenceField (now : Time) (cycle : Nat) : Option Cadence → List Byte
  | some c => be16 (c.at_ cycle now)
  | none => be16 0xFFFF

def leaderField : Option Station → Byte
  | some k => stationOctet k
  | none => 0

def Claim.fields (c : Claim) : List Byte :=
  [octet c.zone.val, octet c.level.code] ++ field32 c.since.reading ++ [flagOctet c.silenced]

/-- R140: the claims in list order; an ALL_CLEAR claim has zone FF and its start instant. -/
def Siren.claimFields (u : Siren) : List (List Byte) :=
  u.claims.map Claim.fields ++ (match u.allClear with
    | some i => [[0xFF, 0] ++ field32 i.reading ++ [0]]
    | none => [])

def State.sirenFields (s : State) (o : Output) : List Byte :=
  let u := s.siren o
  [octet u.pattern.code, flagOctet u.driven, flagOctet (s.feedback o)] ++ be16 (u.absenceAt s.clock) ++
  [flagOctet u.fault, flagOctet u.fireSeen] ++ timerField s.clock s.sirens.resound ++
  cadenceField s.clock Config.slowCycle s.sirens.slow ++ cadenceField s.clock Config.fastCycle s.sirens.fast ++
  [leaderField s.sirens.slowLeader, leaderField s.sirens.fastLeader, octet u.claimFields.length] ++
  u.claimFields.flatten

def State.sirensRecord (s : State) (argument : Byte) : List Byte :=
  match s.namedOutput OutputRole.isSiren argument with
  | some o => responseOk :: s.sirenFields o
  | none => [responseNoSuch]

/-! ## FAN -/

/-- R118, R119. -/
def Extraction.markBits (e : Extraction) : Byte :=
  octet (bitAt e.startFail 0 + bitAt e.gateFail 1 + bitAt e.rundownSlow 2 + bitAt e.contactor.stands 3 +
    bitAt e.gate.stands 4)

def Extraction.fields (e : Extraction) (now : Time) (age : Nat) (contactor gate : Bool) : List Byte :=
  [octet e.phase.code, octet (firstCauseCode e.first), octet e.causes.toNat] ++ timerField now e.timer ++
  [octet e.mode.code, flagOctet e.window.isSome] ++ be16 e.velocity ++ be16 age ++
  [flagOctet e.lowFlow, octet e.lowCount, octet e.goodCount, octet e.stopCount,
   octet (bitAt e.phase.contactorOn 0 + bitAt e.phase.gateOn 1), octet (bitAt contactor 0 + bitAt gate 1),
   e.markBits] ++ field16 e.starts ++ field16 e.refusals

/-- R158: a station without the FAN role shows the STANDBY values of R119, and a station in LOAD or in CONFIG_FAULT shows
the same, whatever roles its image copy gives. DESIGN CHOICE (assumption 40). -/
def State.fanRecord (s : State) : List Byte :=
  responseOk ::
    (if s.hasFan then
      s.extraction.fields s.clock s.sampleAge (s.feedbackOf s.contactorOutput) (s.feedbackOf s.gateOutput)
    else Extraction.powerOn.fields s.clock 0 false false)

/-! ## TAKE_RECORD and COUNTERS -/

def Entry.fields (e : Entry) : List Byte :=
  field32 e.stamp ++ [octet e.kind.code, e.subject] ++ field16 e.value

/-- R160: the oldest entry with the number of entries held, or EMPTY. -/
def State.takeRecord (s : State) : List Byte :=
  match s.record.entries with
  | [] => [responseEmpty]
  | e :: _ => [responseOk, octet s.record.entries.length] ++ e.fields

def LineCounters.fields (k : LineCounters) : List Byte :=
  field16 k.valid ++ field16 k.check ++ field16 k.framing ++ field16 k.content ++ field16 k.contention ++ field16 k.tx

def SparkChannel.fields (x : SparkChannel) : List Byte :=
  field16 x.sparks ++ field16 x.tests ++ field16 x.noise ++
  [octet (bitAt x.blinded 0 + bitAt x.silent 1 + bitAt x.noisy 2), flagOctet x.storm.isSome,
   match x.storm with
    | some t => octet t.exitCount
    | none => 0] ++
  field16 (sat16 (windowCount x.sparkBuckets)) ++ field16 (sat16 (windowCount x.noiseBuckets))

def State.countersRecord (s : State) : List Byte :=
  responseOk :: (s.lineA.counters.fields ++ s.lineB.counters.fields ++
    (indexes 4).flatMap fun c => (s.channel c).fields)

/-! ## The response to a request (R158) -/

/-- Table 11.9: the request codes. -/
def requestStatus : Byte := 1
def requestZones : Byte := 2
def requestPeer : Byte := 3
def requestValve : Byte := 4
def requestBarriers : Byte := 5
def requestSirens : Byte := 6
def requestFan : Byte := 7
def requestTakeRecord : Byte := 8
def requestCounters : Byte := 9

/-- R158: the response record of a transaction with this request and argument octet. -/
def State.respond (s : State) (request argument : Byte) : List Byte :=
  match request.toNat with
  | 1 => s.statusRecord
  | 2 => s.zonesRecord
  | 3 => s.peerRecord argument
  | 4 => s.valveRecord argument
  | 5 => s.barriersRecord
  | 6 => s.sirensRecord argument
  | 7 => s.fanRecord
  | 8 => s.takeRecord
  | 9 => s.countersRecord
  | _ => [responseUnknown]

end Sys2Proof.Machine
end

