-- ==== Sys2Proof/Machine/PortCommands.lean ====
section
/-! DEFINITION. The transactions of the maintenance port (R157, R158, R160). Each command stands for a transaction whose
argument octet is complete: the response is taken as a snapshot at that instant. -/

namespace Sys2Proof.Machine

/-- R157, R158, R160: a transaction: its response; a new transaction leaves no entry sent by an earlier one, and one
that answers TAKE_RECORD with OK has sent the oldest entry. DEDUCED (assumption 27). -/
def State.transact (s : State) (request argument : Byte) : State :=
  { s with
    port := ⟨s.respond request argument⟩
    record := { s.record with sent := request == requestTakeRecord && !s.record.entries.isEmpty } }

/-- STATUS (R158). -/
def execStatus (now : Time) (argument : Byte) (s : State) : Host.Outcome State Fault Refusal :=
  answer ((s.takeAt now).transact requestStatus argument)

/-- ZONES (R158). -/
def execZones (now : Time) (argument : Byte) (s : State) : Host.Outcome State Fault Refusal :=
  answer ((s.takeAt now).transact requestZones argument)

/-- PEER (R158). -/
def execPeer (now : Time) (argument : Byte) (s : State) : Host.Outcome State Fault Refusal :=
  answer ((s.takeAt now).transact requestPeer argument)

/-- VALVE (R158). -/
def execValve (now : Time) (argument : Byte) (s : State) : Host.Outcome State Fault Refusal :=
  answer ((s.takeAt now).transact requestValve argument)

/-- BARRIERS (R158). -/
def execBarriers (now : Time) (argument : Byte) (s : State) : Host.Outcome State Fault Refusal :=
  answer ((s.takeAt now).transact requestBarriers argument)

/-- SIRENS (R158). -/
def execSirens (now : Time) (argument : Byte) (s : State) : Host.Outcome State Fault Refusal :=
  answer ((s.takeAt now).transact requestSirens argument)

/-- FAN (R158). -/
def execFan (now : Time) (argument : Byte) (s : State) : Host.Outcome State Fault Refusal :=
  answer ((s.takeAt now).transact requestFan argument)

/-- COUNTERS (R158). -/
def execCounters (now : Time) (argument : Byte) (s : State) : Host.Outcome State Fault Refusal :=
  answer ((s.takeAt now).transact requestCounters argument)

/-- TAKE_RECORD (R160). -/
def execTakeRecord (now : Time) (argument : Byte) (s : State) : Host.Outcome State Fault Refusal :=
  answer ((s.takeAt now).transact requestTakeRecord argument)

/-- R160: the entry that was sent is removed, unless a filing has discarded it. -/
def EventRecord.completeTake (r : EventRecord) : EventRecord :=
  { r with entries := if r.sent then r.entries.drop 1 else r.entries, sent := false }

/-- TAKE_RECORD_COMPLETE (R160). -/
def execTakeRecordComplete (now : Time) (s : State) : Host.Outcome State Fault Refusal :=
  let s := s.takeAt now
  answer { s with record := s.record.completeTake }

/-- UNKNOWN (R158): a request octet that is none of the nine. -/
def execUnknown (now : Time) (request argument : Byte) (s : State) : Host.Outcome State Fault Refusal :=
  answer ((s.takeAt now).transact request argument)

end Sys2Proof.Machine
end

