-- ==== Sys2Proof/Machine/Ageing.lean ====
section
/-! DEFINITION. The instants that blocks keep and their ageing (R149). Deadlines of running timers, stamps of records and
readings that are only reported are no kept instants here: no timer runs for longer than 900 s. -/

namespace Sys2Proof.Machine

/-! ## Every kept instant -/

def optionInstant (i : Option Instant) : List Instant := i.toList

def SparkReport.instants (r : SparkReport) : List Instant := [r.first]

def Notice.instants : Notice → List Instant
  | .spark _ r _ => r.instants
  | .state _ | .call _ | .key .. => []

def Slots.instants (x : Slots) : List Instant :=
  x.spark.toList.flatMap fun r => (r.map SparkReport.instants).getD []

def LineInterface.instants (x : LineInterface) : List Instant :=
  x.lastValid.toList ++ x.lastClash.toList ++ x.slots.instants ++ (x.place.map fun a => a.notice.instants).getD []

def Peer.instants (p : Peer) : List Instant :=
  p.heardA.toList ++ p.heardB.toList ++ p.since.toList ++ p.received.toList

def Valve.instants (v : Valve) : List Instant :=
  v.openSince.toList ++ v.schedule.flatMap fun w => [w.opens, w.closes]

def Siren.instants (u : Siren) : List Instant := u.allClear.toList ++ u.claims.map Claim.since

/-- R149: the instants that the station keeps. -/
def State.instants (s : State) : List Instant :=
  s.start.listenStart.toList ++ s.lineA.instants ++ s.lineB.instants ++ s.peers.toList.flatMap Peer.instants ++
  s.inputs.feedback.toList.flatMap (fun f => f.activeSince.toList) ++
  s.sensing.channels.toList.flatMap (fun c => (c.storm.map fun t => [t.entry]).getD []) ++
  s.valves.toList.flatMap Valve.instants ++ s.extraction.lastSample.toList ++ s.extraction.lastStart.toList ++
  s.barriers.units.toList.flatMap (fun b => b.released.toList) ++ s.sirens.units.toList.flatMap Siren.instants

/-! ## Every kept instant changed -/

def SparkReport.mapInstants (f : Instant → Instant) (r : SparkReport) : SparkReport := { r with first := f r.first }

def Notice.mapInstants (f : Instant → Instant) : Notice → Notice
  | .spark c r age => .spark c (r.mapInstants f) age
  | .state c => .state c
  | .call z => .call z
  | .key k n => .key k n

def LineInterface.mapInstants (f : Instant → Instant) (x : LineInterface) : LineInterface :=
  { x with
    lastValid := x.lastValid.map f
    lastClash := x.lastClash.map f
    slots := { x.slots with spark := x.slots.spark.map fun r => r.map (SparkReport.mapInstants f) }
    place := x.place.map fun a => { a with notice := a.notice.mapInstants f } }

def Peer.mapInstants (f : Instant → Instant) (p : Peer) : Peer :=
  { p with
    heardA := p.heardA.map f
    heardB := p.heardB.map f
    since := p.since.map f
    received := p.received.map f }

def SparkChannel.mapInstants (f : Instant → Instant) (x : SparkChannel) : SparkChannel :=
  { x with storm := x.storm.map fun t => { t with entry := f t.entry } }

def Window.mapInstants (f : Instant → Instant) (w : Window) : Window :=
  { w with opens := f w.opens, closes := f w.closes }

def Valve.mapInstants (f : Instant → Instant) (v : Valve) : Valve :=
  { v with openSince := v.openSince.map f, schedule := v.schedule.map (Window.mapInstants f) }

def Siren.mapInstants (f : Instant → Instant) (u : Siren) : Siren :=
  { u with
    allClear := u.allClear.map f
    claims := u.claims.map fun c => { c with since := f c.since } }

def State.mapInstants (s : State) (f : Instant → Instant) : State :=
  { s with
    start := { s.start with listenStart := s.start.listenStart.map f }
    lineA := s.lineA.mapInstants f
    lineB := s.lineB.mapInstants f
    peers := s.peers.map (Peer.mapInstants f)
    inputs := { s.inputs with
      feedback := s.inputs.feedback.map fun x => { x with activeSince := x.activeSince.map f } }
    sensing := { s.sensing with channels := s.sensing.channels.map (SparkChannel.mapInstants f) }
    valves := s.valves.map (Valve.mapInstants f)
    extraction := { s.extraction with
      lastSample := s.extraction.lastSample.map f
      lastStart := s.extraction.lastStart.map f }
    barriers := { s.barriers with
      units := s.barriers.units.map fun b => { b with released := b.released.map f } }
    sirens := { s.sirens with units := s.sirens.units.map (Siren.mapInstants f) } }

/-! ## Ageing -/

/-- R149: some kept instant is due to become aged. -/
def State.ageingDue (s : State) : Bool := s.instants.any (Instant.agesAt s.clock)

/-- R149: the kept instants that the clock has left 2^30 ms behind become aged, as the next ageing.
DEDUCED (assumption 4). -/
def State.ageInstants (s : State) : State :=
  { s.mapInstants (Instant.age s.clock s.agings) with agings := s.agings + 1 }

/-- INSTANT_AGED (R149). -/
def execInstantAged (now : Time) (s : State) : Host.Outcome State Fault Refusal :=
  let s := s.takeAt now
  answer (if s.ageingDue then s.ageInstants else s)

end Sys2Proof.Machine
end

