-- ==== Sys2Proof/Machine/StartCommands.lean ====
section
/-! DEFINITION. Power-on, the image read and the start phases (R150 to R154). -/

namespace Sys2Proof.Machine

/-! ## Power-on -/

/-- R39: at power-on a debounced state is inactive; the pin's level is the outside's and stands. -/
def Debounced.atPowerOn (d : Debounced) : Debounced := ⟨d.raw, false, none⟩

def Inputs.atPowerOn (i : Inputs) : Inputs where
  call := i.call.atPowerOn
  silence := i.silence.atPowerOn
  reset := i.reset.atPowerOn
  start := i.start.atPowerOn
  stop := i.stop.atPowerOn
  heat := i.heat.atPowerOn
  feedback := tabulate fun o => ⟨(i.feedback[o]).input.atPowerOn, none⟩
  spark := i.spark

/-- POWER_ON (R150, R155): every item takes its power-on value and LOAD begins; the pins and the waiting commands are
the outside's. DESIGN CHOICE (assumption 8). -/
def execPowerOn (s : State) : Host.Outcome State Fault Refusal :=
  answer { State.reset with inputs := s.inputs.atPowerOn, pending := s.pending }

/-! ## The image read -/

/-- R151, R152, R155: CONFIG_FAULT is entered; the first supply sample is taken at this instant.
DEDUCED (assumption 23). -/
def State.enterConfigFault (s : State) (kind : FaultKind) (offset : Nat) (image : Option (List Byte)) : State :=
  { s with
    start :=
      { s.start with
        phase := .configFault
        readBegan := none
        retry := none
        faultKind := kind
        faultOffset := octet offset
        image := image }
    supply := { s.supply with next := some s.clock }
    record := s.record.file s.clock ⟨.configFault, octet kind.code, BitVec.ofNat 16 offset⟩ }

/-- R150: the START record. -/
def State.fileStart (s : State) (subject : Byte) : State :=
  s.file .start subject (BitVec.ofNat 16 s.start.reads)

/-- R150: a read is in progress. -/
def State.reading (s : State) : Bool := s.start.phase == .load && s.start.readBegan.isSome

/-- R150: a failed read. -/
def State.failRead (s : State) : State :=
  if s.start.reads < Config.readsInAll then
    { s with start := { s.start with readBegan := none, retry := some (after s.clock Config.readRetry) } }
  else (s.fileStart 0).enterConfigFault .noImage 0 none

/-- IMAGE_READ_FAILED (R150). -/
def execImageReadFailed (now : Time) (s : State) : Host.Outcome State Fault Refusal :=
  let s := s.takeAt now
  answer (if s.reading then s.failRead else s)

/-- IMAGE_READ_RETRY (R150): 10 ms after the failure the read is tried again. -/
def execImageReadRetry (now : Time) (s : State) : Host.Outcome State Fault Refusal :=
  let s := s.takeAt now
  answer
    (if s.start.phase == .load && due now s.start.retry then
      { s with start := { s.start with reads := s.start.reads + 1, readBegan := some now, retry := none } }
    else s)

/-- R150: a read may complete until 100 ms after it began. DEDUCED (assumption 24). -/
def State.withinRead (s : State) : Bool :=
  match s.start.readBegan with
  | some t => (s.clock - t).toNat ≤ Config.readLimit
  | none => false

/-- R39: debouncing begins: a level opposite to the debounced state counts from now. -/
def Debounced.begin_ (now : Time) (d : Debounced) : Debounced :=
  { d with opposite := if d.raw != d.state then some now else none }

/-- R39: the key inputs and the heat input are debounced from the start of LISTEN. -/
def Inputs.beginKeys (now : Time) (i : Inputs) : Inputs :=
  { i with
    call := i.call.begin_ now
    silence := i.silence.begin_ now
    reset := i.reset.begin_ now
    start := i.start.begin_ now
    stop := i.stop.begin_ now
    heat := i.heat.begin_ now }

/-- R82, R101, R120, R137: the feedbacks are debounced from the entry to SETTLE. -/
def Inputs.beginFeedback (now : Time) (i : Inputs) : Inputs :=
  { i with feedback := tabulate fun o =>
      { i.feedback[o] with input := (i.feedback[o]).input.begin_ now } }

/-- R153, R154: a usable image is put to use and LISTEN begins. -/
def State.enterListen (s : State) (image : List Byte) : State :=
  let s := s.fileStart (image.getD 1 0)
  ({ s with
    start :=
      { s.start with
        phase := .listen
        readBegan := none
        retry := none
        phaseTimer := some (after s.clock Config.listen)
        listenStart := some (.of s.clock)
        image := some image }
    setup := imageSetup image
    supply := { s.supply with next := some s.clock }
    inputs := s.inputs.beginKeys s.clock
    record := s.record.fileAll s.clock (clampFilings image)
    flags := if (clampFilings image).isEmpty then s.flags else s.flags ||| Attention.configClamped.mask }).settle

/-- R150, R151: the image read is checked, and LOAD ends. -/
def State.completeRead (s : State) (image : List Byte) : State :=
  match structuralError image with
  | none => s.enterListen image
  | some (kind, offset) => (s.fileStart (image.getD 1 0)).enterConfigFault kind offset (some image)

/-- IMAGE_READ_COMPLETE (R150, R151, R153). -/
def execImageReadComplete (now : Time) (image : List Byte) (s : State) : Host.Outcome State Fault Refusal :=
  let s := s.takeAt now
  answer
    (if s.reading && s.withinRead && image.length == Config.imageOctets then s.completeRead image else s)

/-! ## LISTEN, SETTLE, OPERATING -/

/-- R45, R46, R50: the enabled channels become active at the entry to SETTLE; an input that is already high begins a
pulse at this instant, and the first boundary is the first whole second after it. -/
def State.beginChannels (s : State) : State :=
  { s with sensing :=
      { s.sensing with
        lastBoundary := some s.clock
        channels := tabulate fun c =>
          let ch := s.sensing.channels[c]
          if s.setup.channels[c].enabled && s.inputs.spark[c] then { ch with pulse := some s.clock } else ch } }

/-- R154: SETTLE begins. -/
def State.enterSettle (s : State) : State :=
  ({ s with
    inputs := s.inputs.beginFeedback s.clock
    start :=
      { s.start with phase := .settle, phaseTimer := some (after s.clock Config.settle) } }.beginChannels).judgeSampler.judgeServed.fill

/-- R154: the timer of LISTEN or of SETTLE has expired. -/
def State.phaseDue (s : State) (p : StartPhase) : Bool := s.start.phase == p && due s.clock s.start.phaseTimer

/-- LISTEN_END (R154, R14, R17). -/
def execListenEnd (now : Time) (s : State) : Host.Outcome State Fault Refusal :=
  let s := s.takeAt now
  answer (if s.phaseDue .listen then s.enterSettle else s)

/-- R56: the test interval timers start at the entry to OPERATING. -/
def State.beginTests (s : State) : State :=
  { s with sensing :=
      { s.sensing with channels := tabulate fun c =>
          let ch := s.sensing.channels[c]
          if s.setup.channels[c].enabled then
            { ch with testTimer := some (after s.clock (s.setup.sensing.testInterval * 1000)) }
          else ch } }

/-- R96, R99: a valve output at the entry to OPERATING: the stuck judgement, then the schedule as it stands.
DEDUCED (assumption 18). -/
def State.beginValve (s : State) (o : Output) : Valve :=
  let v := s.valves[o]
  let v := if s.feedback o then v.beginStuck s.clock s.confirmMs s.inputs.feedback[o].activeSince else v
  v.openIfDue s.clock s.confirmMs (s.feedback o)

/-- R96: the outputs whose switch has been active for the confirm time at the entry to OPERATING. -/
def State.stuckAtEntry (s : State) (o : Output) : Bool :=
  (s.role o).isValve && s.feedback o && !s.valves[o].stuck && (s.beginValve o).stuck

def State.beginValves (s : State) : State :=
  { s with
    valves := tabulate fun o => if (s.role o).isValve then s.beginValve o else s.valves[o]
    record := s.record.fileAll s.clock
      (((indexes 4).filter s.stuckAtEntry).map fun (o : Output) => ⟨.valveStuck, octet o.val, 0⟩)
    flags := if (indexes 4).any s.stuckAtEntry then s.flags ||| Attention.valveTrouble.mask else s.flags }

/-- R102: the disagreement of an active feedback with its output off, from when it began. -/
def State.mismatchAtEntry (s : State) (o : Option Output) (time : Nat) : Mismatch :=
  match o with
  | some o =>
    if s.feedback o then .begin_ s.clock time s.inputs.feedback[o].activeSince else ⟨none, false⟩
  | none => ⟨none, false⟩

def State.beginMismatches (s : State) : State :=
  let contactor := s.mismatchAtEntry s.contactorOutput Config.contactorMismatch
  let gate := s.mismatchAtEntry s.gateOutput s.setup.extraction.gateTime
  { s with
    extraction := if s.hasFan then { s.extraction with contactor := contactor, gate := gate } else s.extraction
    flags := if s.hasFan && (contactor.stands || gate.stands) then s.flags ||| Attention.fanFault.mask else s.flags }

/-- R154: OPERATING begins; the openings act on separate state. -/
def State.enterOperating (s : State) : State :=
  ({ s with start :=
      { s.start with phase := .operating, phaseTimer := none } }.beginTests.beginValves.beginMismatches.armBarriers).formFireSeen.settle

/-- SETTLE_END (R154). -/
def execSettleEnd (now : Time) (s : State) : Host.Outcome State Fault Refusal :=
  let s := s.takeAt now
  answer (if s.phaseDue .settle then s.enterOperating else s)

end Sys2Proof.Machine
end

