-- ==== Sys2Proof/Machine/Dispatch.lean ====
section
/-! DEFINITION. One arm per command: its meaning. -/

namespace Sys2Proof.Machine

def exec (i : Instr) (s : State) : Host.Outcome State Fault Refusal :=
  match i with
  | .powerOn => Sys2Proof.Machine.execPowerOn s
  | .imageReadFailed now => Sys2Proof.Machine.execImageReadFailed now s
  | .imageReadRetry now => Sys2Proof.Machine.execImageReadRetry now s
  | .imageReadComplete now image => Sys2Proof.Machine.execImageReadComplete now image s
  | .listenEnd now => Sys2Proof.Machine.execListenEnd now s
  | .settleEnd now => Sys2Proof.Machine.execSettleEnd now s
  | .attemptStart now line => Sys2Proof.Machine.execAttemptStart now line s
  | .contentionLost now line => Sys2Proof.Machine.execContentionLost now line s
  | .txError now place => Sys2Proof.Machine.execTxError now place s
  | .attemptSuccess now line => Sys2Proof.Machine.execAttemptSuccess now line s
  | .probeTimerExpiry now line => Sys2Proof.Machine.execProbeTimerExpiry now line s
  | .stateRoundHoldClear now line => Sys2Proof.Machine.execStateRoundHoldClear now line s
  | .stateIntervalExpiry now => Sys2Proof.Machine.execStateIntervalExpiry now s
  | .receiveFramingError now line => Sys2Proof.Machine.execReceiveFramingError now line s
  | .noticeLengthError now line length => Sys2Proof.Machine.execNoticeLengthError now line length s
  | .callNotice now line rx => Sys2Proof.Machine.execCallNotice now line rx s
  | .sparkNotice now line rx => Sys2Proof.Machine.execSparkNotice now line rx s
  | .keyNotice now line rx => Sys2Proof.Machine.execKeyNotice now line rx s
  | .stateNotice now line rx => Sys2Proof.Machine.execStateNotice now line rx s
  | .lineQuiet now line => Sys2Proof.Machine.execLineQuiet now line s
  | .peerLost now peer => Sys2Proof.Machine.execPeerLost now peer s
  | .singleLine now peer => Sys2Proof.Machine.execSingleLine now peer s
  | .callPress now => Sys2Proof.Machine.execCallPress now s
  | .callRelease now => Sys2Proof.Machine.execCallRelease now s
  | .heatInputChange now active => Sys2Proof.Machine.execHeatInputChange now active s
  | .silencePress now => Sys2Proof.Machine.execSilencePress now s
  | .resetPress now => Sys2Proof.Machine.execResetPress now s
  | .startPress now => Sys2Proof.Machine.execStartPress now s
  | .stopPress now => Sys2Proof.Machine.execStopPress now s
  | .sensorPulseStart now channel => Sys2Proof.Machine.execSensorPulseStart now channel s
  | .sensorPulseEnd now channel width => Sys2Proof.Machine.execSensorPulseEnd now channel width s
  | .blinded now channel => Sys2Proof.Machine.execBlinded now channel s
  | .blindedClear now channel => Sys2Proof.Machine.execBlindedClear now channel s
  | .bucketBoundary now => Sys2Proof.Machine.execBucketBoundary now s
  | .escalated now => Sys2Proof.Machine.execEscalated now s
  | .watchHoldExpiry now => Sys2Proof.Machine.execWatchHoldExpiry now s
  | .silent now channel => Sys2Proof.Machine.execSilent now channel s
  | .windowOpen now output => Sys2Proof.Machine.execWindowOpen now output s
  | .windowClose now output => Sys2Proof.Machine.execWindowClose now output s
  | .flowSwitchChange now output active => Sys2Proof.Machine.execFlowSwitchChange now output active s
  | .confirmTimerExpiry now output => Sys2Proof.Machine.execConfirmTimerExpiry now output s
  | .cutOff now output => Sys2Proof.Machine.execCutOff now output s
  | .valveStuck now output => Sys2Proof.Machine.execValveStuck now output s
  | .flowPulse now => Sys2Proof.Machine.execFlowPulse now s
  | .sampleComplete now => Sys2Proof.Machine.execSampleComplete now s
  | .periodicWindowStart now => Sys2Proof.Machine.execPeriodicWindowStart now s
  | .startGraceExpiry now => Sys2Proof.Machine.execStartGraceExpiry now s
  | .gateFeedbackChange now active => Sys2Proof.Machine.execGateFeedbackChange now active s
  | .gateTimerExpiry now => Sys2Proof.Machine.execGateTimerExpiry now s
  | .rundownLimitExpiry now => Sys2Proof.Machine.execRundownLimitExpiry now s
  | .runningContactChange now active => Sys2Proof.Machine.execRunningContactChange now active s
  | .contactorMismatch now => Sys2Proof.Machine.execContactorMismatch now s
  | .gateMismatch now => Sys2Proof.Machine.execGateMismatch now s
  | .barrierFeedbackChange now output active => Sys2Proof.Machine.execBarrierFeedbackChange now output active s
  | .travelTimerExpiry now output => Sys2Proof.Machine.execTravelTimerExpiry now output s
  | .travelExhausted now output => Sys2Proof.Machine.execTravelExhausted now output s
  | .damperWaitExpiry now output => Sys2Proof.Machine.execDamperWaitExpiry now output s
  | .sirenFeedbackChange now output active => Sys2Proof.Machine.execSirenFeedbackChange now output active s
  | .sirenFault now output => Sys2Proof.Machine.execSirenFault now output s
  | .cadenceLevelChange now => Sys2Proof.Machine.execCadenceLevelChange now s
  | .resoundTimerExpiry now => Sys2Proof.Machine.execResoundTimerExpiry now s
  | .allClearEnd now output => Sys2Proof.Machine.execAllClearEnd now output s
  | .supplySample now millivolts => Sys2Proof.Machine.execSupplySample now millivolts s
  | .status now argument => Sys2Proof.Machine.execStatus now argument s
  | .zones now argument => Sys2Proof.Machine.execZones now argument s
  | .peer now argument => Sys2Proof.Machine.execPeer now argument s
  | .valve now argument => Sys2Proof.Machine.execValve now argument s
  | .barriers now argument => Sys2Proof.Machine.execBarriers now argument s
  | .sirens now argument => Sys2Proof.Machine.execSirens now argument s
  | .fan now argument => Sys2Proof.Machine.execFan now argument s
  | .counters now argument => Sys2Proof.Machine.execCounters now argument s
  | .takeRecord now argument => Sys2Proof.Machine.execTakeRecord now argument s
  | .takeRecordComplete now => Sys2Proof.Machine.execTakeRecordComplete now s
  | .unknown now request argument => Sys2Proof.Machine.execUnknown now request argument s
  | .lineIdle now line => Sys2Proof.Machine.execLineIdle now line s
  | .checkError now line class_ rx => Sys2Proof.Machine.execCheckError now line class_ rx s
  | .instantAged now => Sys2Proof.Machine.execInstantAged now s

end Sys2Proof.Machine
end

