-- ==== Sys2Proof/Machine/Tick.lean ====
section
/-! DEFINITION. What the station does when no command waits: the clock advances by one millisecond (R149), the debounced
inputs follow their pins (R39), and the commands whose instants have come are put into the queue. The order of commands
that fall due at one instant is the model's (the rules admit either order). Events that the outside brings (the line's
bits, pulses, the supply voltage, the image, the maintenance port) are never sent by the tick. -/

namespace Sys2Proof.Machine

/-! ## Debouncing (R39) -/

/-- R39: since when the pin has stood opposite to the debounced state. -/
def Debounced.watch (now : Time) (d : Debounced) : Debounced :=
  { d with opposite := if d.raw == d.state then none else some (d.opposite.getD now) }

/-- R39: the opposite level has been held for 50 ms. -/
def Debounced.changes (now : Time) (d : Debounced) : Bool :=
  d.raw != d.state && due now (d.opposite.map fun t => after t Config.debounce)

/-- R39: the release of a press key has no effect beyond its debounced state. -/
def Debounced.release (now : Time) (d : Debounced) : Debounced :=
  if d.state && d.changes now then .settled false else d

/-- R39: the pins as the clock reaches now. -/
def Inputs.watch (now : Time) (i : Inputs) : Inputs :=
  { i with
    call := i.call.watch now
    silence := (i.silence.watch now).release now
    reset := (i.reset.watch now).release now
    start := (i.start.watch now).release now
    stop := (i.stop.watch now).release now
    heat := i.heat.watch now
    feedback := i.feedback.map fun f => { f with input := f.input.watch now } }

/-! ## Due commands -/

/-- A command when it is due. -/
def when_ (b : Bool) (c : Instr) : List Instr := if b then [c] else []

/-- R150, R154. -/
def State.dueStart (s : State) : List Instr :=
  when_ (s.reading && due s.clock (s.start.readBegan.map fun t => after t Config.readLimit)) (.imageReadFailed s.clock) ++
  when_ (s.start.phase == .load && due s.clock s.start.retry) (.imageReadRetry s.clock) ++
  when_ (s.phaseDue .listen) (.listenEnd s.clock) ++ when_ (s.phaseDue .settle) (.settleEnd s.clock)

/-- R10, R22. -/
def State.dueLine (s : State) (l : Line) : List Instr :=
  when_ ((s.line l).txState == .failed && due s.clock (s.line l).probeTimer) (.probeTimerExpiry s.clock l) ++
  when_ (s.quietTests l != (s.line l).quiet) (.lineQuiet s.clock l)

/-- R27, R28. -/
def State.duePeer (s : State) (k : Station) : List Instr :=
  when_ (k != 0 && (s.peers[k]).outOfDate s.clock) (.peerLost s.clock k) ++
  when_ (k != 0 && ((s.peers[k]).singleTest s.clock).isSome) (.singleLine s.clock k)

/-- R39. -/
def State.dueKeys (s : State) : List Instr :=
  if s.started then
    when_ (s.inputs.call.changes s.clock) (if s.inputs.call.raw then .callPress s.clock else .callRelease s.clock) ++
    when_ (s.inputs.heat.changes s.clock) (.heatInputChange s.clock s.inputs.heat.raw) ++
    when_ (s.inputs.silence.raw && s.inputs.silence.changes s.clock) (.silencePress s.clock) ++
    when_ (s.inputs.reset.raw && s.inputs.reset.changes s.clock) (.resetPress s.clock) ++
    when_ (s.inputs.start.raw && s.inputs.start.changes s.clock) (.startPress s.clock) ++
    when_ (s.inputs.stop.raw && s.inputs.stop.changes s.clock) (.stopPress s.clock)
  else []

/-- R82, R101, R120, R137: the command that a change of an output's feedback is. -/
def State.feedbackCommand (s : State) (o : Output) (active : Bool) : List Instr :=
  match s.role o with
  | .none => []
  | .valve .. => [.flowSwitchChange s.clock o active]
  | .fanContactor => [.runningContactChange s.clock active]
  | .abortGate => [.gateFeedbackChange s.clock active]
  | .magnet .. => [.barrierFeedbackChange s.clock o active]
  | .shutter .. => [.barrierFeedbackChange s.clock o active]
  | .damper .. => [.barrierFeedbackChange s.clock o active]
  | .siren .. => [.sirenFeedbackChange s.clock o active]

def State.dueFeedback (s : State) (o : Output) : List Instr :=
  let d := (s.inputs.feedback[o]).input
  if s.feedbackDebounced o && d.changes s.clock then s.feedbackCommand o d.raw else []

/-- R47, R56. -/
def State.dueChannel (s : State) (c : Channel) : List Instr :=
  when_ (s.channelActive c && (s.channel c).blindDue s.clock) (.blinded s.clock c) ++
  when_ (s.channelActive c && (s.channel c).clearDue s.clock) (.blindedClear s.clock c) ++
  when_ (due s.clock (s.channel c).testTimer) (.silent s.clock c)

/-- R50, R54, R55. -/
def State.dueSensing (s : State) : List Instr :=
  when_ s.boundaryDue (.bucketBoundary s.clock) ++
  when_ (due s.clock s.sensing.escalation && s.firstStorm.isSome) (.escalated s.clock) ++
  when_ (due s.clock s.own.watchHold) (.watchHoldExpiry s.clock)

/-- R88, R89, R90, R94, R96. -/
def State.dueValve (s : State) (o : Output) : List Instr :=
  if (s.role o).isValve then
    when_ ((s.valve o).firstClosed s.clock) (.windowClose s.clock o) ++
    when_ (s.operating && (s.valve o).state == .idle && (s.valve o).firstOpen s.clock) (.windowOpen s.clock o) ++
    when_ (due s.clock (s.valve o).confirmTimer) (.confirmTimerExpiry s.clock o) ++
    when_ (s.cutOffDue o) (.cutOff s.clock o) ++
    when_ (due s.clock (s.valve o).stuckTimer) (.valveStuck s.clock o)
  else []

/-- R102, R103, R104, R108, R110, R111. -/
def State.dueExtraction (s : State) : List Instr :=
  when_ (due s.clock (s.extraction.window.map fun w => after w.start Config.sampleWindow)) (.sampleComplete s.clock) ++
  when_ (s.extraction.mode == .periodic && due s.clock s.extraction.nextStart) (.periodicWindowStart s.clock) ++
  when_ (s.phaseTimerDue .starting) (.startGraceExpiry s.clock) ++
  when_ (s.phaseTimerDue .diverting) (.gateTimerExpiry s.clock) ++
  when_ (s.phaseTimerDue .rundown) (.rundownLimitExpiry s.clock) ++
  when_ (due s.clock s.extraction.contactor.timer) (.contactorMismatch s.clock) ++
  when_ (due s.clock s.extraction.gate.timer) (.gateMismatch s.clock)

/-- R125, R131, R132. -/
def State.dueBarrier (s : State) (o : Output) : List Instr :=
  when_ (s.travelDue o) (.travelTimerExpiry s.clock o) ++
  when_ (s.travelOut o) (.travelExhausted s.clock o) ++
  when_ (s.waitDue o) (.damperWaitExpiry s.clock o)

/-- R139: the level that a siren output's pattern gives at now differs from the level it is driven to. -/
def State.levelTurns (s : State) (o : Output) : Bool :=
  (s.role o).isSiren &&
    Sirens.levelOf s.clock s.sirens.slow s.sirens.fast (s.siren o) (s.siren o).pattern != (s.siren o).driven

/-- R138, R145. -/
def State.dueSiren (s : State) (o : Output) : List Instr :=
  when_ ((s.role o).isSiren && (s.siren o).absenceDue s.clock) (.sirenFault s.clock o) ++
  when_ ((s.role o).isSiren && (s.siren o).allClearDue s.clock) (.allClearEnd s.clock o)

/-- R139, R144. -/
def State.dueSirens (s : State) : List Instr :=
  (indexes 4).flatMap s.dueSiren ++
  when_ (due s.clock s.sirens.resound) (.resoundTimerExpiry s.clock) ++
  when_ (s.operating && (indexes 4).any s.levelTurns) (.cadenceLevelChange s.clock)

/-- The commands whose instants have come, in the model's fixed order. DESIGN CHOICE (assumption 3). -/
def State.dueCommands (s : State) : List Instr :=
  s.dueStart ++ s.dueLine .a ++ s.dueLine .b ++ (indexes 32).flatMap s.duePeer ++ s.dueKeys ++
  (indexes 4).flatMap s.dueFeedback ++ (indexes 4).flatMap s.dueChannel ++ s.dueSensing ++
  (indexes 4).flatMap s.dueValve ++ s.dueExtraction ++ (indexes 4).flatMap s.dueBarrier ++ s.dueSirens ++
  when_ (due s.clock s.assembler.interval) (.stateIntervalExpiry s.clock) ++
  when_ s.ageingDue (.instantAged s.clock)

/-- The clock advances and the pins are watched. -/
def State.advance (s : State) : State :=
  { s with clock := s.clock + 1, inputs := s.inputs.watch (s.clock + 1) }

/-- A millisecond with no command waiting. DESIGN CHOICE (assumption 2). -/
def State.tick (s : State) : State := { s.advance with pending := s.advance.dueCommands }

end Sys2Proof.Machine
end

