-- ==== Sys2Proof/Machine/Wire.lean ====
section
/-! DEFINITION. From bits to commands: what a transmitter and a receive stage make of the bit times of a line (R1, R2, R3,
R5, R6, R7, R13, R18), what the station makes of the serial memory's answers to an image read (R150), and what the
maintenance port makes of the levels of its pins (R157, R158, R160). The table's rows are
whole events, so nothing of a notice or transaction under way stands in State; these functions say which command the bits
of one come to. A bit time is true when the line is recessive, which is a bit of value 1. -/

namespace Sys2Proof.Machine

/-! ## The line (R1, R2) -/

/-- R1: the line is dominant while at least one station drives it dominant. -/
def wired (drivers : List Bool) : Bool := drivers.all id

/-- R2, R157: the bits of an octet, most significant first. -/
def msbFirst (o : Byte) : List Bool := [7, 6, 5, 4, 3, 2, 1, 0].map fun i => o.getLsbD i

/-- R2, R157: the octet of eight bits, most significant first. -/
def ofMsbFirst (b7 b6 b5 b4 b3 b2 b1 b0 : Bool) : Byte :=
  BitVec.ofNat 8 (bitAt b7 7 + bitAt b6 6 + bitAt b5 5 + bitAt b4 4 + bitAt b3 3 + bitAt b2 2 + bitAt b1 1 + bitAt b0 0)

/-- R2: a start bit, eight data bits, most significant first, and a stop bit. -/
def octetBits (o : Byte) : List Bool := false :: msbFirst o ++ [true]

/-- R2: the octets of a notice follow one another with no gap. -/
def lineBits (os : List Byte) : List Bool := os.flatMap octetBits

/-- R3: the bit times a notice occupies the line. -/
def Notice.bitTimes (n : Notice) (k : Station) : Nat := (lineBits (n.octets k)).length

/-- R2, R13: the bit times, newest first, end in a recessive run of this length. -/
def recessiveFor (count : Nat) (newestFirst : List Bool) : Bool :=
  count ≤ newestFirst.length && (newestFirst.take count).all id

/-- R2: 12 recessive bit times, a stop bit among them, make the line idle. -/
def lineIdle (newestFirst : List Bool) : Bool := recessiveFor 12 newestFirst

/-- R13: 40 recessive bit times, a stop bit among them, clear the round hold. -/
def roundHoldOver (newestFirst : List Bool) : Bool := recessiveFor 40 newestFirst

/-! ## The transmitter (R6, R7) -/

/-- How an attempt stands after some bit times; bit counts from the first start bit. -/
inductive Sending where
  | sending
  | contentionLost (bit : Nat)
  | txError (bit : Nat)
  | success
  deriving DecidableEq, Repr

/-- R6, R7: each bit driven is compared with the level read back; in the ten bit times of the precedence octet a dominant
level where recessive was driven loses contention, and any other difference is a TX error. -/
def compareBits : Nat → List Bool → List Bool → Sending
  | _, [], _ => .success
  | _, _ :: _, [] => .sending
  | i, d :: ds, h :: hs =>
    if d = h then compareBits (i + 1) ds hs else if i < 10 ∧ d = true then .contentionLost i else .txError i

/-- R6, R7: a notice sent, against what was read back. -/
def Notice.heardAs (n : Notice) (k : Station) (heard : List Bool) : Sending := compareBits 0 (lineBits (n.octets k)) heard

/-- The command that ends the attempt. -/
def Sending.command? (now : Time) (l : Line) : Sending → Option Instr
  | .sending => none
  | .contentionLost _ => some (.contentionLost now l)
  | .txError bit => some (.txError now ⟨l, bit⟩)
  | .success => some (.attemptSuccess now l)

/-! ## The receive stage (R18) -/

/-- What the receive stage has made of the bit times from the first start bit on. -/
inductive Reception where
  | assembling
  | framingError
  | lengthError (length : Byte)
  | complete (class_ : BitVec 3) (sender : BitVec 5) (payload : List Byte) (check : BitVec 16)
  deriving DecidableEq, Repr

/-- One octet's ten bit times. -/
inductive Framed where
  | partly
  | broken
  | octet (value : Byte) (rest : List Bool)
  deriving DecidableEq, Repr

/-- R18: a recessive start bit or a dominant stop bit breaks the framing. -/
def frameOctet : List Bool → Framed
  | true :: _ => .broken
  | false :: b7 :: b6 :: b5 :: b4 :: b3 :: b2 :: b1 :: b0 :: stop :: rest =>
    if stop then .octet (ofMsbFirst b7 b6 b5 b4 b3 b2 b1 b0) rest else .broken
  | _ => .partly

/-- R18: a notice with its payload and check octets. -/
def completeNotice (precedence : Byte) (payloadAndCheck : List Byte) : Reception :=
  let n := payloadAndCheck.length - 2
  .complete (BitVec.ofNat 3 (precedence.toNat / 32)) (BitVec.ofNat 5 precedence.toNat) (payloadAndCheck.take n)
    (BitVec.ofNat 16 (number16 (payloadAndCheck.getD n 0) (payloadAndCheck.getD (n + 1) 0)))

/-- R18: the octets still due after the length octet. -/
def receiveRest (precedence : Byte) (taken : List Byte) : Nat → List Bool → Reception
  | 0, _ => completeNotice precedence taken
  | left + 1, bits =>
    match frameOctet bits with
    | .partly => .assembling
    | .broken => .framingError
    | .octet value rest => receiveRest precedence (taken ++ [value]) left rest

/-- R18: the bit times of a notice from its first start bit on. -/
def receive (bits : List Bool) : Reception :=
  match frameOctet bits with
  | .partly => .assembling
  | .broken => .framingError
  | .octet precedence rest =>
    match frameOctet rest with
    | .partly => .assembling
    | .broken => .framingError
    | .octet length rest =>
      if 24 < length.toNat then .lengthError length else receiveRest precedence [] (length.toNat + 2) rest

/-- The command that the notice is passed on as; start is the receive-start instant. Classes 4 to 7 have no row of their
own: their notices fail a test of R19. -/
def Reception.command? (now start : Time) (l : Line) : Reception → Option Instr
  | .assembling => none
  | .framingError => some (.receiveFramingError now l)
  | .lengthError length => some (.noticeLengthError now l length)
  | .complete c sender payload check =>
    let rx : Received := ⟨start, sender, payload, check⟩
    some (match c.toNat with
      | 0 => .callNotice now l rx
      | 1 => .sparkNotice now l rx
      | 2 => .keyNotice now l rx
      | 3 => .stateNotice now l rx
      | _ => .checkError now l c rx)

/-! ## The serial memory (R150) -/

/-- R150: what the station does on the memory's bus: it calls a bus address, writes an octet, reads the next octet. -/
inductive BusStep where
  | call (address : BitVec 7)
  | write (octet : Byte)
  | read
  deriving DecidableEq, Repr

/-- R150: a read of the image: the memory's bus address, its internal address 0, and 256 octets in order. -/
def imageRead : List BusStep :=
  [.call Config.memoryAddress, .write Config.imageStart] ++ List.replicate Config.imageOctets .read

/-- R150: the memory's answer to a step: whether it acknowledges, and the octet that it delivers to a read. -/
structure BusAnswer where
  acknowledged : Bool
  octet        : Byte
  deriving DecidableEq, Repr

/-- R150: how a read of the image stands. -/
inductive ImageRead where
  | reading
  | failed
  | complete (image : List Byte)
  deriving DecidableEq, Repr

/-- R150: the steps left against the answers left, taken holding the octets read so far: a bus address or an address write
that is not acknowledged fails the read, and the read is complete with its last octet. -/
def readWith (taken : List Byte) : List BusStep → List BusAnswer → ImageRead
  | [], _ => .complete taken
  | _ :: _, [] => .reading
  | .read :: steps, a :: answers => readWith (taken ++ [a.octet]) steps answers
  | .call _ :: steps, a :: answers => if a.acknowledged then readWith taken steps answers else .failed
  | .write _ :: steps, a :: answers => if a.acknowledged then readWith taken steps answers else .failed

/-- The command that a read begun at an instant comes to; it fails when it stands unfinished after 100 ms. -/
def ImageRead.command? (began now : Time) : ImageRead → Option Instr
  | .failed => some (.imageReadFailed now)
  | .complete image =>
    some (if (now - began).toNat ≤ Config.readLimit then .imageReadComplete now image else .imageReadFailed now)
  | .reading => if Config.readLimit ≤ (now - began).toNat then some (.imageReadFailed now) else none

/-! ## The maintenance port (R157, R158) -/

/-- R157: the command of a transaction once its argument octet is complete; before that there is none. -/
def portCommand? (now : Time) : List Byte → Option Instr
  | request :: argument :: _ => some (match request.toNat with
    | 1 => .status now argument
    | 2 => .zones now argument
    | 3 => .peer now argument
    | 4 => .valve now argument
    | 5 => .barriers now argument
    | 6 => .sirens now argument
    | 7 => .fan now argument
    | 8 => .takeRecord now argument
    | 9 => .counters now argument
    | _ => .unknown now request argument)
  | _ => none

/-- R157: the octet on MDO, counted from 0: four octets of 0, the response record, and 0 after it. -/
def Port.shiftedOut (p : Port) (i : Nat) : Byte := if i < 4 then 0 else p.response.getD (i - 4) 0

/-- R160: MCS ends after this many octets: the TAKE_RECORD is complete once the whole record has been shifted out. -/
def State.portEnd? (s : State) (now : Time) (octets : Nat) : Option Instr :=
  if s.record.sent && decide (4 + s.port.response.length ≤ octets) then some (.takeRecordComplete now) else none

/-- R157: the octets that the bits shifted in come to, most significant bit first; one still short of a bit is none yet. -/
def shiftedIn : List Bool → List Byte
  | b7 :: b6 :: b5 :: b4 :: b3 :: b2 :: b1 :: b0 :: rest => ofMsbFirst b7 b6 b5 b4 b3 b2 b1 b0 :: shiftedIn rest
  | _ => []

/-- R157: the levels of the port's input pins: MCS is active, MCK is high, and the level of MDI. -/
structure PortPins where
  select : Bool
  clock  : Bool
  data   : Bool
  deriving DecidableEq, Repr

/-- R157: the levels last seen, and of the transaction under way the bits sampled, oldest first, and the number of falling
edges of MCK. -/
structure PortShift where
  pins  : PortPins
  bits  : List Bool
  falls : Nat
  deriving DecidableEq, Repr

/-- R157: MCS is not active, and the clock idles low. -/
def PortShift.idle : PortShift := ⟨⟨false, false, false⟩, [], 0⟩

/-- R157, mode 0: the pins take new levels. With MCS active a rising edge of MCK samples MDI and a falling edge is counted;
MCS going active begins a transaction, whatever the one before came to. -/
def PortShift.next (x : PortShift) (p : PortPins) : PortShift :=
  if x.pins.select && p.select then
    { pins := p
      bits := if !x.pins.clock && p.clock then x.bits ++ [p.data] else x.bits
      falls := if x.pins.clock && !p.clock then x.falls + 1 else x.falls }
  else ⟨p, [], 0⟩

/-- R157, R158, R160: the command that new levels come to: the last bit of the argument octet makes the request, and the end
of MCS may complete a TAKE_RECORD. -/
def PortShift.command? (now : Time) (s : State) (p : PortPins) (x : PortShift) : Option Instr :=
  if p.select then
    if x.bits.length < 16 ∧ (x.next p).bits.length = 16 then portCommand? now (shiftedIn (x.next p).bits) else none
  else s.portEnd? now (x.bits.length / 8)

/-- R157, mode 0: the level of MDO while MCS is active: the octets shifted out, most significant bit first, a bit from MCS
going active and each next one from a falling edge of MCK. No rule gives MDO a level while MCS is not active. -/
def Port.mdo? (p : Port) (x : PortShift) : Option Bool :=
  if x.pins.select then (msbFirst (p.shiftedOut (x.falls / 8)))[x.falls % 8]? else none

end Sys2Proof.Machine
end

