-- ==== Sys2Proof/Safety.lean ====
section
/-! DEFINITION. The terms in which claims about the station are made: the instant a command is taken at, the levels of the
driven outputs Q0 to Q3, the invariants that every step keeps, each with the sentence of the spec it stands for, what the
consequences of an event come to, what an image comes to by the spec's tables, and what a millisecond brings. -/

namespace Sys2Proof

/-- The clock reading at which a command is taken; POWER_ON sets the clock itself (R149). -/
def Instr.clockOf : Instr → Option Time
  | .powerOn => none
  | .imageReadFailed now => some now
  | .imageReadRetry now => some now
  | .imageReadComplete now _ => some now
  | .listenEnd now => some now
  | .settleEnd now => some now
  | .attemptStart now _ => some now
  | .contentionLost now _ => some now
  | .txError now _ => some now
  | .attemptSuccess now _ => some now
  | .probeTimerExpiry now _ => some now
  | .stateRoundHoldClear now _ => some now
  | .stateIntervalExpiry now => some now
  | .receiveFramingError now _ => some now
  | .noticeLengthError now _ _ => some now
  | .callNotice now _ _ => some now
  | .sparkNotice now _ _ => some now
  | .keyNotice now _ _ => some now
  | .stateNotice now _ _ => some now
  | .lineQuiet now _ => some now
  | .peerLost now _ => some now
  | .singleLine now _ => some now
  | .callPress now => some now
  | .callRelease now => some now
  | .heatInputChange now _ => some now
  | .silencePress now => some now
  | .resetPress now => some now
  | .startPress now => some now
  | .stopPress now => some now
  | .sensorPulseStart now _ => some now
  | .sensorPulseEnd now _ _ => some now
  | .blinded now _ => some now
  | .blindedClear now _ => some now
  | .bucketBoundary now => some now
  | .escalated now => some now
  | .watchHoldExpiry now => some now
  | .silent now _ => some now
  | .windowOpen now _ => some now
  | .windowClose now _ => some now
  | .flowSwitchChange now _ _ => some now
  | .confirmTimerExpiry now _ => some now
  | .cutOff now _ => some now
  | .valveStuck now _ => some now
  | .flowPulse now => some now
  | .sampleComplete now => some now
  | .periodicWindowStart now => some now
  | .startGraceExpiry now => some now
  | .gateFeedbackChange now _ => some now
  | .gateTimerExpiry now => some now
  | .rundownLimitExpiry now => some now
  | .runningContactChange now _ => some now
  | .contactorMismatch now => some now
  | .gateMismatch now => some now
  | .barrierFeedbackChange now _ _ => some now
  | .travelTimerExpiry now _ => some now
  | .travelExhausted now _ => some now
  | .damperWaitExpiry now _ => some now
  | .sirenFeedbackChange now _ _ => some now
  | .sirenFault now _ => some now
  | .cadenceLevelChange now => some now
  | .resoundTimerExpiry now => some now
  | .allClearEnd now _ => some now
  | .supplySample now _ => some now
  | .status now _ => some now
  | .zones now _ => some now
  | .peer now _ => some now
  | .valve now _ => some now
  | .barriers now _ => some now
  | .sirens now _ => some now
  | .fan now _ => some now
  | .counters now _ => some now
  | .takeRecord now _ => some now
  | .takeRecordComplete now => some now
  | .unknown now _ _ => some now
  | .lineIdle now _ => some now
  | .checkError now _ _ _ => some now
  | .instantAged now => some now

end Sys2Proof

namespace Sys2Proof.Machine

/-- Table 1.1, R82, R101, R120, R137: the level of a driven output, by its role. -/
def State.drivenOutput (s : State) (o : Output) : Bool :=
  match s.role o with
  | .none => false
  | .valve .. => (s.valve o).state.on
  | .fanContactor => s.extraction.phase.contactorOn
  | .abortGate => s.extraction.phase.gateOn
  | .magnet .. => s.barrierOn o
  | .shutter .. => s.barrierOn o
  | .damper .. => s.barrierOn o
  | .siren .. => (s.siren o).driven

/-! ## Invariants -/

/-- R152: nothing is sent before LISTEN has run out, and nothing in CONFIG_FAULT: the in-transmission place of a line
holds something only with permission to transmit. -/
def State.quietLines (s : State) : Prop :=
  (s.lineA.place.isSome = true → s.permitted = true) ∧ (s.lineB.place.isSome = true → s.permitted = true)

/-- R159: the event record is a ring of up to 64 entries. -/
def State.recordFits (s : State) : Prop := s.record.entries.length ≤ Config.recordPlaces

/-- R83, R85, R86: a release schedule holds up to eight windows. -/
def State.schedulesFit (s : State) : Prop := ∀ o : Output, s.valves[o].schedule.length ≤ Config.windows

/-- R149: an instant that is not aged and lies within 2^29 ms of now, so that a comparison with its like is one of their
order in time. -/
def Instant.near (now : Time) (i : Instant) : Prop := i.aged = none ∧ (i.reading - now).toInt.natAbs < 2 ^ 29

/-- R149: every window of the release schedules lies near now. -/
def State.schedulesNear (s : State) (now : Time) : Prop :=
  ∀ o : Output, ∀ w ∈ s.valves[o].schedule, w.opens.near now ∧ w.closes.near now

/-- R83, R85: a list of windows in open order, each closing after its open, and each opening more than g after the one
before it has closed. -/
def inSchedule (g : Nat) (ws : List Window) : Prop :=
  (∀ w ∈ ws, w.closes.later w.opens = true) ∧
    ws.Pairwise fun v w => w.opens.later v.opens = true ∧ w.opens.later (v.closes.after g) = true

/-- R83, R85: every release schedule is in order with the station's merge gap. -/
def State.schedulesInOrder (s : State) : Prop :=
  ∀ o : Output, inSchedule s.setup.valves.gap s.valves[o].schedule

/-- R85: a window that spans another. -/
def Window.covers (v w : Window) : Prop := v.opens.later w.opens = false ∧ w.closes.later v.closes = false

/-- R153, Tables 4.2, 4.3 and 5.1: the release parameters in their ranges. -/
structure Setup.releaseRanges (u : Setup) : Prop where
  spread : u.timing.spread ≤ 50
  lead : u.timing.lead ≤ 1000
  hold : u.timing.hold ≤ 2000
  floor : 20 ≤ u.timing.floor ∧ u.timing.floor ≤ 400
  floodHold : 1000 ≤ u.timing.floodHold ∧ u.timing.floodHold ≤ 30000
  gap : 100 ≤ u.valves.gap ∧ u.valves.gap ≤ 1000
  reach : ∀ (o : Output) (e : Branch) (pe reach : Nat), u.outputs[o] = .valve e pe reach → 10 ≤ reach ∧ reach ≤ 2000

/-- R149: the command at the front of the queue comes while every window, and the instant that it hands to release timing,
lie near the clock, so that comparisons give their order in time. -/
def State.commandNear (s : State) : Prop :=
  ∀ c ∈ s.pending.head?, ∀ now, c.clockOf = some now → s.schedulesNear now ∧
    (∀ l rx, c = .sparkNotice now l rx → (((s.line l).receiveStart rx.start) - now).toInt.natAbs < 2 ^ 28) ∧
    ∀ channel width pulse, c = .sensorPulseEnd now channel width → (s.channel channel).pulse = some pulse →
      (pulse - now).toInt.natAbs < 2 ^ 28

/-- R7: the consecutive TX error count is 0 to 16. -/
def State.errorsFit (s : State) : Prop :=
  s.lineA.consecutive ≤ Config.txErrorLimit ∧ s.lineB.consecutive ≤ Config.txErrorLimit

/-- R128: a closing queue in order: first the entries that hold kept travel, then the others by rank, lowest first. -/
def State.queueInOrder (s : State) (b : Barriers) : Prop :=
  b.queue.Pairwise fun o p =>
    b.units[o].kept.isSome = true ∨ (b.units[p].kept = none ∧ (s.role o).rank ≤ (s.role p).rank)

/-- R123, R128, R129: the motor barriers, the closing queue and the running motor: a motor barrier is CLOSING exactly
while its motor runs and QUEUED exactly while it stands in the queue, the queue stands in order, at most one motor runs, a
motor that runs has travel to run, none runs while the supply is LOW, and before OPERATING every barrier is UNARMED. -/
structure State.motorsInTurn (s : State) : Prop where
  closing : ∀ o : Output, (s.role o).isMotor = true → ((s.barrier o).state = .closing ↔ s.barriers.running = some o)
  motor : ∀ o : Output, s.barriers.running = some o → (s.role o).isMotor = true
  supply : s.supply.low = true → s.barriers.running = none
  queued : ∀ o : Output, o ∈ s.barriers.queue ↔ ((s.role o).isMotor = true ∧ (s.barrier o).state = .queued)
  once : s.barriers.queue.Nodup
  unarmed : s.operating = false →
    (∀ o : Output, (s.barrier o).state = .unarmed) ∧ s.barriers.queue = [] ∧ s.barriers.running = none
  order : s.queueInOrder s.barriers
  run : ∀ o : Output, s.barriers.running = some o → (s.barrier o).run.isSome = true

/-- R99, R107, R123, R154: before OPERATING every controller stands so that its outputs are off. -/
structure State.outputsWait (s : State) : Prop where
  fan : s.extraction.phase = .standby
  valve : ∀ o : Output, s.valves[o].state = .idle ∧ s.valves[o].confirmTimer = none
  barrier : ∀ o : Output, (s.barrier o).state = .unarmed
  queue : s.barriers.queue = [] ∧ s.barriers.running = none
  siren : ∀ o : Output, s.sirens.units[o].driven = false

/-- R39: every debounced state is inactive. -/
def Inputs.inactive (i : Inputs) : Bool :=
  !i.call.state && !i.silence.state && !i.reset.state && !i.start.state && !i.stop.state && !i.heat.state &&
    i.feedback.toList.all fun f => !f.input.state

/-- R150, R152: a line before LISTEN: its receive stage and its counters work, the rest stands at power-on. -/
def LineInterface.before (x : LineInterface) : LineInterface :=
  { LineInterface.powerOn with stage := x.stage, counters := x.counters }

/-- R150, R152: what a station holds in LOAD and in CONFIG_FAULT: every block at its power-on values, but for the
clock, the start sequencer, the receive stages and line counters, the pins, the graded supply, the event record and the
maintenance port. -/
def State.before (s : State) : State :=
  { State.reset with
    clock := s.clock
    agings := s.agings
    start := s.start
    lineA := s.lineA.before
    lineB := s.lineB.before
    inputs := s.inputs
    supply := { State.reset.supply with level := s.supply.level, next := s.supply.next }
    record := s.record
    port := s.port
    pending := s.pending }

/-- R150, R152: in LOAD and in CONFIG_FAULT every block holds its power-on values and no input is debounced. -/
def State.inert (s : State) : Prop := s.started = false → s = s.before ∧ s.inputs.inactive = true

/-- R24, R27: an entry that is not PRESENT is state-unknown and holds no call override. -/
def Peer.settled (p : Peer) : Prop := p.presence = .present ∨ (p.known = false ∧ p.override = none)

/-- R29, R30, R32, R33, R36, R38, R62, R95, R113: what the station derives from its peers and inputs agrees with them: the
own level with its sources, the live levels with the contributions, the latches with the live levels at FIRE and above, the
fan views with their candidates, the flood states with the views, the unserved field with the channels, and the conditions
of the extraction controller with the zone picture and the valve trouble it reads. -/
structure State.pictureStands (s : State) : Prop where
  peers : ∀ k : Station, (s.peers[k]).settled
  own : s.own.level = s.composedLevel
  live : s.zones.live = s.liveLevels
  latched : ∀ z : Zone, (s.zones.live[z]).atLeast .fire = true → (s.zones.latched[z]).atLeast s.zones.live[z] = true
  views : s.views = tabulate s.chosenView
  flood : s.flood = tabulate s.inFlood
  unserved : s.sensing.unserved = s.anyUnserved
  conditions : s.extraction.conditions = s.conditionsNow

/-- R17: with permission to transmit, the most recent fill of the STATE slots carries every reported field as it stands. -/
def State.reportStands (s : State) : Prop := s.permitted = true → s.assembler.last = some s.reported

/-- R124: while the station is OPERATING, a barrier whose release condition holds is not HELD. -/
def State.barriersFollow (s : State) : Prop :=
  s.operating = true → ∀ o : Output, (s.role o).isBarrier = true → (s.barrier o).state = .held → s.releaseHolds o = false

/-- R140 to R143, R145: while the station is OPERATING, the claims list of a siren output answers the zone levels of the
zones it covers, an EVACUATE claim is not silenced, an ALL_CLEAR claim stands alone, and the output sounds the pattern
that its list gives: it is on with STEADY and off with none. -/
structure State.sirenAnswers (s : State) (o : Output) : Prop where
  levels : ∀ c ∈ s.sirens.units[o].claims,
    hasZone (s.role o).covered c.zone = true ∧ c.level = s.zoneLevel c.zone ∧ c.level.atLeast .storm = true
  claimed : ∀ z : Zone, hasZone (s.role o).covered z = true → (s.zoneLevel z).atLeast .storm = true →
    ∃ c ∈ s.sirens.units[o].claims, c.zone = z
  order : s.sirens.units[o].claims.Pairwise fun c d => c.level.atLeast d.level = true
  heard : ∀ c ∈ s.sirens.units[o].claims, c.level = .evacuate → c.silenced = false
  alone : s.sirens.units[o].allClear.isSome = true → s.sirens.units[o].claims = []
  pattern : s.sirens.units[o].pattern = s.sirens.units[o].chosen
  steady : s.sirens.units[o].pattern = .steady → s.sirens.units[o].driven = true
  silent : s.sirens.units[o].pattern = .none → s.sirens.units[o].driven = false

/-- R140 to R145: every siren output answers its zones while the station is OPERATING; before that its claims list is
empty, it sounds nothing and it is off (R137). -/
structure State.sirensAnswer (s : State) : Prop where
  answer : s.operating = true → ∀ o : Output, (s.role o).isSiren = true → s.sirenAnswers o
  wait : s.operating = false → ∀ o : Output, s.sirens.units[o].claims = [] ∧ s.sirens.units[o].allClear = none ∧
    s.sirens.units[o].pattern = .none ∧ s.sirens.units[o].driven = false

/-- R24: no entry of the peer table is the station's own, and there is none for station 0. -/
def State.noOwnEntry (s : State) : Prop :=
  s.peers[(0 : Station)] = .powerOn ∧ (s.started = true → s.peers[s.setup.number] = .powerOn)

/-! ## What an event's consequences leave alone -/

def LineInterface.apart (x : LineInterface) : LineInterface := { x with slots := { x.slots with state := none } }

/-- The state with everything blanked that the consequences of an event may write: the own level, the zone picture, the
fan views, the flood states, the STATE slots, the valves, the extraction, barrier and siren controllers, the event record
and the attention flags. Two states with the same apart agree on everything else: the clock, the start sequencer, the
configuration, both lines but for their STATE slots, the peer table, the inputs, the press counts, the escalation latch
and watch hold, the spark channels, the supply monitor, the port and the queue of commands. -/
def State.apart (s : State) : State :=
  { s with
    own := { s.own with level := .quiet }
    zones := State.reset.zones
    views := State.reset.views
    flood := State.reset.flood
    lineA := s.lineA.apart
    lineB := s.lineB.apart
    assembler := State.reset.assembler
    valves := State.reset.valves
    extraction := .powerOn
    barriers := State.reset.barriers
    sirens := State.reset.sirens
    record := State.reset.record
    flags := 0 }

/-- The extraction controller with everything blanked that a cause or a change of phase may write. -/
def Extraction.apart (e : Extraction) : Extraction :=
  { e with
    phase := .standby, causes := 0, first := none, conditions := ⟨false, false, false⟩, timer := none, stopCount := 0
    mode := .off, window := none, lastStart := none, nextStart := none
    contactor := ⟨none, false⟩, gate := ⟨none, false⟩ }

/-- R115: the phases that causes may lead to. -/
def FanPhase.caused (p q : FanPhase) : Bool :=
  p == q || ((p == .starting || p == .running) && (q == .diverting || q == .rundown))

/-! ## Orders used by whole-machine rules -/

/-- R41 to R43: the command is one by which a RESET is taken: a press, or a KEY notice from a peer with a RESET count that
the peer's entry does not hold. -/
def State.takesReset (s : State) (c : Instr) : Prop :=
  s.started = true ∧ ((∃ now, c = .resetPress now) ∨
    ∃ (now : Time) (l : Line) (rx : Received) (k : Station) (count : Byte), c = .keyNotice now l rx ∧
      (s.line l).stage ≠ .busy ∧ (s.line l).place = none ∧ crc (covered classKey rx.sender rx.payload) = rx.check ∧
      rx.payload = [octet KeyKind.reset.code, count] ∧ rx.sender.toNat = k.val ∧ k ≠ 0 ∧ k ≠ s.setup.number ∧
      (s.peers[k]).reset ≠ some count)

/-- R44, R116: the command is a START that is accepted: a press at a fan station that is OPERATING, in STANDBY or STOPPED
with no condition standing. -/
def State.acceptsStart (s : State) (c : Instr) : Prop :=
  (∃ now, c = .startPress now) ∧ s.operating = true ∧ s.hasFan = true ∧
    (s.extraction.phase = .standby ∨ s.extraction.phase = .stopped) ∧ s.extraction.conditions = ⟨false, false, false⟩

/-- R161: every flag of m is in n. -/
def flagsWithin (m n : BitVec 16) : Prop := m &&& n = m

/-- R115: every cause of m is in n. -/
def causesWithin (m n : BitVec 7) : Prop := m &&& n = m

/-- R159: the entries filed between s and t, in the order of filing, include f; a full record may have discarded it
since. -/
def State.filed (s t : State) (f : Filing) : Prop :=
  ∃ before later, t.record = s.record.fileAll t.clock (before ++ f :: later)

/-- R33: no latched level has fallen. -/
def latchesHold (old new : Vector Level 16) : Prop := ∀ z : Zone, (old[z]).code ≤ (new[z]).code

/-! ## Flood, causes and phases -/

/-- R95: the flood state of a duct system that t's views give with the own fan in a phase. -/
def State.floodIn (t : State) (d : System) (p : FanPhase) : Bool :=
  ({ t with extraction := { t.extraction with phase := p } } : State).inFlood d

/-- The values, in turn, to which a flood state changes when it takes the values of a list. -/
def turns : Bool → List Bool → List Bool
  | _, [] => []
  | b, c :: cs => if c = b then turns c cs else c :: turns c cs

/-- R94, R95: the flood state of the valve's duct system is judged in these phases of the own fan, and at a change of it
the open-time watch has reached the cut-off that the new flood state applies. -/
def State.floodCuts (u t : State) (phases : List FanPhase) (o : Output) : Prop :=
  (u.role o).isValve = true ∧
    ∃ flood ∈ turns u.flood[u.valveSystem o] (phases.map (t.floodIn (u.valveSystem o))),
      u.valves[o].overtime u.clock (u.setup.cutOffSeconds flood) = true

/-- R94: the valve of u is cut off in t, with its fault, counter, record and attention flag. -/
def State.cutsOff (u t : State) (o : Output) : Prop :=
  t.valves[o] = u.valves[o].forceOff u.clock u.setup.valves.confirm (u.feedback o) ∧
    t.flagged .valveTrouble = true ∧ u.filed t ⟨.cutOff, octet o.val, sat16 (u.valves[o].openTime u.clock / 1000)⟩

/-- R94, R95: what the judgement of the flood states in these phases comes to: they are those that the views give, and a
valve is cut off at a change to a flood state whose cut-off its watch has reached, and stands otherwise. -/
structure State.floodTurns (u t : State) (phases : List FanPhase) : Prop where
  flood : t.flood = tabulate t.inFlood
  cut : ∀ o : Output, u.floodCuts t phases o → u.cutsOff t o
  stands : ∀ o : Output, ¬u.floodCuts t phases o → t.valves[o] = u.valves[o]

/-- R110: the phases that the own fan passes when causes take it from p to q. -/
def FanPhase.passed (p q : FanPhase) : List FanPhase :=
  if p = q then [p] else if q = .rundown then [p, .diverting, .rundown] else [p, q]

/-- R166: the value of a FAN_PHASE record. -/
def phaseRecordValue (e : Extraction) (causes : BitVec 7) : Count :=
  BitVec.ofNat 16 (firstCauseCode e.first * 4096 + bitAt e.gateFail 9 + bitAt e.rundownSlow 8 + causes.toNat)

/-- R104: how a mode governs the next window: e is the extraction controller before, with that mode, and f after. A window in
progress runs on, and the next one is left to its completion. With none in progress OFF starts none, CONTINUOUS starts one
at once, and PERIODIC starts one 2000 ms after the start of the most recent window, at once if that has passed. -/
structure Extraction.governs (now : Time) (m : SamplerMode) (e f : Extraction) : Prop where
  runsOn : ∀ w, e.window = some w → f.window = some w ∧ f.lastStart = e.lastStart ∧ f.nextStart = none
  off : e.window = none → m = .off → f.window = none ∧ f.lastStart = e.lastStart ∧ f.nextStart = none
  waits : ∀ i, e.window = none → m = .periodic → e.lastStart = some i → i.elapsed now < 2000 →
    f.window = none ∧ f.lastStart = some i ∧ f.nextStart = some (after i.reading 2000)
  starts : e.window = none → (m = .continuous ∨ (m = .periodic ∧ ∀ i, e.lastStart = some i → 2000 ≤ i.elapsed now)) →
    f.window = some ⟨now, 0⟩ ∧ f.lastStart = some ⟨now, none⟩ ∧ f.nextStart = none

/-- R104: the sampler takes the mode that holds, and a mode that differs from the one before governs the next window. -/
structure Extraction.takesMode (now : Time) (m : SamplerMode) (e f : Extraction) : Prop where
  taken : f.mode = m
  same : m = e.mode → f.window = e.window ∧ f.lastStart = e.lastStart ∧ f.nextStart = e.nextStart
  new : m ≠ e.mode → e.governs now m f

/-- R107: what a change of phase brings, besides what the phase itself sets: u has the new phase with its timer and counts,
t is after. Its FAN_PHASE record is filed, the mismatches are judged again (R102), the sampler takes the mode that then
holds (R104), and the flood states are judged with the new phase (R95), which may cut a valve (R94). -/
structure State.phaseEntered (u t : State) : Prop where
  frame : t = { u with
    extraction := { u.extraction with
      contactor := t.extraction.contactor
      gate := t.extraction.gate
      mode := t.extraction.mode
      window := t.extraction.window
      lastStart := t.extraction.lastStart
      nextStart := t.extraction.nextStart }
    flood := t.flood, valves := t.valves, record := t.record, flags := t.flags }
  record : ∃ fs,
    (∀ f ∈ fs, ∃ o : Output, u.floodCuts t [u.extraction.phase] o ∧
      f = ⟨.cutOff, octet o.val, sat16 (u.valves[o].openTime u.clock / 1000)⟩) ∧
    t.record = u.record.fileAll u.clock
      (⟨.fanPhase, octet u.extraction.phase.code, phaseRecordValue u.extraction u.extraction.causes⟩ :: fs)
  contactor : t.extraction.contactor =
    if u.operating && u.hasFan then
      u.extraction.contactor.judge u.clock 2000 u.extraction.phase.contactorOn (u.feedbackOf u.contactorOutput)
    else u.extraction.contactor
  gate : t.extraction.gate =
    if u.operating && u.hasFan then
      u.extraction.gate.judge u.clock u.setup.extraction.gateTime u.extraction.phase.gateOn (u.feedbackOf u.gateOutput)
    else u.extraction.gate
  sampler : u.extraction.takesMode u.clock u.samplerMode t.extraction
  flood : u.floodTurns t [u.extraction.phase]
  flags : ∀ a : Attention, t.flagged a = true ↔
    u.flagged a = true ∨ (a = .valveTrouble ∧ ∃ o : Output, u.floodCuts t [u.extraction.phase] o)

/-- What an event does to the flood states, the valves and the extraction controller, when it brings these event causes:
u is before and t after. The flood states are judged with the views as they now are and again at each change of phase
(R95). The conditions that come to stand are causes together with those of the event (R113, R115); in STARTING and RUNNING
they bring DIVERTING, and RUNDOWN at once with the gate feedback active (R110). Each phase entered files its FAN_PHASE
record (R107), starts its timer (R110, R111) and has the mismatches judged again (R102); the sampler takes the mode that
then holds (R104). A valve cut off by a phase entered may bring the condition VALVE_TROUBLE, which is then one more cause: c
is the conditions before that. -/
structure State.fanSettles (u t : State) (event : List Cause) : Prop where
  flood : u.floodTurns t (u.extraction.phase.passed t.extraction.phase)
  apart : t.extraction.apart = u.extraction.apart
  conditions : t.extraction.conditions = t.conditionsNow
  causes : ∃ c : Conditions, c.fire = t.extraction.conditions.fire ∧ c.storm = t.extraction.conditions.storm ∧
    (c.valveTrouble = true → t.extraction.conditions.valveTrouble = true) ∧
    (t.extraction.phase = u.extraction.phase → c = t.extraction.conditions) ∧
    let arisen := u.extraction.conditions.arisen c ++ event
    t.extraction.causes = (if u.extraction.phase = .standby then u.extraction.causes
      else addCauses u.extraction.causes (arisen ++ c.arisen t.extraction.conditions)) ∧
    t.extraction.phase = (if (u.extraction.phase = .starting ∨ u.extraction.phase = .running) ∧ arisen ≠ [] then
        if u.feedbackOf u.gateOutput then .rundown else .diverting
      else u.extraction.phase) ∧
    (t.extraction.phase ≠ u.extraction.phase →
      t.extraction.first = arisen.head? ∧
      u.filed t ⟨.fanPhase, 3, phaseRecordValue t.extraction (addCauses u.extraction.causes arisen)⟩ ∧
      (t.extraction.phase = .rundown →
        u.filed t ⟨.fanPhase, 4, phaseRecordValue t.extraction (addCauses u.extraction.causes arisen)⟩))
  still : t.extraction.phase = u.extraction.phase →
    t.extraction.first = u.extraction.first ∧ t.extraction.timer = u.extraction.timer ∧
      t.extraction.stopCount = u.extraction.stopCount ∧ t.extraction.contactor = u.extraction.contactor ∧
      t.extraction.gate = u.extraction.gate
  timer : t.extraction.phase ≠ u.extraction.phase →
    (t.extraction.phase = .diverting →
      t.extraction.timer = some (after u.clock u.setup.extraction.gateTime) ∧
        t.extraction.stopCount = u.extraction.stopCount) ∧
    (t.extraction.phase = .rundown →
      t.extraction.timer = some (after u.clock (u.setup.extraction.rundownLimit * 1000)) ∧ t.extraction.stopCount = 0)
  mismatches : t.extraction.phase ≠ u.extraction.phase →
    let judged (time : Nat) (feedback : Bool) (outputs : List Bool) (m : Mismatch) : Mismatch :=
      if u.operating && u.hasFan then outputs.foldl (fun m on => m.judge u.clock time on feedback) m else m
    let outputs := if t.extraction.phase = .rundown then [true, false] else [true]
    t.extraction.contactor = judged 2000 (u.feedbackOf u.contactorOutput) outputs u.extraction.contactor ∧
      t.extraction.gate = judged u.setup.extraction.gateTime (u.feedbackOf u.gateOutput) [true] u.extraction.gate
  sampler : u.extraction.takesMode u.clock t.samplerMode t.extraction

/-! ## Barriers and sirens -/

/-- R124: the release condition of a barrier of u that is HELD holds in t, while the station is OPERATING. -/
def State.releaseDue (u t : State) (o : Output) : Bool :=
  t.operating && (t.role o).isBarrier && (u.barrier o).state == .held && t.releaseHolds o

/-- R124, R125, R127, R128: b is the barrier controller of u with every barrier released that t's zone picture releases, and
before the queue is considered. The motor barriers released with an inactive feedback join the queue at the places that
its order gives them, and no two entries that stood in it change places. -/
structure State.barriersReleased (u t : State) (b : Barriers) : Prop where
  units : ∀ o : Output, b.units[o] =
    if u.releaseDue t o then
      if u.feedback o then { u.barrier o with
        state := .closed, released := some ⟨u.clock, none⟩, travelTimer := none, run := none, kept := none, wait := .idle }
      else if (t.role o).isMotor then { u.barrier o with
        state := .queued, released := some ⟨u.clock, none⟩, run := none, kept := none, ran := 0, wait := .idle }
      else { u.barrier o with
        state := .closing, released := some ⟨u.clock, none⟩, travelTimer := some (after u.clock (t.role o).travelMs) }
    else u.barrier o
  running : b.running = u.barriers.running
  joined : b.queue.Perm (u.barriers.queue ++
    (indexes 4).filter fun o => u.releaseDue t o && !u.feedback o && (t.role o).isMotor)
  stays : u.barriers.queue.Sublist b.queue
  order : u.motorsInTurn → t.queueInOrder b

/-- R130: an entry may run by the barrier controller b, with t's views and zone picture. -/
def State.mayRunIn (t : State) (b : Barriers) (o : Output) : Bool := ({ t with barriers := b } : State).mayRun o

/-- R131: the wait of a damper of the queue starts: it is idle, the damper is not permitted, and every entry before it is
permitted, or becomes so at this instant, as a wait of 0 starts and expires at once. -/
def State.waitStarts (t : State) (b : Barriers) (o : Output) : Prop :=
  ∃ before behind, b.queue = before ++ o :: behind ∧ t.mayRunIn b o = false ∧ b.units[o].wait = .idle ∧
    ∀ p ∈ before, t.mayRunIn b p = true ∨ (t.setup.damperWait = 0 ∧ b.units[p].wait = .idle)

/-- R129, R131: what considering the closing queue comes to: b is the barrier controller before, and t the state after. The
waits that are to start are started. With no motor running and LOW clear, the run goes to the first entry that may run: it
leaves the queue and becomes CLOSING for its kept travel, as the same attempt, or for its travel time, as one attempt more.
Otherwise nothing runs that did not, and every barrier stands but for its wait. -/
structure State.considers (b : Barriers) (t : State) : Prop where
  starts : ∀ o : Output, t.waitStarts b o → (t.barrier o).wait =
    if t.setup.damperWait = 0 then .expired else .running (after t.clock (t.setup.damperWait * 1000))
  waits : ∀ o : Output, ¬t.waitStarts b o → (t.barrier o).wait = b.units[o].wait
  run : ∀ (before behind : List Output) (o : Output), t.operating = true → b.running = none → t.supply.low = false →
    b.queue = before ++ o :: behind → (∀ p ∈ before, t.mayRun p = false) → t.mayRun o = true →
    t.barriers.running = some o ∧ t.barriers.queue = b.queue.filter (fun p => p ≠ o) ∧
      t.barrier o = { b.units[o] with
        state := .closing
        run := some (t.clock, after t.clock (b.units[o].kept.getD (t.role o).travelMs))
        kept := none
        attempts := if b.units[o].kept.isSome then b.units[o].attempts else b.units[o].attempts + 1
        wait := (t.barrier o).wait } ∧
      ∀ p : Output, p ≠ o → t.barrier p = { b.units[p] with wait := (t.barrier p).wait }
  rest : (t.operating = false ∨ b.running ≠ none ∨ t.supply.low = true ∨ ∀ o ∈ b.queue, t.mayRun o = false) →
    t.barriers.running = b.running ∧ t.barriers.queue = b.queue ∧
      ∀ o : Output, t.barrier o = { b.units[o] with wait := (t.barrier o).wait }

/-- What an event does to the barriers: while the station is OPERATING, a HELD barrier whose release condition holds is
released (R124): CLOSED at once with its feedback active, a MAGNET CLOSING on its travel timer (R125), a motor barrier
into the closing queue (R127, R128). No entry leaves the queue but to run, a motor that runs goes on, and afterwards a
motor runs, or the supply is LOW, or no entry of the queue may run (R129). Every other barrier stands. The last clause
says it whole: the releases, and then the queue considered once. -/
structure State.barriersSettle (u t : State) : Prop where
  stand : ∀ o : Output, o ∉ u.barriers.queue →
    (t.operating = false ∨ (t.role o).isBarrier = false ∨ (u.barrier o).state ≠ .held ∨ t.releaseHolds o = false) →
    t.barrier o = u.barrier o
  release : ∀ o : Output, o ∉ u.barriers.queue → t.operating = true → (t.role o).isBarrier = true →
    (u.barrier o).state = .held → t.releaseHolds o = true →
    let b := { u.barrier o with released := some ⟨u.clock, none⟩ }
    (u.feedback o = true →
      t.barrier o = { b with state := .closed, travelTimer := none, run := none, kept := none, wait := .idle } ∧
        u.filed t ⟨.barrierClosed, octet o.val, 0⟩) ∧
    (u.feedback o = false → (t.role o).isMotor = false →
      t.barrier o = { b with state := .closing, travelTimer := some (after u.clock (t.role o).travelMs) }) ∧
    (u.feedback o = false → (t.role o).isMotor = true →
      (t.barrier o).released = some ⟨u.clock, none⟩ ∧
        ((t.barrier o).state = .queued ∧ o ∈ t.barriers.queue ∨
          (t.barrier o).state = .closing ∧ t.barriers.running = some o))
  queue : ∀ o ∈ u.barriers.queue, o ∈ t.barriers.queue ∨ t.barriers.running = some o
  fresh : ∀ o ∈ t.barriers.queue, o ∈ u.barriers.queue ∨ (u.barrier o).state = .held
  waiting : ∀ o ∈ t.barriers.queue, (u.barrier o).state ≠ .held →
    t.barrier o = { u.barrier o with wait := (t.barrier o).wait }
  running : ∀ o : Output, u.barriers.running = some o → t.barriers.running = some o
  started : t.barriers.running ≠ u.barriers.running → t.operating = true ∧ t.supply.low = false
  turn : t.operating = true → t.barriers.running = none → t.supply.low = false →
    ∀ o ∈ t.barriers.queue, t.mayRun o = false
  released : t.barriersFollow
  whole : ∃ b : Barriers, u.barriersReleased t b ∧ t.considers b

/-- R139: the level that a pattern gives a siren output at the clock, from the cadence phases and its ALL_CLEAR claim. -/
def State.patternLevel (s : State) (o : Output) : Pattern → Bool
  | .none => false
  | .allClear => s.sirens.units[o].allClear.any fun i => decide (i.elapsed s.clock < 9000 ∧ i.elapsed s.clock % 3000 < 2000)
  | .slow => s.sirens.slow.any fun x => decide (x.at_ 2000 s.clock < 1000)
  | .fast => s.sirens.fast.any fun x => decide (x.at_ 500 s.clock < 250)
  | .steady => true

/-- R139: some siren output sounds the pattern. -/
def State.sounds (s : State) (p : Pattern) : Bool :=
  (indexes 4).any fun o => s.operating && (s.role o).isSiren && s.sirens.units[o].pattern == p

/-- R147: the phase at which a pulse pattern begins: the phase that the leader's last STATE gives, projected to now, or 0
when the leader is the station itself or there is none. -/
def State.beginsAt (s : State) (leader : Option Station) (cycle : Nat) : Nat :=
  match leader with
  | none => 0
  | some k =>
    if k = s.setup.number then 0
    else match (s.peers[k]).content, (s.peers[k]).received with
      | some c, some i => (c.cadence + i.elapsed s.clock) % cycle
      | _, _ => 0

/-- R139, R147: the phase of a pattern after an event: idle while no output sounds it, running on while one does, and begun
from the leader in force before the consequences when the pattern begins: the leader before the event, or with a STATE
taken and an entry made LOST the leader that this event chose. DESIGN CHOICE (assumption 38). -/
def State.phaseAfter (u t : State) (p : Pattern) (running : Option Cadence) (leader : Option Station) (cycle : Nat) :
    Option Cadence :=
  if t.sounds p then some (running.getD ⟨u.beginsAt leader cycle, u.clock⟩) else none

/-- R138: the absence count of a siren output at now, as it has grown while the output was on without current. -/
def Siren.counted (now : Time) (u : Siren) : Nat :=
  match u.absenceFrom with
  | some start => min 500 (u.absence + (now - start).toNat)
  | none => u.absence

/-- R138: the absence count of a siren output that takes a pattern and a level at now; u is before and t after. It returns
to 0 with no pattern or an active feedback, and otherwise stands as it has grown; it grows on while the output is on, until
its limit has been taken, and holds while the output is off. -/
structure Siren.counts (now : Time) (feedback : Bool) (u t : Siren) : Prop where
  count : t.absence = if t.pattern = .none ∨ feedback = true then 0 else u.counted now
  taken : t.absenceTaken = if t.pattern = .none ∨ feedback = true then false else u.absenceTaken
  grows : t.absenceFrom =
    if t.driven = true ∧ t.pattern ≠ .none ∧ feedback = false ∧ u.absenceTaken = false then some now else none

/-- R138, R139, R142, R146, R147: after a choice of patterns, each siren output of an OPERATING station sounds the pattern that
its claims give, takes that pattern's level and has its absence count go on with them; a phase runs exactly while its pattern is sounded; and the leaders are
those that the reports then give, in LISTEN and SETTLE too. DESIGN CHOICE (assumption 36). -/
structure State.patternsChosen (u t : State) : Prop where
  pattern : t.operating = true → ∀ o : Output, (t.role o).isSiren = true →
    t.sirens.units[o].pattern = t.sirens.units[o].chosen ∧
      t.sirens.units[o].driven = t.patternLevel o t.sirens.units[o].pattern
  counts : t.operating = true → ∀ o : Output, (t.role o).isSiren = true →
    (u.sirens.units[o]).counts t.clock (t.feedback o) t.sirens.units[o]
  slow : t.sirens.slow = u.phaseAfter t .slow u.sirens.slow u.sirens.slowLeader 2000
  fast : t.sirens.fast = u.phaseAfter t .fast u.sirens.fast u.sirens.fastLeader 500
  leaders : t.sirens.slowLeader = t.chosenLeader .slow ∧ t.sirens.fastLeader = t.chosenLeader .fast

/-- R140, R141: the claims list of a siren output after an event: a claim for every covered zone at STORM or above and for
no other, at the zone's level; a claim that is new or whose level has risen counts from now and is not silenced, another
keeps its since-instant and its silenced flag, and an ALL_CLEAR claim stands while there is no zone claim. -/
structure State.claimsFollow (u t : State) (o : Output) : Prop where
  levels : ∀ c ∈ t.sirens.units[o].claims,
    hasZone (t.role o).covered c.zone = true ∧ c.level = t.zoneLevel c.zone ∧ c.level.atLeast .storm = true
  claimed : ∀ z : Zone, hasZone (t.role o).covered z = true → (t.zoneLevel z).atLeast .storm = true →
    ∃ c ∈ t.sirens.units[o].claims, c.zone = z
  since : ∀ c ∈ t.sirens.units[o].claims,
    match u.sirens.units[o].claims.find? fun d => d.zone = c.zone with
    | none => c.since = ⟨u.clock, none⟩
    | some d => c.since = if d.level.code < c.level.code then ⟨u.clock, none⟩ else d.since
  allClear : t.sirens.units[o].claims ≠ [] → t.sirens.units[o].allClear = none

/-- What an event does to the siren outputs (R138 to R142, R146, R147). -/
structure State.sirensSettle (u t : State) : Prop where
  claims : t.operating = true → ∀ o : Output, (t.role o).isSiren = true → u.claimsFollow t o
  silenced : t.operating = true → ∀ o : Output, (t.role o).isSiren = true → ∀ c ∈ t.sirens.units[o].claims,
    match u.sirens.units[o].claims.find? fun d => d.zone = c.zone with
    | none => c.silenced = false
    | some d => c.silenced = (d.silenced && !decide (d.level.code < c.level.code))
  allClear : t.operating = true → ∀ o : Output, (t.role o).isSiren = true → t.sirens.units[o].claims = [] →
    t.sirens.units[o].allClear = u.sirens.units[o].allClear
  seen : t.operating = true → ∀ o : Output, (t.role o).isSiren = true →
    (t.sirens.units[o].fireSeen = true ↔ u.sirens.units[o].fireSeen = true ∨
      ∃ z : Zone, hasZone (t.role o).covered z = true ∧ (u.zones.latched[z]).code < (t.zones.latched[z]).code)
  chosen : u.patternsChosen t
  stand : ∀ o : Output, (t.operating = false ∨ (t.role o).isSiren = false) → t.sirens.units[o] = u.sirens.units[o]
  faults : ∀ o : Output, t.sirens.units[o].fault = u.sirens.units[o].fault
  resound : t.sirens.resound = u.sirens.resound

/-! ## Records, flags and fills that the consequences of an event bring -/

/-- R33: the ZONE_LATCHED records of the latched levels that differ, in zone order. -/
def State.latchRecords (u t : State) : List Filing :=
  (indexes 16).filterMap fun z =>
    if u.zones.latched[z] = t.zones.latched[z] then none
    else some ⟨.zoneLatched, octet z.val, BitVec.ofNat 16 (t.zones.latched[z]).code⟩

/-- R107, R94, R125, R127: the other records that the consequences of an event may bring: FAN_PHASE when the phase changes,
CUT_OFF of a valve that a change of flood state cuts, and BARRIER_CLOSED of a barrier that is released closed. -/
def State.bringsRecord (u t : State) (f : Filing) : Prop :=
  (f.kind = .fanPhase ∧ t.extraction.phase ≠ u.extraction.phase) ∨
  (∃ o : Output, u.floodCuts t (u.extraction.phase.passed t.extraction.phase) o ∧
    f = ⟨.cutOff, octet o.val, sat16 (u.valves[o].openTime u.clock / 1000)⟩) ∨
  ∃ o : Output, u.releaseDue t o = true ∧ u.feedback o = true ∧ f = ⟨.barrierClosed, octet o.val, 0⟩

/-- R107: the FAN_PHASE records of a list are those of the phases that the own fan enters from u to t, in turn. -/
def State.phaseRecords (u t : State) (fs : List Filing) : Prop :=
  (fs.filter fun f => f.kind == .fanPhase).map Filing.subject =
    ((u.extraction.phase.passed t.extraction.phase).tail.map fun p => octet p.code)

/-- R38, R97: the flags that the consequences of an event raise: FAN_FAULT with a view that comes to carry a clash mark, and
VALVE_TROUBLE with a valve that a change of flood state cuts. -/
def State.bringsFlag (u t : State) (a : Attention) : Prop :=
  (a = .fanFault ∧ ∃ d : System, t.views[d].clash = true ∧ u.views[d].clash = false) ∨
  (a = .valveTrouble ∧ ∃ o : Output, u.floodCuts t (u.extraction.phase.passed t.extraction.phase) o)

/-- R17: both STATE slots are filled, and the STATE interval restarts, exactly when a reported field of t differs from the
most recent fill of u and transmission is permitted. -/
structure State.refills (u t : State) : Prop where
  slots : ∀ l : Line, (t.line l).slots.state =
    if t.permitted = true ∧ u.assembler.last ≠ some t.reported then some t.reported else (u.line l).slots.state
  assembler : t.assembler =
    if t.permitted = true ∧ u.assembler.last ≠ some t.reported then ⟨some (after u.clock 250), some t.reported⟩
    else u.assembler

/-! ## What the consequences of an event come to -/

/-- What the consequences of an event come to (R17, R30, R32, R33, R36): u is the state with the event's own effect, event
the causes that it brings (R114), and t the state after the consequences. The levels and views are those that t's own
sources give, no latch has fallen and none rises but to a live level of FIRE or above, each with its record, no flag and no
record comes but for its cause, the fan, the barriers and the sirens act on all this, the STATE slots are filled when a
reported field changes, and what no consequence may write is left alone. DESIGN CHOICE (assumption 7). -/
structure State.settledFrom (u t : State) (event : List Cause := []) : Prop where
  apart : t.apart = u.apart
  own : t.own.level = t.composedLevel
  live : t.zones.live = t.liveLevels
  latched : ∀ z : Zone, t.zones.latched[z] = latchRule t.zones.live[z] u.zones.latched[z]
  views : t.views = tabulate t.chosenView
  flags : ∀ a : Attention, t.flagged a = true ↔ u.flagged a = true ∨ u.bringsFlag t a
  record : ∃ fs, t.record = u.record.fileAll u.clock (u.latchRecords t ++ fs) ∧ (∀ f ∈ fs, u.bringsRecord t f) ∧
    u.phaseRecords t fs
  fan : u.fanSettles t event
  barriers : u.barriersSettle t
  sirens : u.sirensSettle t
  refills : u.refills t
  report : t.reportStands

/-- What a fill that a changed field brings comes to (R17): t is u with, at most, both STATE slots filled and the STATE
interval restarted; nothing is filled while the most recent fill still carries every reported field. -/
structure State.refilledFrom (u t : State) : Prop where
  frame : t = { u with
    lineA := { u.lineA with slots := { u.lineA.slots with state := t.lineA.slots.state } }
    lineB := { u.lineB with slots := { u.lineB.slots with state := t.lineB.slots.state } }
    assembler := t.assembler }
  report : t.reportStands
  filled : t.assembler ≠ u.assembler →
    t.lineA.slots.state = some t.reported ∧ t.lineB.slots.state = some t.reported ∧
      t.assembler = ⟨some (after u.clock Config.stateInterval), some t.reported⟩
  kept : t.assembler = u.assembler → t = u
  unchanged : u.assembler.last = some u.reported → t = u

/-- R22: the LINE_QUIET records of the lines that come to be quiet. -/
def State.quietRecords (s u : State) : List Filing :=
  ([.a, .b] : List Line).flatMap fun l =>
    if u.quietTests l && !(s.line l).quiet then [⟨.lineQuiet, octet (lineCode l), 0⟩] else []

/-- R22, R62: the flags that a change of the peer table raises besides its own: those of the lines that come to be quiet, and
UNSERVED when a channel comes to be unserved. -/
def State.heardFlags (s u : State) : BitVec 16 :=
  (if u.quietTests .a && !s.lineA.quiet then Attention.lineAQuiet.mask else 0) |||
  (if u.quietTests .b && !s.lineB.quiet then Attention.lineBQuiet.mask else 0) |||
  (if u.anyUnserved && !s.sensing.unserved then Attention.unserved.mask else 0)

/-- R76, R86: the records that a report brings at an output: WINDOW_MISSED and SCHEDULE_SATURATED. -/
def State.reportRecords (s : State) (r : Report) (o : Output) : List Filing :=
  match s.role o with
  | .valve e pe reach =>
    (match s.computedFor r e pe reach with
      | .missed late => [⟨.windowMissed, octet o.val, sat16 late⟩]
      | _ => []) ++
    (match (s.valveAfter o r (s.computedFor r e pe reach)).2 with
      | some length => [⟨.scheduleSaturated, octet o.val, sat16 length⟩]
      | none => [])
  | _ => []

/-- R86: the flag that a report raises. -/
def State.reportFlags (s : State) (r : Report) : BitVec 16 :=
  if (indexes 4).any fun o => (s.reportRecords r o).any fun f => f.kind == .scheduleSaturated then
    Attention.scheduleSaturated.mask
  else 0

/-- The zone picture, the fan views, the flood states and every controller of u are those of s. -/
def State.sameControllers (s u : State) : Prop :=
  u.zones = s.zones ∧ u.views = s.views ∧ u.flood = s.flood ∧ u.valves = s.valves ∧ u.extraction = s.extraction ∧
    u.barriers = s.barriers ∧ u.sirens = s.sirens

/-- What a SILENCE taken comes to (R44, R143): u is the state with the press taken. -/
structure State.silencedFrom (u t : State) : Prop where
  apart : t.apart = u.apart
  own : t.own = u.own
  controllers : t.zones = u.zones ∧ t.views = u.views ∧ t.flood = u.flood ∧ t.valves = u.valves ∧
    t.extraction = u.extraction ∧ t.barriers = u.barriers
  record : t.record = u.record ∧ t.flags = u.flags
  silenced : u.operating = true → u.hasSiren = true → ∀ o : Output, (u.role o).isSiren = true →
    t.sirens.units[o].claims =
        u.sirens.units[o].claims.map (fun c => { c with silenced := c.silenced || c.level != .evacuate }) ∧
      t.sirens.units[o].allClear = u.sirens.units[o].allClear ∧ t.sirens.units[o].fault = u.sirens.units[o].fault ∧
      t.sirens.units[o].fireSeen = u.sirens.units[o].fireSeen
  chosen : u.operating = true → u.hasSiren = true → u.patternsChosen t
  resound : u.operating = true → u.hasSiren = true →
    t.sirens.resound = if u.setup.resound = 0 then none else some (after u.clock (u.setup.resound * 1000))
  other : (u.operating = false ∨ u.hasSiren = false) → t.sirens = u.sirens
  refills : u.refills t
  report : t.reportStands

/-- R98: a VALVE output with the sticky faults that RESET leaves. -/
def State.clearedValve (u : State) (o : Output) : Valve :=
  if (u.role o).isValve then
    { u.valves[o] with
      waterFail := false
      cutOff := false
      stuck := u.valves[o].stuck && u.feedback o && !u.valves[o].state.on }
  else u.valves[o]

/-- R145, step 3: the siren output gets an ALL_CLEAR claim: it has seen fire and every zone it covers is QUIET. -/
def State.allClearDue (u t : State) (o : Output) : Prop :=
  (u.role o).isSiren = true ∧ u.sirens.units[o].fireSeen = true ∧
    ∀ z : Zone, hasZone (u.role o).covered z = true → t.zoneLevel z = .quiet

/-- R98, R118: the valves and the extraction controller with what RESET clears of them. -/
def State.resetMarked (u : State) : State :=
  { u with
    valves := tabulate u.clearedValve
    extraction := { u.extraction with
      startFail := false
      rundownSlow := false
      gateFail := u.extraction.gateFail && (u.extraction.phase.gateOn != u.feedbackOf u.gateOutput) } }

/-- What a RESET taken comes to (R35, R43, R54, R98, R118, R135, R145, R161): u is the state with the press taken. In a
state whose picture stands, as R32, R36 and R95 have it at every instant, a RESET changes no view, no flood state and no
phase, cuts no valve and sets no flag. DEDUCED (assumption 15); the patterns are chosen once, at the end: DESIGN CHOICE
(assumption 37). -/
structure State.resetFrom (u t : State) : Prop where
  apart : t.apart = ({ u with
    own := { u.own with escalation := false }
    sensing := { u.sensing with
      escalation :=
        if u.anyStorm = true ∧ u.setup.sensing.escalation ≠ 0 then
          some (after u.clock (u.setup.sensing.escalation * 1000))
        else u.sensing.escalation } } : State).apart
  own : t.own.level = t.composedLevel
  live : t.zones.live = t.liveLevels
  latched : ∀ z : Zone, t.zones.latched[z] = latchRule t.zones.live[z] .quiet
  views : t.views = tabulate t.chosenView
  fan : u.resetMarked.fanSettles t []
  calm : u.pictureStands → t.views = u.views ∧ t.flood = u.flood ∧ t.extraction.phase = u.extraction.phase ∧
    t.extraction.causes = u.extraction.causes ∧ t.extraction.first = u.extraction.first ∧
    (∀ o : Output, t.valves[o] = u.clearedValve o) ∧
    ∀ a : Attention, t.flagged a = (u.flagged a && t.condition a)
  flags : ∀ a : Attention, t.flagged a = true ↔
    t.condition a = true ∧ (u.flagged a = true ∨ u.resetMarked.bringsFlag t a)
  rearmed : ∀ o : Output, (u.role o).isBarrier = true → (u.barrier o).state.rearmed = true → o ∉ u.barriers.queue →
    t.barrier o = if t.releaseHolds o then u.barrier o else
      { u.barrier o with
        state := .held, travelTimer := none, run := none, kept := none, attempts := 0, wait := .idle }
  stand : ∀ o : Output, o ∉ u.barriers.queue →
    ((u.role o).isBarrier = false ∨ (u.barrier o).state = .unarmed ∨ (u.barrier o).state = .closing ∨
      (u.barrier o).state = .held ∧ t.releaseHolds o = false) → t.barrier o = u.barrier o
  waiting : ∀ o : Output, (u.barrier o).state = .queued → o ∈ t.barriers.queue →
    t.barrier o = { u.barrier o with wait := (t.barrier o).wait }
  queue : ∀ o ∈ u.barriers.queue, o ∈ t.barriers.queue ∨ t.barriers.running = some o
  fresh : ∀ o ∈ t.barriers.queue, o ∈ u.barriers.queue ∨ (u.barrier o).state = .held
  running : ∀ o : Output, u.barriers.running = some o → t.barriers.running = some o
  started : t.barriers.running ≠ u.barriers.running → t.operating = true ∧ t.supply.low = false
  released : t.barriersFollow
  barriers : ∃ b c : Barriers, u.barriersReleased t b ∧ ({ t with barriers := c } : State).considers b ∧
    t.barriers = { c with units := tabulate fun o =>
      if (u.role o).isBarrier && c.units[o].state.rearmed && !t.releaseHolds o then { c.units[o] with
        state := .held, travelTimer := none, run := none, kept := none, attempts := 0, wait := .idle }
      else c.units[o] }
  claims : u.operating = true → ∀ o : Output, (u.role o).isSiren = true →
    u.claimsFollow t o ∧ ∀ c ∈ t.sirens.units[o].claims, c.silenced = false
  allClear : u.operating = true → ∀ o : Output, (u.role o).isSiren = true →
    (u.allClearDue t o →
      t.sirens.units[o].allClear = some ⟨u.clock, none⟩ ∧ t.sirens.units[o].fireSeen = false ∧
        u.filed t ⟨.allClear, octet o.val, 0⟩) ∧
    (¬u.allClearDue t o →
      t.sirens.units[o].fireSeen = u.sirens.units[o].fireSeen ∧
        t.sirens.units[o].allClear = if t.sirens.units[o].claims = [] then u.sirens.units[o].allClear else none)
  chosen : u.operating = true → u.patternsChosen t
  faults : ∀ o : Output, t.sirens.units[o].fault = u.sirens.units[o].fault
  others : ∀ o : Output, (u.role o).isSiren = false → t.sirens.units[o] = u.sirens.units[o]
  waits : u.operating = false → t.sirens = u.sirens
  resound : t.sirens.resound = if u.operating then none else u.sirens.resound
  record : ∃ fs, t.record = u.record.fileAll u.clock fs ∧ u.phaseRecords t fs ∧
    ∀ f ∈ fs, u.resetMarked.bringsRecord t f ∨
      ∃ o : Output, u.operating = true ∧ u.allClearDue t o ∧ f = ⟨.allClear, octet o.val, 0⟩
  refills : u.refills t
  report : t.reportStands

/-! ## The configuration image (R151, R153, R164) -/

/-- R164: an item of one octet. -/
def octetAt (image : List Byte) (i : Nat) : Nat := (image.getD i 0).toNat

/-- R164: an item of two octets, high octet first. -/
def wordAt (image : List Byte) (i : Nat) : Nat := octetAt image i * 256 + octetAt image (i + 1)

/-- R151, Table 9.2: the test of a fault kind fails with this offset reported. What the table leaves open is settled by
assumptions 22, 34 and 39. -/
def imageFails (image : List Byte) : FaultKind → Nat → Prop
  | .none => fun _ => False
  | .noImage => fun _ => False
  | .check => fun offset => (crc (image.take 254)).toNat ≠ wordAt image 254 ∧ offset = 254
  | .format => fun offset => octetAt image 0 ≠ 0x2C ∧ offset = 0
  | .stationNumber => fun offset => (octetAt image 1 = 0 ∨ 31 < octetAt image 1) ∧ offset = 1
  | .role => fun offset => ∃ o : Output, offset = 4 + 8 * o.val ∧ 7 < octetAt image (4 + 8 * o.val) ∧
      ∀ p : Output, p < o → octetAt image (4 + 8 * p.val) ≤ 7
  | .fanRole => fun offset =>
      let role (o : Output) : Nat := octetAt image (4 + 8 * o.val)
      let one (code : Nat) : Prop := ∃ o, role o = code ∧ ∀ p, role p = code → p = o
      ¬(one 2 ∧ one 3) ∧ ∃ o : Output, offset = 4 + 8 * o.val ∧ (role o = 2 ∨ role o = 3) ∧
        ∀ p, p < o → role p ≠ 2 ∧ role p ≠ 3
  | .motorBarriers => fun offset =>
      let motor (o : Output) : Prop := octetAt image (4 + 8 * o.val) = 5 ∨ octetAt image (4 + 8 * o.val) = 6
      let rank (o : Output) : Nat := octetAt image (7 + 8 * o.val)
      let offends (o : Output) : Prop := (∀ p, motor p) ∨ (motor o ∧ ∃ p, p ≠ o ∧ motor p ∧ rank p = rank o)
      ∃ o : Output, offset = 4 + 8 * o.val ∧
        ((motor o ∧ 3 < rank o ∧ ∀ p, p < o → motor p → rank p ≤ 3) ∨
          ((∀ p, motor p → rank p ≤ 3) ∧ offends o ∧ ∃ p, p < o ∧ offends p ∧ ∀ q, q < o → offends q → q = p))
  | .branchTable => fun offset =>
      let entry (b : Branch) : Nat := octetAt image (68 + 6 * b.val)
      let system (b : Branch) : Nat := entry b / 16 % 4
      let offends (b : Branch) : Prop := wordAt image (71 + 6 * b.val) ≠ 0 ∧ 128 ≤ entry b ∧
        ∃ p : Branch, p.val = entry b % 16 ∧ (p = b ∨ 128 ≤ entry p ∨ system p ≠ system b)
      ∃ b : Branch, offset = 68 + 6 * b.val ∧ offends b ∧ ∀ c, c < b → ¬offends c
  | .zeroBranch => fun offset =>
      let unusable (b : Nat) : Prop := 15 < b ∨ wordAt image (71 + 6 * b) = 0
      let output (o : Output) : Prop := octetAt image (4 + 8 * o.val) = 1 ∧ unusable (octetAt image (5 + 8 * o.val))
      let channel (c : Channel) : Prop :=
        octetAt image (36 + 8 * c.val) % 2 = 1 ∧ unusable (octetAt image (37 + 8 * c.val))
      (∃ o : Output, offset = 4 + 8 * o.val ∧ output o ∧ ∀ p, p < o → ¬output p) ∨
        ((∀ o, ¬output o) ∧ ∃ c : Channel, offset = 36 + 8 * c.val ∧ channel c ∧ ∀ d, d < c → ¬channel d)

/-- R151: the tests made, in the order of Table 9.2. -/
def imageTests : List FaultKind :=
  [.check, .format, .stationNumber, .role, .fanRole, .motorBarriers, .branchTable, .zeroBranch]

/-- R153: a value outside its range becomes the nearer limit. -/
def within (low high n : Nat) : Nat := if n < low then low else if high < n then high else n

/-- R153: an item of the image with a range: its first octet, its number of octets, its limits, and whether 0 is admitted
below the range. -/
structure ImageRange where
  offset : Nat
  octets : Nat
  low    : Nat
  high   : Nat
  orZero : Bool := false
  deriving DecidableEq, Repr

/-- R153: the value of an item as read. -/
def ImageRange.read (image : List Byte) (r : ImageRange) : Nat :=
  if r.octets = 1 then octetAt image r.offset else wordAt image r.offset

/-- R153: the value of an item that the station uses. -/
def ImageRange.used (image : List Byte) (r : ImageRange) : Nat :=
  if r.orZero = true ∧ r.read image = 0 then 0 else within r.low r.high (r.read image)

/-- R153: the items of the image with a range, in order of offset, with the ranges of the owning chapters (Tables 3.1, 3.2,
4.1, 4.2, 4.3, 5.1, 6.1 and 7.1, R31, R137, R155). DEDUCED (assumption 21). -/
def imageRanges (image : List Byte) : List ImageRange :=
  [⟨2, 1, 0, 15, false⟩, ⟨3, 1, 0, 3, false⟩] ++
  ((indexes 4).flatMap fun o : Output =>
    let i := 8 * o.val
    match octetAt image (4 + i) with
    | 1 =>
      [⟨6 + i, 2, 0, min 4000 (wordAt image (71 + 6 * octetAt image (5 + i))), false⟩, ⟨8 + i, 2, 10, 2000, false⟩]
    | 4 | 5 => [⟨8 + i, 1, 1, 120, false⟩]
    | 6 => [⟨8 + i, 1, 1, 120, false⟩, ⟨9 + i, 1, 0, 3, false⟩]
    | _ => []) ++
  ((indexes 4).flatMap fun c : Channel => [⟨37 + 8 * c.val, 1, 0, 15, false⟩, ⟨38 + 8 * c.val, 2, 0, 4000, false⟩]) ++
  ((indexes 16).flatMap fun b : Branch =>
    (if 128 ≤ octetAt image (68 + 6 * b.val) then [⟨69 + 6 * b.val, 2, 0, 4000, false⟩] else []) ++
    [⟨71 + 6 * b.val, 2, 0, 4000, false⟩, ⟨73 + 6 * b.val, 1, 1, 128, false⟩]) ++
  [⟨164, 1, 0, 50, false⟩, ⟨165, 2, 0, 1000, false⟩, ⟨167, 2, 0, 2000, false⟩, ⟨169, 2, 20, 400, false⟩,
   ⟨171, 2, 1000, 30000, false⟩, ⟨173, 2, 100, 2000, false⟩, ⟨175, 1, 5, 60, false⟩, ⟨176, 2, 30, 300, false⟩,
   ⟨178, 2, 100, 1000, false⟩, ⟨180, 1, 10, 60, false⟩, ⟨181, 1, 2, 200, false⟩,
   ⟨182, 1, 0, within 2 200 (octetAt image 181) - 1, false⟩, ⟨183, 1, 5, 120, true⟩, ⟨184, 1, 1, 255, false⟩,
   ⟨185, 2, 20, 600, false⟩, ⟨187, 1, 0, 100, false⟩, ⟨188, 1, 0, 200, false⟩, ⟨189, 2, 200, 5000, false⟩,
   ⟨191, 2, 10, 300, false⟩, ⟨193, 1, 5, 60, false⟩, ⟨196, 1, 0, 60, false⟩, ⟨197, 2, 60, 900, true⟩,
   ⟨199, 1, 0, 14, false⟩, ⟨200, 1, min 14 (octetAt image 199) + 1, 15, false⟩]

/-- R150, R153, R164, Tables 9.1 and 11.6: what a usable image makes of the station: each item at its offset, clamped to its
range, and the roles that the image gives. -/
structure imageReads (image : List Byte) (u : Setup) : Prop where
  station : u.number.val = octetAt image 1 ∧ u.zone.val = min 15 (octetAt image 2) ∧ u.system.val = min 3 (octetAt image 3)
  sense : u.roles.sense = true ↔ ∃ c : Channel, octetAt image (36 + 8 * c.val) % 2 = 1
  valve : u.roles.valve = true ↔ ∃ o : Output, octetAt image (4 + 8 * o.val) = 1
  barrier : u.roles.barrier = true ↔
    ∃ o : Output, octetAt image (4 + 8 * o.val) = 4 ∨ octetAt image (4 + 8 * o.val) = 5 ∨ octetAt image (4 + 8 * o.val) = 6
  siren : u.roles.siren = true ↔ ∃ o : Output, octetAt image (4 + 8 * o.val) = 7
  fan : u.roles.fan = true ↔
    (∃ o : Output, octetAt image (4 + 8 * o.val) = 2) ∧ ∃ o : Output, octetAt image (4 + 8 * o.val) = 3
  outputs : ∀ o : Output,
    let i := 8 * o.val
    let zones : ZoneSet := BitVec.ofNat 16 (wordAt image (5 + i))
    let rank := octetAt image (7 + i)
    let travel := within 1 120 (octetAt image (8 + i))
    u.outputs[o] = match octetAt image (4 + i) with
      | 1 => .valve (Fin.ofNat 16 (octetAt image (5 + i)))
          (min (min 4000 (wordAt image (71 + 6 * octetAt image (5 + i)))) (wordAt image (6 + i)))
          (within 10 2000 (wordAt image (8 + i)))
      | 2 => .fanContactor
      | 3 => .abortGate
      | 4 => .magnet zones travel
      | 5 => .shutter zones rank travel
      | 6 => .damper zones rank travel (Fin.ofNat 4 (min 3 (octetAt image (9 + i))))
      | 7 => .siren zones
      | _ => .none
  channels : ∀ c : Channel,
    let i := 8 * c.val
    u.channels[c] =
      { enabled := octetAt image (36 + i) % 2 == 1
        branch := Fin.ofNat 16 (min 15 (octetAt image (37 + i)))
        position := min 4000 (wordAt image (38 + i))
        serving := BitVec.ofNat 32 (wordAt image (40 + i) * 65536 + wordAt image (42 + i)) }
  branches : ∀ b : Branch,
    let i := 6 * b.val
    let entry := octetAt image (68 + i)
    u.branches[b] =
      { system := Fin.ofNat 4 (entry / 16 % 4)
        parent := if 128 ≤ entry then some (Fin.ofNat 16 (entry % 16)) else none
        join := if 128 ≤ entry then min 4000 (wordAt image (69 + i)) else 0
        length := min 4000 (wordAt image (71 + i))
        factor := within 1 128 (octetAt image (73 + i)) }
  timing : u.timing =
    { spread := min 50 (octetAt image 164)
      lead := min 1000 (wordAt image 165)
      hold := min 2000 (wordAt image 167)
      floor := within 20 400 (wordAt image 169)
      floodHold := within 1000 30000 (wordAt image 171) }
  valves : u.valves =
    { confirm := within 100 2000 (wordAt image 173)
      cutOff := within 5 60 (octetAt image 175)
      floodCutOff := within 30 300 (wordAt image 176)
      gap := within 100 1000 (wordAt image 178) }
  sensing : u.sensing =
    { testInterval := within 10 60 (octetAt image 180)
      stormOn := within 2 200 (octetAt image 181)
      stormOff := min (within 2 200 (octetAt image 181) - 1) (octetAt image 182)
      escalation := if octetAt image 183 = 0 then 0 else within 5 120 (octetAt image 183) }
  extraction : u.extraction =
    { scale := within 1 255 (octetAt image 184)
      floor := within 20 600 (wordAt image 185)
      hysteresis := min 100 (octetAt image 187)
      stop := min 200 (octetAt image 188)
      gateTime := within 200 5000 (wordAt image 189)
      rundownLimit := within 10 300 (wordAt image 191)
      startGrace := within 5 60 (octetAt image 193)
      zones := BitVec.ofNat 16 (wordAt image 194) }
  damperWait : u.damperWait = min 60 (octetAt image 196)
  resound : u.resound = if wordAt image 197 = 0 then 0 else within 60 900 (wordAt image 197)
  supply : u.supplyLow = min 14 (octetAt image 199) ∧
    u.supplyResume = within (min 14 (octetAt image 199) + 1) 15 (octetAt image 200)
  mask : u.mask = BitVec.ofNat 16 (wordAt image 201)

/-! ## What a millisecond brings (R39, R149) -/

/-- R39: the raw level of an input has stood opposite to its debounced state for 50 ms. -/
def Debounced.held (now : Time) (d : Debounced) : Prop :=
  d.raw ≠ d.state ∧ ∃ since, d.opposite = some since ∧ reached now (after since 50) = true

/-- R39, R82, R101, R120, R137: from the start of SETTLE the feedback of an output has stood at a level opposite to its
debounced state for 50 ms. -/
def State.feedbackHeld (s : State) (o : Output) (active : Bool) : Prop :=
  s.permitted = true ∧ (s.inputs.feedback[o]).input.held s.clock ∧ (s.inputs.feedback[o]).input.raw = active

/-- A running timer has reached its deadline. -/
def runsOut (now : Time) (timer : Option Time) : Prop := ∃ deadline, timer = some deadline ∧ reached now deadline = true

/-- The commands that a millisecond may bring, each with the rule's condition at the clock; the others come from outside.
DESIGN CHOICE (assumptions 2 and 3). -/
def State.brings (s : State) : Instr → Prop
  | .powerOn => False
  | .imageReadFailed _ => s.start.phase = .load ∧ ∃ began, s.start.readBegan = some began ∧
      reached s.clock (after began 100) = true
  | .imageReadRetry _ => s.start.phase = .load ∧ runsOut s.clock s.start.retry
  | .imageReadComplete _ _ => False
  | .listenEnd _ => s.start.phase = .listen ∧ runsOut s.clock s.start.phaseTimer
  | .settleEnd _ => s.start.phase = .settle ∧ runsOut s.clock s.start.phaseTimer
  | .attemptStart _ _ => False
  | .contentionLost _ _ => False
  | .txError _ _ => False
  | .attemptSuccess _ _ => False
  | .probeTimerExpiry _ l => (s.line l).txState = .failed ∧ runsOut s.clock (s.line l).probeTimer
  | .stateRoundHoldClear _ _ => False
  | .stateIntervalExpiry _ => runsOut s.clock s.assembler.interval
  | .receiveFramingError _ _ => False
  | .noticeLengthError _ _ _ => False
  | .callNotice _ _ _ => False
  | .sparkNotice _ _ _ => False
  | .keyNotice _ _ _ => False
  | .stateNotice _ _ _ => False
  | .lineQuiet _ l => s.quietTests l ≠ (s.line l).quiet
  | .peerLost _ k => k ≠ 0 ∧ (s.peers[k]).presence = .present ∧
      ∃ i, latestOf (s.peers[k]).heardA (s.peers[k]).heardB = some i ∧ 1500 ≤ i.elapsed s.clock
  | .singleLine _ k => k ≠ 0 ∧ (s.peers[k]).presence = .present ∧ (s.peers[k]).single = none ∧
      ∃ l i, latestOf (s.peers[k]).since ((s.peers[k]).heard l) = some i ∧ 1500 ≤ i.elapsed s.clock
  | .callPress _ => s.started = true ∧ s.inputs.call.held s.clock ∧ s.inputs.call.raw = true
  | .callRelease _ => s.started = true ∧ s.inputs.call.held s.clock ∧ s.inputs.call.raw = false
  | .heatInputChange _ active => s.started = true ∧ s.inputs.heat.held s.clock ∧ s.inputs.heat.raw = active
  | .silencePress _ => s.started = true ∧ s.inputs.silence.held s.clock ∧ s.inputs.silence.raw = true
  | .resetPress _ => s.started = true ∧ s.inputs.reset.held s.clock ∧ s.inputs.reset.raw = true
  | .startPress _ => s.started = true ∧ s.inputs.start.held s.clock ∧ s.inputs.start.raw = true
  | .stopPress _ => s.started = true ∧ s.inputs.stop.held s.clock ∧ s.inputs.stop.raw = true
  | .sensorPulseStart _ _ => False
  | .sensorPulseEnd _ _ _ => False
  | .blinded _ c => s.permitted = true ∧ s.setup.channels[c].enabled = true ∧ (s.channel c).blinded = false ∧
      ∃ began, (s.channel c).pulse = some began ∧ reached s.clock (after began 250) = true
  | .blindedClear _ c => s.permitted = true ∧ s.setup.channels[c].enabled = true ∧ (s.channel c).blinded = true ∧
      ∃ since, (s.channel c).lowSince = some since ∧ reached s.clock (after since 1000) = true
  | .bucketBoundary _ => s.permitted = true ∧ s.clock.toNat % 1000 = 0 ∧ s.sensing.lastBoundary ≠ some s.clock
  | .escalated _ => runsOut s.clock s.sensing.escalation ∧ ∃ c : Channel, (s.channel c).storm.isSome = true
  | .watchHoldExpiry _ => runsOut s.clock s.own.watchHold
  | .silent _ c => runsOut s.clock (s.channel c).testTimer
  | .windowOpen _ o => (s.role o).isValve = true ∧ s.operating = true ∧ (s.valve o).state = .idle ∧
      ∃ w ∈ (s.valve o).schedule.head?, w.opens.later ⟨s.clock, none⟩ = false
  | .windowClose _ o => (s.role o).isValve = true ∧
      ∃ w ∈ (s.valve o).schedule.head?, w.closes.later ⟨s.clock, none⟩ = false
  | .flowSwitchChange _ o active => (s.role o).isValve = true ∧ s.feedbackHeld o active
  | .confirmTimerExpiry _ o => (s.role o).isValve = true ∧ runsOut s.clock (s.valve o).confirmTimer
  | .cutOff _ o => (s.role o).isValve = true ∧ (s.valve o).state.on = true ∧
      ∃ since, (s.valve o).openSince = some since ∧
        (if s.flood[s.valveSystem o] then s.setup.valves.floodCutOff else s.setup.valves.cutOff) * 1000 ≤
          since.elapsed s.clock
  | .valveStuck _ o => (s.role o).isValve = true ∧ runsOut s.clock (s.valve o).stuckTimer
  | .flowPulse _ => False
  | .sampleComplete _ => ∃ w, s.extraction.window = some w ∧ reached s.clock (after w.start 250) = true
  | .periodicWindowStart _ => s.extraction.mode = .periodic ∧ runsOut s.clock s.extraction.nextStart
  | .startGraceExpiry _ => s.extraction.phase = .starting ∧ runsOut s.clock s.extraction.timer
  | .gateFeedbackChange _ active => ∃ o : Output, s.role o = .abortGate ∧ s.feedbackHeld o active
  | .gateTimerExpiry _ => s.extraction.phase = .diverting ∧ runsOut s.clock s.extraction.timer
  | .rundownLimitExpiry _ => s.extraction.phase = .rundown ∧ runsOut s.clock s.extraction.timer
  | .runningContactChange _ active => ∃ o : Output, s.role o = .fanContactor ∧ s.feedbackHeld o active
  | .contactorMismatch _ => runsOut s.clock s.extraction.contactor.timer
  | .gateMismatch _ => runsOut s.clock s.extraction.gate.timer
  | .barrierFeedbackChange _ o active => (s.role o).isBarrier = true ∧ s.feedbackHeld o active
  | .travelTimerExpiry _ o => (s.role o).isMagnet = true ∧ (s.barrier o).state = .closing ∧
      runsOut s.clock (s.barrier o).travelTimer
  | .travelExhausted _ o => s.barriers.running = some o ∧ runsOut s.clock ((s.barrier o).run.map Prod.snd)
  | .damperWaitExpiry _ o => ∃ deadline, (s.barrier o).wait = .running deadline ∧ reached s.clock deadline = true
  | .sirenFeedbackChange _ o active => (s.role o).isSiren = true ∧ s.feedbackHeld o active
  | .sirenFault _ o => (s.role o).isSiren = true ∧ (s.siren o).absenceTaken = false ∧ 500 ≤ (s.siren o).counted s.clock
  | .cadenceLevelChange _ => s.operating = true ∧
      ∃ o : Output, (s.role o).isSiren = true ∧ s.patternLevel o (s.siren o).pattern ≠ (s.siren o).driven
  | .resoundTimerExpiry _ => runsOut s.clock s.sirens.resound
  | .allClearEnd _ o => (s.role o).isSiren = true ∧ ∃ i, (s.siren o).allClear = some i ∧ 9000 ≤ i.elapsed s.clock
  | .supplySample _ _ => False
  | .status _ _ => False
  | .zones _ _ => False
  | .peer _ _ => False
  | .valve _ _ => False
  | .barriers _ _ => False
  | .sirens _ _ => False
  | .fan _ _ => False
  | .counters _ _ => False
  | .takeRecord _ _ => False
  | .takeRecordComplete _ => False
  | .unknown _ _ _ => False
  | .lineIdle _ _ => False
  | .checkError _ _ _ _ => False
  | .instantAged _ => ∃ i ∈ s.instants, i.aged = none ∧ (2 ^ 30 : Int) ≤ (s.clock - i.reading).toInt

end Sys2Proof.Machine
end

