-- ==== Sys2Proof/Certificates/Slice0/Obligations.lean ====
section
/-! DEFINITION. The statements for the provers, in the order of OBLIGATIONS.json: the step, the start, the line, peers and
keys, the spark channels, the valves, the extraction controller, the barriers, the sirens, the supply and the port, and then
the invariants and the whole-machine rules. A statement about a command ends in the next state that exec answers: either
written out as a record, or as a state t with what it holds and with what it leaves alone. Three predicates of Safety.lean
say the latter for the consequences that many commands share: settledFrom (levels, views and their consumers), refilledFrom
(the STATE slots), and resetFrom with silencedFrom (the two counted keys). -/

open Sys2Proof Sys2Proof.Machine

/-! ## The step -/

/-- The command at the front of the queue is taken, by its meaning, with the rest of the queue; with an empty queue a
millisecond passes: the clock advances, the pins are watched and the commands that are due join the queue. A raw level that
has stood opposite to the debounced state for 50 ms brings the command of its input (R39), but for the release of a press
key, which only sets the debounced state; a deadline reached brings its expiry, and nothing else joins. The tick, and that
the commands due at an instant come with it, are the model's choice (assumptions 2 and 3). -/
def Obligations.StepTakesFrontCommand : Prop :=
  (∀ (c : Instr) (rest : List Instr) (s : State), s.pending = c :: rest → step s = exec c (s.withPending rest)) ∧
  ∀ s : State, s.pending = [] →
    let now := s.clock + 1
    let watched (d : Debounced) : Debounced :=
      { d with opposite := if d.raw = d.state then none else some (d.opposite.getD now) }
    let key (d : Debounced) : Debounced :=
      if d.state = true ∧ d.raw = false ∧ reached now (after (d.opposite.getD now) 50) = true then ⟨false, false, none⟩
      else watched d
    let ticked : State := { s with
      clock := now
      inputs := { s.inputs with
        call := watched s.inputs.call
        heat := watched s.inputs.heat
        silence := key s.inputs.silence
        reset := key s.inputs.reset
        start := key s.inputs.start
        stop := key s.inputs.stop
        feedback := tabulate fun o => { s.inputs.feedback[o] with input := watched (s.inputs.feedback[o]).input } } }
    step s = .next { ticked with pending := ticked.dueCommands } ∧
    ∀ c : Instr, c ∈ ticked.dueCommands ↔ c.clockOf = some now ∧ ticked.brings c

/-- Every command answers a next state, leaves the queue alone, and is taken at its clock reading (POWER_ON at 0): the
model's choice (assumption 1). -/
def Obligations.EveryCommandAnswers : Prop :=
  ∀ (c : Instr) (s : State), ∃ t, exec c s = .next t ∧ t.pending = s.pending ∧ t.clock = c.clockOf.getD 0

/-- The power-on values that the rules state (R2, R7, R9, R11, R13, R17, R24, R32, R33, R36, R39, R41, R53, R79, R83,
R95, R99, R107, R115, R118, R119, R123, R142, R149, R150, R154, R155, R159, R161); the invariants that hold there; and,
which no rule states, an empty queue of commands: that State.reset has no command waiting is the model's choice
(assumption 5). -/
def Obligations.ResetHolds : Prop :=
  State.reset.clock = 0 ∧ State.reset.start.phase = .load ∧ State.reset.start.image = none ∧
  (∀ l : Line, (State.reset.line l).stage = .busy ∧ (State.reset.line l).txState = .ok ∧
    (State.reset.line l).consecutive = 0 ∧ (State.reset.line l).place = none ∧ (State.reset.line l).roundHold = false ∧
    (State.reset.line l).slots = ⟨none, none, none, none, Vector.replicate 4 none⟩ ∧
    (State.reset.line l).counters = ⟨0, 0, 0, 0, 0, 0⟩) ∧
  State.reset.assembler.interval = none ∧
  (∀ k : Station, (State.reset.peers[k]).presence = .absent ∧ (State.reset.peers[k]).known = false ∧
    (State.reset.peers[k]).rejoins = 0) ∧
  (∀ z : Zone, State.reset.zoneLevel z = .quiet) ∧
  (∀ d : System, (State.reset.views[d]).source = none ∧ State.reset.flood[d] = true) ∧
  State.reset.inputs.inactive = true ∧ State.reset.press = ⟨0, 0⟩ ∧ State.reset.own.level = .quiet ∧
  (∀ c : Channel, (State.reset.channel c).storm = none ∧ (State.reset.channel c).flagBits = 0) ∧
  (∀ o : Output, (State.reset.valve o).schedule = [] ∧ (State.reset.valve o).state = .idle ∧
    (State.reset.valve o).trouble = false ∧ (State.reset.barrier o).state = .unarmed ∧
    (State.reset.siren o).pattern = .none ∧ State.reset.drivenOutput o = false) ∧
  State.reset.extraction.phase = .standby ∧ State.reset.extraction.causes = 0 ∧ State.reset.extraction.first = none ∧
  State.reset.supply.level = 0 ∧ State.reset.supply.low = false ∧
  State.reset.record.entries = [] ∧ State.reset.record.dropped = 0 ∧ State.reset.flags = 0 ∧
  State.reset.attn = false ∧ State.reset.pending = [] ∧
  State.reset.quietLines ∧ State.reset.motorsInTurn ∧ State.reset.pictureStands ∧ State.reset.sirensAnswer ∧
  State.reset.barriersFollow ∧ State.reset.reportStands ∧ State.reset.outputsWait ∧ State.reset.inert ∧
  State.reset.recordFits ∧ State.reset.schedulesFit ∧ State.reset.errorsFit ∧ State.reset.noOwnEntry

/-! ## Start -/

/-- POWER_ON (R149, R150, R155): every item takes its power-on value. The pins and the waiting commands are the outside's:
their levels stand (assumption 8); every debounced state is inactive, no level is being timed, and no feedback has been
active (R39). -/
def Obligations.PowerOnRestarts : Prop :=
  ∀ s : State,
    let off (d : Debounced) : Debounced := ⟨d.raw, false, none⟩
    ∃ t, exec .powerOn s = .next t ∧ t.inputs.inactive = true ∧
      t = { State.reset with
        inputs :=
          { call := off s.inputs.call
            silence := off s.inputs.silence
            reset := off s.inputs.reset
            start := off s.inputs.start
            stop := off s.inputs.stop
            heat := off s.inputs.heat
            feedback := tabulate fun o => ⟨off (s.inputs.feedback[o]).input, none⟩
            spark := s.inputs.spark }
        pending := s.pending }

/-- IMAGE_READ_FAILED and IMAGE_READ_RETRY (R150, R151, R152, R155): a read calls the memory at bus address 50
hexadecimal, writes the internal address 0 and reads 256 octets; either acknowledge missing, or 100 ms without all octets,
fails it. A failed read is tried again 10 ms later, up to three reads; the third failure ends LOAD without an image, in
CONFIG_FAULT with the records START and CONFIG_FAULT. What the rules leave open is settled by assumptions 5, 9 and 24. -/
def Obligations.ImageReadFails : Prop :=
  (∀ (now : Time) (s : State) (began : Time), s.start.phase = .load → s.start.readBegan = some began →
    (s.start.reads < 3 →
      exec (.imageReadFailed now) s = .next { s with
        clock := now
        start := { s.start with readBegan := none, retry := some (after now 10) } }) ∧
    (3 ≤ s.start.reads →
      exec (.imageReadFailed now) s = .next { s with
        clock := now
        start :=
          { s.start with
            phase := .configFault, readBegan := none, retry := none, faultKind := .noImage, faultOffset := 0
            image := none }
        supply := { s.supply with next := some now }
        record := s.record.fileAll now [⟨.start, 0, BitVec.ofNat 16 s.start.reads⟩, ⟨.configFault, 1, 0⟩] })) ∧
  (∀ (now : Time) (s : State) (deadline : Time), s.start.phase = .load → s.start.retry = some deadline →
    reached now deadline = true →
    exec (.imageReadRetry now) s = .next { s with
      clock := now
      start := { s.start with reads := s.start.reads + 1, readBegan := some now, retry := none } }) ∧
  imageRead = .call 0x50 :: .write 0 :: List.replicate 256 .read ∧
  (∀ (call write : BusAnswer) (octets : List BusAnswer) (began now : Time),
    let read := readWith [] imageRead (call :: write :: octets)
    (call.acknowledged = false ∨ write.acknowledged = false → read.command? began now = some (.imageReadFailed now)) ∧
    (call.acknowledged = true → write.acknowledged = true →
      (octets.length < 256 →
        read.command? began now = if 100 ≤ (now - began).toNat then some (.imageReadFailed now) else none) ∧
      (256 ≤ octets.length → read.command? began now = some (
        if (now - began).toNat ≤ 100 then .imageReadComplete now ((octets.take 256).map BusAnswer.octet)
        else .imageReadFailed now))))

/-- IMAGE_READ_COMPLETE (R150, R151, R153, R154, R155, R164): an image with a structural error takes the station to
CONFIG_FAULT with its kind and offset; a usable one is put to use, its clamped items are recorded, and LISTEN begins. The
structural error is the first test of Table 9.2 that fails; a usable image is read at the offsets of Table 11.6, each item
clamped to its range; and each item clamped is recorded with its offset and the value as read, in order of offset.
What the rules leave open is settled by assumptions 7, 20 to 24, 34, 36 and 39. -/
def Obligations.ImageReadCompletes : Prop :=
  (∀ (image : List Byte) (kind : FaultKind) (offset : Nat), structuralError image = some (kind, offset) ↔
    imageFails image kind offset ∧
      ∃ before behind, imageTests = before ++ kind :: behind ∧ ∀ k ∈ before, ∀ n, ¬imageFails image k n) ∧
  (∀ image : List Byte, structuralError image = none ↔ ∀ kind offset, ¬imageFails image kind offset) ∧
  (∀ image : List Byte, structuralError image = none → imageReads image (imageSetup image)) ∧
  (∀ image : List Byte, clampFilings image =
    ((imageRanges image).filter fun r => r.read image ≠ r.used image).map fun r =>
      ⟨.configClamped, octet r.offset, BitVec.ofNat 16 (r.read image)⟩) ∧
  (∀ image : List Byte, (clampFilings image).Pairwise fun f g => f.subject.toNat < g.subject.toNat) ∧
  ∀ (now : Time) (image : List Byte) (s : State) (began : Time),
    s.start.phase = .load → s.start.readBegan = some began → (now - began).toNat ≤ 100 → image.length = 256 →
    (∀ (kind : FaultKind) (offset : Nat), structuralError image = some (kind, offset) →
      exec (.imageReadComplete now image) s = .next { s with
        clock := now
        start :=
          { s.start with
            phase := .configFault, readBegan := none, retry := none, faultKind := kind, faultOffset := octet offset
            image := some image }
        supply := { s.supply with next := some now }
        record := s.record.fileAll now
          [⟨.start, image.getD 1 0, BitVec.ofNat 16 s.start.reads⟩,
           ⟨.configFault, octet kind.code, BitVec.ofNat 16 offset⟩] }) ∧
    (structuralError image = none →
      ∃ t, exec (.imageReadComplete now image) s = .next t ∧
        ({ s with
          clock := now
          start :=
            { s.start with
              phase := .listen, readBegan := none, retry := none, phaseTimer := some (after now 2000)
              listenStart := some ⟨now, none⟩, image := some image }
          setup := imageSetup image
          inputs := s.inputs.beginKeys now
          supply := { s.supply with next := some now }
          record := s.record.fileAll now
            (⟨.start, image.getD 1 0, BitVec.ofNat 16 s.start.reads⟩ :: clampFilings image)
          flags := if clampFilings image = [] then s.flags else s.flags ||| Attention.configClamped.mask } :
            State).settledFrom t)

/-- LISTEN_END (R14, R17, R45, R46, R50, R62, R104, R154): SETTLE begins; both STATE slots are filled and the STATE
interval starts, an enabled channel whose input is already high begins a pulse, the sampler of a fan station begins, and
the unserved field is judged. What the rules leave open is settled by assumptions 14 and 30. -/
def Obligations.ListenEnds : Prop :=
  ∀ (now : Time) (s : State) (deadline : Time),
    s.start.phase = .listen → s.start.phaseTimer = some deadline → reached now deadline = true →
    ∃ t, exec (.listenEnd now) s = .next t ∧
      t = { s with
        clock := now
        start := { s.start with phase := .settle, phaseTimer := some (after now 3000) }
        inputs := s.inputs.beginFeedback now
        sensing := t.sensing
        extraction := s.extraction.judgeMode now (if s.setup.roles.fan then .continuous else .off)
        lineA := { s.lineA with slots := { s.lineA.slots with state := some t.reported } }
        lineB := { s.lineB with slots := { s.lineB.slots with state := some t.reported } }
        assembler := ⟨some (after now 250), some t.reported⟩
        flags := if t.anyUnserved && !s.sensing.unserved then s.flags ||| Attention.unserved.mask else s.flags } ∧
      (∀ c : Channel, t.channel c =
        if s.setup.channels[c].enabled && s.inputs.spark[c] then { s.channel c with pulse := some now }
        else s.channel c) ∧
      t.sensing.lastBoundary = some now ∧ t.sensing.escalation = s.sensing.escalation ∧
      t.sensing.unserved = t.anyUnserved ∧ t.permitted = true ∧
      (s.setup.roles.fan = true → s.extraction.mode = .off → s.extraction.window = none →
        t.extraction.window = some ⟨now, 0⟩ ∧ t.extraction.mode = .continuous)

/-- SETTLE_END (R56, R89, R96, R99, R102, R124, R140, R154): OPERATING begins. The test timers start, each valve takes its
schedule as it stands with the stuck judgement made first, the mismatch timers begin, every barrier is armed, and the
siren outputs take the latches that stand: u is the state with all that, and the consequences follow, the release of a
barrier whose condition holds among them. An active flow switch, and an active feedback of the contactor or the gate, count
from when they became active, and the time that has then passed is judged at once. A valve whose first window has opened
turns on, and passes to FLOWING with its flow switch active. What the rules leave open is settled by assumptions 7, 18, 20
and 36. -/
def Obligations.SettleEnds : Prop :=
  ∀ (now : Time) (s : State) (deadline : Time),
    s.start.phase = .settle → s.start.phaseTimer = some deadline → reached now deadline = true →
    let confirm := s.setup.valves.confirm
    let active (o : Output) : Option Instant := if s.feedback o then (s.inputs.feedback[o]).activeSince else none
    let mismatch (o : Option Output) (time : Nat) : Mismatch :=
      match o.bind active with
      | some i => if time ≤ i.elapsed now then ⟨none, true⟩ else ⟨some (after i.reading time), false⟩
      | none => ⟨none, false⟩
    let contactor := mismatch s.contactorOutput 2000
    let gate := mismatch s.gateOutput s.setup.extraction.gateTime
    let judged (o : Output) : Valve :=
      let v := s.valves[o]
      match active o with
      | some i =>
        if confirm ≤ i.elapsed now then
          { v with stuck := true, stuckTimer := none, counters := { v.counters with stuck := bump v.counters.stuck } }
        else { v with stuckTimer := some (after i.reading confirm) }
      | none => v
    let begun (o : Output) : Valve :=
      let v := judged o
      if v.state = .idle ∧ ∃ w ∈ v.schedule.head?, w.opens.later ⟨now, none⟩ = false then
        { v with
          state := if s.feedback o then .flowing else .opening
          confirmTimer := if s.feedback o then none else some (after now confirm)
          openSince := some ⟨now, none⟩
          stuckTimer := none
          counters := { v.counters with
            openings := bump v.counters.openings
            underTrouble := if v.trouble then bump v.counters.underTrouble else v.counters.underTrouble
            confirmed := if s.feedback o then bump v.counters.confirmed else v.counters.confirmed } }
      else v
    let sticks (o : Output) : Bool := (s.role o).isValve && !s.valves[o].stuck && (judged o).stuck
    ∃ (t u : State), exec (.settleEnd now) s = .next t ∧ u.settledFrom t ∧
      u = { s with
        clock := now
        start := { s.start with phase := .operating, phaseTimer := none }
        sensing := { s.sensing with channels := tabulate fun c =>
          if s.setup.channels[c].enabled then
            { s.sensing.channels[c] with testTimer := some (after now (s.setup.sensing.testInterval * 1000)) }
          else s.sensing.channels[c] }
        valves := tabulate fun o => if (s.role o).isValve then begun o else s.valves[o]
        extraction := if s.hasFan then { s.extraction with contactor := contactor, gate := gate } else s.extraction
        barriers := { s.barriers with
          units := tabulate fun o =>
            if (s.role o).isBarrier then
              { s.barrier o with
                state := .held, travelTimer := none, run := none, kept := none, attempts := 0, wait := .idle }
            else s.barrier o }
        sirens := { s.sirens with
          units := tabulate fun o =>
            if (s.role o).isSiren then
              { s.siren o with
                fireSeen := (s.siren o).fireSeen ||
                  (indexes 16).any fun z => hasZone (s.role o).covered z && (s.zones.latched[z]).atLeast .fire }
            else s.siren o }
        record := s.record.fileAll now
          (((indexes 4).filter sticks).map fun (o : Output) => ⟨.valveStuck, octet o.val, 0⟩)
        flags := s.flags |||
          (if (indexes 4).any sticks then Attention.valveTrouble.mask else 0) |||
          (if s.hasFan && (contactor.stands || gate.stands) then Attention.fanFault.mask else 0) } ∧
      (∀ o : Output, sticks o = true →
        (t.valves[o]).stuck = true ∧ s.filed t ⟨.valveStuck, octet o.val, 0⟩ ∧ t.flagged .valveTrouble = true) ∧
      (∀ o : Output, (s.role o).isBarrier = true → s.barriers.queue = [] →
        (t.releaseHolds o = false → (t.barrier o).state = .held) ∧
        (t.releaseHolds o = true → (t.barrier o).state ≠ .held ∧ (t.barrier o).state ≠ .unarmed)) ∧
      (∀ (o : Output) (z : Zone), (s.role o).isSiren = true → hasZone (s.role o).covered z = true →
        (s.zones.latched[z]).atLeast .fire = true → (t.siren o).fireSeen = true) ∧
      (∀ o : Output, (s.role o).isSiren = true → (t.siren o).pattern = (t.siren o).chosen) ∧
      (s.hasFan = true → s.extraction.phase = .standby → s.extraction.mode ≠ .off →
        t.extraction.mode = .off ∧ t.extraction.contactor = contactor ∧ t.extraction.gate = gate)

/-! ## The station line: transmission -/

/-- ATTEMPT_START (R5, R10, R15, R16): with permission, on an idle line with its in-transmission place empty, what is
due moves from its slot into the place with its transmission-start fields written: a SPARK its age, saturating at 1023
with STALE, a STATE its sample age and cadence phase. What the rules leave open is settled by assumption 9. -/
def Obligations.AttemptBegins : Prop :=
  ∀ (now : Time) (l : Line) (slot : Slot) (n : Notice) (s : State),
    s.permitted = true → (s.line l).stage = .idle → (s.line l).place = none → (s.line l).dueSlot = some slot →
    (match slot with
      | .state => ∃ c, (s.line l).slots.state = some c ∧ n = .state { c with
          sampleAge := if s.hasFan then (s.takeAt now).sampleAge else 0
          cadence := (s.takeAt now).cadenceFor c.pattern }
      | .call => ∃ z, (s.line l).slots.call = some z ∧ n = .call z
      | .silence => ∃ k, (s.line l).slots.silence = some k ∧ n = .key .silence k
      | .reset => ∃ k, (s.line l).slots.reset = some k ∧ n = .key .reset k
      | .spark c => ∃ r, (s.line l).slots.spark[c] = some r ∧
          n = .spark c { r with stale := r.stale || decide (1023 ≤ r.first.elapsed now) }
            (min 1023 (r.first.elapsed now))) →
    exec (.attemptStart now l) s = .next ((s.takeAt now).withLine l { s.line l with
      slots := (s.line l).slots.empty slot
      place := some ⟨n, decide ((s.line l).txState = .failed), now⟩
      probeDue := false
      stage := .assembling now })

/-- R9, R10, R12: what is due on a line. Until the first successful STATE only the STATE slot is chosen; afterwards CALL,
SPARK-0 to SPARK-3, KEY-SILENCE, KEY-RESET and STATE in this order; STATE is passed over under the round hold. On a FAILED
line only a probe that is due is sent. -/
def Obligations.SendQueueChooses : Prop :=
  ∀ x : LineInterface,
    (x.txState = .ok → x.firstState = false →
      x.dueSlot = if x.slots.state.isSome && !x.roundHold then some .state else none) ∧
    (x.txState = .ok → x.firstState = true →
      (x.slots.call.isSome = true → x.dueSlot = some .call) ∧
      (x.slots.call = none →
        (∀ c : Channel, x.slots.spark[c].isSome = true → (∀ d : Channel, d < c → x.slots.spark[d] = none) →
          x.dueSlot = some (.spark c)) ∧
        ((∀ c : Channel, x.slots.spark[c] = none) →
          (x.slots.silence.isSome = true → x.dueSlot = some .silence) ∧
          (x.slots.silence = none → x.slots.reset.isSome = true → x.dueSlot = some .reset) ∧
          (x.slots.silence = none → x.slots.reset = none →
            x.dueSlot = if x.slots.state.isSome && !x.roundHold then some .state else none)))) ∧
    (x.txState = .failed → x.dueSlot = if x.probeDue && x.slots.state.isSome then some .state else none)

/-- CONTENTION_LOST, TX_ERROR and ATTEMPT_SUCCESS (R6, R7, R8, R9, R10, R12, R13, R18): the three ends of an attempt. The
sixteenth consecutive TX error makes the line FAILED, files LINE_TX_FAILED with the TX error counter, sets the flag and
starts the probe timer; a successful STATE sets the round hold; a successful probe makes the line OK. A notice that is
being assembled when an attempt loses contention or errs is assembled on, with the attempt's start; an error at the first
start bit, bit 0, has begun no notice and leaves the line idle. What the rules leave open is settled by assumption 9. -/
def Obligations.AttemptEnds : Prop :=
  ∀ (now : Time) (l : Line) (a : Attempt) (bit : Nat) (s : State), (s.line l).place = some a →
    let stage : ReceiveStage := match (s.line l).stage with
      | .assembling start => if bit = 0 then .idle else .assembling start
      | other => other
    exec (.contentionLost now l) s = .next ((s.takeAt now).withLine l { s.line l with
      place := none
      slots := (s.line l).slots.giveBack a.notice
      counters := { (s.line l).counters with contention := bump (s.line l).counters.contention }
      probeDue := (s.line l).probeDue || a.probe }) ∧
    ((s.line l).txState = .failed ∨ (s.line l).consecutive < 15 →
      exec (.txError now ⟨l, bit⟩) s = .next ((s.takeAt now).withLine l { s.line l with
        place := none
        stage := stage
        slots := (s.line l).slots.giveBack a.notice
        counters := { (s.line l).counters with tx := bump (s.line l).counters.tx }
        consecutive := min 16 ((s.line l).consecutive + 1)
        probeTimer := if a.probe then some (after now 5000) else (s.line l).probeTimer })) ∧
    ((s.line l).txState = .ok → 15 ≤ (s.line l).consecutive →
      exec (.txError now ⟨l, bit⟩) s = .next { (s.takeAt now).withLine l { s.line l with
          place := none
          stage := stage
          slots := (s.line l).slots.giveBack a.notice
          counters := { (s.line l).counters with tx := bump (s.line l).counters.tx }
          consecutive := 16
          txState := .failed
          probeTimer := some (after now 5000) } with
        record := s.record.file now ⟨.lineTxFailed, octet (lineCode l), bump (s.line l).counters.tx⟩
        flags := s.flags ||| Attention.lineTxFailed.mask }) ∧
    exec (.attemptSuccess now l) s = .next { (s.takeAt now).withLine l { s.line l with
        place := none
        stage := .busy
        consecutive := 0
        txState := if a.probe then .ok else (s.line l).txState
        probeTimer := if a.probe then none else (s.line l).probeTimer
        roundHold := (s.line l).roundHold || a.notice.isState
        firstState := (s.line l).firstState || a.notice.isState } with
      record := if a.probe then s.record.file now ⟨.lineTxOk, octet (lineCode l), 0⟩ else s.record }

/-- R8: a returning notice takes its empty slot as it stands; a newer STATE, CALL or KEY is kept; two SPARKs are combined:
the older first-spark instant, the sum of the counts up to 255, the span to the newer copy's last pulse up to 4095, STALE
from either copy or a full span, and UNSERVED of the newer copy. -/
def Obligations.ReturnedNoticeCombines : Prop :=
  ∀ x : Slots,
    (∀ c : StateContent, x.giveBack (.state c) = { x with state := some (x.state.getD c) }) ∧
    (∀ z : Zone, x.giveBack (.call z) = { x with call := some (x.call.getD z) }) ∧
    (∀ k : Byte, x.giveBack (.key .silence k) = { x with silence := some (x.silence.getD k) } ∧
      x.giveBack (.key .reset k) = { x with reset := some (x.reset.getD k) }) ∧
    (∀ (c : Channel) (older : SparkReport) (age : Nat), x.spark[c] = none →
      x.giveBack (.spark c older age) = { x with spark := put x.spark c (some older) }) ∧
    (∀ (c : Channel) (older newer : SparkReport) (age span : Nat), x.spark[c] = some newer →
      span = min 4095 (older.first.elapsed (newer.first.reading + BitVec.ofNat 32 newer.span)) →
      x.giveBack (.spark c older age) = { x with spark := put x.spark c (some
        { first := older.first
          span := span
          count := min 255 (older.count + newer.count)
          stale := older.stale || newer.stale || decide (span = 4095)
          unserved := newer.unserved
          branch := newer.branch
          position := newer.position }) })

/-- PROBE_TIMER_EXPIRY, STATE_ROUND_HOLD_CLEAR, STATE_INTERVAL_EXPIRY and LINE_IDLE (R2, R10, R13, R17). What the rules
leave open is settled by assumptions 9 and 14. -/
def Obligations.LineTimers : Prop :=
  (∀ (now : Time) (l : Line) (s : State) (deadline : Time), (s.line l).txState = .failed →
    (s.line l).probeTimer = some deadline → reached now deadline = true →
    exec (.probeTimerExpiry now l) s = .next { (s.takeAt now).withLine l { s.line l with
        probeTimer := none
        probeDue := true
        slots := { (s.line l).slots with state := some s.reported } } with
      assembler := ⟨some (after now 250), some s.reported⟩ }) ∧
  (∀ (now : Time) (l : Line) (s : State),
    exec (.stateRoundHoldClear now l) s = .next ((s.takeAt now).withLine l { s.line l with roundHold := false })) ∧
  (∀ (now : Time) (s : State) (deadline : Time), s.assembler.interval = some deadline → reached now deadline = true →
    exec (.stateIntervalExpiry now) s = .next { s with
      clock := now
      lineA := { s.lineA with slots := { s.lineA.slots with state := some s.reported } }
      lineB := { s.lineB with slots := { s.lineB.slots with state := some s.reported } }
      assembler := ⟨some (after now 250), some s.reported⟩ }) ∧
  (∀ (now : Time) (l : Line) (s : State), (s.line l).stage = .busy →
    exec (.lineIdle now l) s = .next ((s.takeAt now).withLine l { s.line l with stage := .idle }))

/-- R105: the sample age is the clock minus the last-sample instant, at most 65535, and 65535 without one. It is not
stored: an attempt with a STATE, the own fan view and the FAN request each compute it at the instant they read it, and the
reported fields of a fill do not depend on it. -/
def Obligations.SampleAge : Prop :=
  ∀ s : State,
    (∀ i, s.extraction.lastSample = some i → s.sampleAge = min 65535 (i.elapsed s.clock)) ∧
    (s.extraction.lastSample = none → s.sampleAge = 65535) ∧
    s.ownViewData.age = s.sampleAge ∧
    (∀ (now : Time) (l : Line) (c : StateContent), s.hasFan = true → s.permitted = true → (s.line l).stage = .idle →
      (s.line l).place = none → (s.line l).dueSlot = some .state → (s.line l).slots.state = some c →
      ∃ (t : State) (a : Attempt) (d : StateContent), exec (.attemptStart now l) s = .next t ∧
        (t.line l).place = some a ∧ a.notice = .state d ∧ d.sampleAge = (s.takeAt now).sampleAge) ∧
    (∀ (now : Time) (argument : Byte), s.hasFan = true →
      ∃ t, exec (.fan now argument) s = .next t ∧
        (t.port.response.drop 12).take 2 = be16 (s.takeAt now).sampleAge) ∧
    (∀ (now : Time) (i : Option Instant),
      ({ s with clock := now, extraction := { s.extraction with lastSample := i } } : State).reported = s.reported)

/-! ## The station line: reception -/

/-- RECEIVE_FRAMING_ERROR, NOTICE_LENGTH_ERROR and CHECK_ERROR (R2, R18, R19): a notice given up is counted in its
counter and has no other effect, and the line is busy until it is idle. A framing error may fall at the bit that ends the
station's own attempt, and is then counted whichever is taken first. What the rules leave open is settled by assumptions 9
and 25. -/
def Obligations.UnfinishedNoticesAreCounted : Prop :=
  ∀ (now : Time) (l : Line) (s : State), (s.line l).stage ≠ .busy →
    exec (.receiveFramingError now l) s = .next ((s.takeAt now).withLine l { s.line l with
      stage := .busy, counters := { (s.line l).counters with framing := bump (s.line l).counters.framing } }) ∧
    ((s.line l).place = none →
      (∀ length : Byte, 24 < length.toNat →
        exec (.noticeLengthError now l length) s = .next ((s.takeAt now).withLine l { s.line l with
          stage := .busy, counters := { (s.line l).counters with content := bump (s.line l).counters.content } })) ∧
      (∀ (c : BitVec 3) (rx : Received), crc (covered c rx.sender rx.payload) ≠ rx.check →
        exec (.checkError now l c rx) s = .next ((s.takeAt now).withLine l { s.line l with
          stage := .busy, counters := { (s.line l).counters with check := bump (s.line l).counters.check } })) ∧
      (∀ (c : BitVec 3) (rx : Received), crc (covered c rx.sender rx.payload) = rx.check → 4 ≤ c.toNat →
        exec (.checkError now l c rx) s = .next ((s.takeAt now).withLine l { s.line l with
          stage := .busy, counters := { (s.line l).counters with content := bump (s.line l).counters.content } })))

/-- R19, R21: for each kind of notice, the tests in their order: the check; then the length, the sender and the payload.
A notice that fails one is counted and has no other effect. A valid notice in LOAD or in CONFIG_FAULT is counted and
goes no further. What the rules leave open is settled by assumptions 9, 13 and 25. -/
def Obligations.NoticesAreTested : Prop :=
  ∀ (now : Time) (l : Line) (rx : Received) (s : State), (s.line l).stage ≠ .busy → (s.line l).place = none →
    ∀ kind ∈ [(classCall, Instr.callNotice now l rx, 1, (readCall? rx.payload).isSome),
        (classSpark, Instr.sparkNotice now l rx, 7, (SparkPayload.read? rx.payload).isSome),
        (classKey, Instr.keyNotice now l rx, 2, (readKey? rx.payload).isSome),
        (classState, Instr.stateNotice now l rx, 14, (StateContent.read? rx.payload).isSome)],
      (crc (covered kind.1 rx.sender rx.payload) ≠ rx.check →
        exec kind.2.1 s = .next ((s.takeAt now).withLine l { s.line l with
          stage := .busy, counters := { (s.line l).counters with check := bump (s.line l).counters.check } })) ∧
      (crc (covered kind.1 rx.sender rx.payload) = rx.check →
        (rx.payload.length ≠ kind.2.2.1 ∨ rx.sender = 0 ∨ kind.2.2.2 = false) →
        exec kind.2.1 s = .next ((s.takeAt now).withLine l { s.line l with
          stage := .busy, counters := { (s.line l).counters with content := bump (s.line l).counters.content } })) ∧
      (crc (covered kind.1 rx.sender rx.payload) = rx.check → rx.payload.length = kind.2.2.1 → rx.sender ≠ 0 →
        kind.2.2.2 = true → s.started = false →
        exec kind.2.1 s = .next ((s.takeAt now).withLine l { s.line l with
          stage := .busy, counters := { (s.line l).counters with valid := bump (s.line l).counters.valid } }))

/-- R20: a valid notice that carries the station's own number is counted, is the line's last valid notice, sets
NUMBER_CLASH, is recorded unless a clash came on the same line within the preceding 1500 ms, and goes no further. What
the rules leave open is settled by assumptions 11 and 25. -/
def Obligations.OwnNumberClashes : Prop :=
  ∀ (now : Time) (l : Line) (rx : Received) (s : State), (s.line l).stage ≠ .busy → (s.line l).place = none →
    s.started = true → rx.sender ≠ 0 → rx.sender.toNat = s.setup.number.val →
    ∀ kind ∈ [(classCall, Instr.callNotice now l rx, 1, (readCall? rx.payload).isSome),
        (classSpark, Instr.sparkNotice now l rx, 7, (SparkPayload.read? rx.payload).isSome),
        (classKey, Instr.keyNotice now l rx, 2, (readKey? rx.payload).isSome),
        (classState, Instr.stateNotice now l rx, 14, (StateContent.read? rx.payload).isSome)],
      crc (covered kind.1 rx.sender rx.payload) = rx.check → rx.payload.length = kind.2.2.1 → kind.2.2.2 = true →
      exec kind.2.1 s = .next { (s.takeAt now).withLine l { s.line l with
          stage := .busy
          counters := { (s.line l).counters with valid := bump (s.line l).counters.valid }
          lastValid := some ⟨now, none⟩
          lastClash := some ⟨now, none⟩ } with
        flags := s.flags ||| Attention.numberClash.mask
        record :=
          if (s.line l).lastClash.any fun i => i.elapsed now < 1500 then s.record
          else s.record.file now
            ⟨.numberClash, octet (lineCode l), BitVec.ofNat 16 (kind.1.toNat * 32 + rx.sender.toNat)⟩ }

/-- What a notice taken from a peer brings to that peer's entry, whatever its kind (R25, R28): it is PRESENT, heard on the
line at the notice's start; a peer that was LOST rejoins; SINGLE_LINE of that line is cleared; and the rest of the entry
stands. -/
def Obligations.PeerIsHeard : Prop :=
  ∀ (p : Peer) (l : Line) (start : Time),
    ((p.hear l start).presence = .present ∧ (p.hear l start).heard l = some ⟨start, none⟩ ∧
      (p.hear l start).heard (otherLine l) = p.heard (otherLine l)) ∧
    (p.presence = .present → (p.hear l start).since = p.since ∧ (p.hear l start).rejoins = p.rejoins) ∧
    (p.presence = .absent → (p.hear l start).since = some ⟨start, none⟩ ∧ (p.hear l start).rejoins = p.rejoins) ∧
    (p.presence = .lost →
      (p.hear l start).since = some ⟨start, none⟩ ∧ (p.hear l start).rejoins = bump8 p.rejoins) ∧
    (p.hear l start).single = (if p.single = some l then none else p.single) ∧
    (p.hear l start).known = p.known ∧ (p.hear l start).content = p.content ∧
    (p.hear l start).received = p.received ∧ (p.hear l start).override = p.override ∧
    (p.hear l start).silence = p.silence ∧ (p.hear l start).reset = p.reset

/-! ## The station line: notices from peers -/

/-- CALL_NOTICE (R21, R25, R33, R34): the sender's entry takes the notice and its override, a CALL record is filed
unless it held one for that zone, and the zone stands at EVACUATE, live and latched. What the rules leave open is
settled by assumptions 7, 11, 12, 20 and 36. -/
def Obligations.CallNoticeTaken : Prop :=
  ∀ (now : Time) (l : Line) (rx : Received) (k : Station) (z : Zone) (start : Time) (s : State),
    (s.line l).stage ≠ .busy → (s.line l).place = none → s.started = true →
    crc (covered classCall rx.sender rx.payload) = rx.check → rx.payload = [octet z.val] →
    rx.sender.toNat = k.val → k ≠ 0 → k ≠ s.setup.number → (s.line l).receiveStart rx.start = start →
    ∃ (t u : State), exec (.callNotice now l rx) s = .next t ∧ u.settledFrom t ∧ s.sameControllers u ∧
      u = { s with
        clock := now
        peers := change s.peers k fun p => { p.hear l start with override := some z }
        lineA := u.lineA, lineB := u.lineB, sensing := u.sensing, record := u.record, flags := u.flags } ∧
      (∀ m : Line, u.line m = { (if m = l then { s.line l with
          stage := .busy
          counters := { (s.line l).counters with valid := bump (s.line l).counters.valid }
          lastValid := some ⟨now, none⟩ } else s.line m) with quiet := u.quietTests m }) ∧
      u.sensing = { s.sensing with unserved := u.anyUnserved } ∧ u.flags = s.flags ||| s.heardFlags u ∧
      u.record = s.record.fileAll now (peerPresentFilings k s.peers[k] ++
        (if (s.peers[k]).override = some z then [] else [⟨.call, stationOctet k, BitVec.ofNat 16 z.val⟩]) ++
        s.quietRecords u) ∧
      t.zones.live[z] = .evacuate ∧ t.zones.latched[z] = .evacuate

/-- STATE_NOTICE (R21, R25, R26, R138, R139, R146, R147, R148): the sender's entry takes the notice and its content
whole, becomes state-known and loses its override; levels, views and their consumers follow. When the sender was the
leader of a pulse pattern that runs and still reports it, the phase is moved by the bounded correction, and the outputs
take the levels that the phases give; the leaders are chosen again, and a phase that the consequences begin begins from
them. What the rules leave open is settled by assumptions 7, 11, 12, 16, 20, 36 and 38. -/
def Obligations.StateNoticeTaken : Prop :=
  ∀ (now : Time) (l : Line) (rx : Received) (k : Station) (c : StateContent) (start : Time) (s : State),
    (s.line l).stage ≠ .busy → (s.line l).place = none → s.started = true →
    crc (covered classState rx.sender rx.payload) = rx.check → StateContent.read? rx.payload = some c →
    rx.sender.toNat = k.val → k ≠ 0 → k ≠ s.setup.number → (s.line l).receiveStart rx.start = start →
    ∃ (t u : State), exec (.stateNotice now l rx) s = .next t ∧ u.settledFrom t ∧
      u = { s with
        clock := now
        peers := change s.peers k fun p => { p.hear l start with
          content := some c, received := some ⟨start, none⟩, known := true, override := none }
        lineA := u.lineA, lineB := u.lineB, sensing := u.sensing, sirens := u.sirens, record := u.record
        flags := u.flags } ∧
      (∀ m : Line, u.line m = { (if m = l then { s.line l with
          stage := .busy
          counters := { (s.line l).counters with valid := bump (s.line l).counters.valid }
          lastValid := some ⟨now, none⟩ } else s.line m) with quiet := u.quietTests m }) ∧
      u.sensing = { s.sensing with unserved := u.anyUnserved } ∧
      (∀ o : Output, u.sirens.units[o].claims = s.sirens.units[o].claims ∧
        u.sirens.units[o].pattern = s.sirens.units[o].pattern ∧ u.sirens.units[o].fault = s.sirens.units[o].fault ∧
        u.sirens.units[o].fireSeen = s.sirens.units[o].fireSeen ∧
        u.sirens.units[o].allClear = s.sirens.units[o].allClear ∧
        (s.operating = true → (s.role o).isSiren = true →
          u.sirens.units[o].driven = u.patternLevel o u.sirens.units[o].pattern ∧
          (s.sirens.units[o]).counts now (s.feedback o) u.sirens.units[o]) ∧
        ((s.operating = false ∨ (s.role o).isSiren = false) → u.sirens.units[o] = s.sirens.units[o])) ∧
      u.sirens.resound = s.sirens.resound ∧
      u.sirens.slow = s.sirens.slow.map (fun x =>
        ⟨if s.sirens.slowLeader = some k ∧ c.pattern = .slow then
            correctedPhase 2000 ((c.cadence + (⟨start, none⟩ : Instant).elapsed now) % 2000) (x.at_ 2000 now)
          else x.at_ 2000 now, now⟩) ∧
      u.sirens.fast = s.sirens.fast.map (fun x =>
        ⟨if s.sirens.fastLeader = some k ∧ c.pattern = .fast then
            correctedPhase 500 ((c.cadence + (⟨start, none⟩ : Instant).elapsed now) % 500) (x.at_ 500 now)
          else x.at_ 500 now, now⟩) ∧
      u.sirens.slowLeader = u.chosenLeader .slow ∧ u.sirens.fastLeader = u.chosenLeader .fast ∧
      u.flags = s.flags ||| s.heardFlags u ∧
      u.record = s.record.fileAll now (peerPresentFilings k s.peers[k] ++ s.quietRecords u) ∧
      (∀ x : Cadence, s.sirens.slow = some x →
        ((indexes 4).any fun o => t.operating && (t.role o).isSiren && (t.siren o).pattern == .slow) = true →
        t.sirens.slow = some ⟨if s.sirens.slowLeader = some k ∧ c.pattern = .slow then
            correctedPhase 2000 ((c.cadence + (⟨start, none⟩ : Instant).elapsed now) % 2000) (x.at_ 2000 now)
          else x.at_ 2000 now, now⟩) ∧
      (∀ x : Cadence, s.sirens.fast = some x →
        ((indexes 4).any fun o => t.operating && (t.role o).isSiren && (t.siren o).pattern == .fast) = true →
        t.sirens.fast = some ⟨if s.sirens.fastLeader = some k ∧ c.pattern = .fast then
            correctedPhase 500 ((c.cadence + (⟨start, none⟩ : Instant).elapsed now) % 500) (x.at_ 500 now)
          else x.at_ 500 now, now⟩) ∧
      t.sirens.slowLeader = t.chosenLeader .slow ∧ t.sirens.fastLeader = t.chosenLeader .fast

/-- R148: the correction moves a phase by at most 50 ms either way round its cycle, and onto the projected phase when that
is nearer. -/
def Obligations.CadenceCorrectionIsBounded : Prop :=
  ∀ (cycle projected own : Nat), (cycle = 2000 ∨ cycle = 500) → projected < cycle → own < cycle →
    let e := (projected + cycle - own) % cycle
    correctedPhase cycle projected own < cycle ∧
    (e ≤ 50 ∨ cycle - 50 ≤ e → correctedPhase cycle projected own = projected) ∧
    (50 < e → e ≤ cycle / 2 → correctedPhase cycle projected own = (own + 50) % cycle) ∧
    (cycle / 2 < e → e < cycle - 50 → correctedPhase cycle projected own = (own + cycle - 50) % cycle)

/-- SPARK_NOTICE (R21, R25, R69, R78, R114): the sender's entry takes the notice; from the end of LISTEN every VALVE
output gets its outcome and takes its window; u is the state with all that, and the consequences follow. At a fan
station an UNSERVED spark on a branch of its duct system is the event cause UNSERVED; outside STANDBY it is then in the
cause set, and from STARTING or RUNNING the phase leaves for DIVERTING. What the rules leave open is settled by
assumptions 7, 11, 12, 20, 32 and 36. -/
def Obligations.SparkNoticeTaken : Prop :=
  ∀ (now : Time) (l : Line) (rx : Received) (k : Station) (p : SparkPayload) (start : Time) (s : State),
    (s.line l).stage ≠ .busy → (s.line l).place = none → s.started = true →
    crc (covered classSpark rx.sender rx.payload) = rx.check → SparkPayload.read? rx.payload = some p →
    rx.sender.toNat = k.val → k ≠ 0 → k ≠ s.setup.number → (s.line l).receiveStart rx.start = start →
    let unserved := s.permitted && p.unserved && s.hasFan && s.branchServed p.branch
    let report := receivedReport l k start p
    ∃ (t u : State), exec (.sparkNotice now l rx) s = .next t ∧
      u.settledFrom t (if unserved then [.unserved] else []) ∧
      u = { s with
        clock := now
        peers := change s.peers k fun p => p.hear l start
        lineA := u.lineA, lineB := u.lineB
        sensing := { s.sensing with unserved := u.anyUnserved }
        valves := u.valves, record := u.record, flags := u.flags } ∧
      (∀ m : Line, u.line m = { (if m = l then { s.line l with
          stage := .busy
          counters := { (s.line l).counters with valid := bump (s.line l).counters.valid }
          lastValid := some ⟨now, none⟩ } else s.line m) with quiet := u.quietTests m }) ∧
      (∀ (o : Output) (e : Branch) (pe reach : Nat), s.permitted = true → s.role o = .valve e pe reach →
        u.valves[o] = ((s.takeAt now).valveAfter o report ((s.takeAt now).computedFor report e pe reach)).1) ∧
      (∀ o : Output, (s.permitted = false ∨ (s.role o).isValve = false) → u.valves[o] = s.valves[o]) ∧
      u.record = s.record.fileAll now (peerPresentFilings k s.peers[k] ++ s.quietRecords u ++
        if s.permitted then (indexes 4).flatMap ((s.takeAt now).reportRecords report) else []) ∧
      u.flags = s.flags ||| s.heardFlags u ||| (if s.permitted then (s.takeAt now).reportFlags report else 0) ∧
      (unserved = true → s.extraction.phase ≠ .standby →
        hasCause t.extraction.causes .unserved = true ∧
        (s.extraction.phase = .starting ∨ s.extraction.phase = .running →
          t.extraction.phase = .diverting ∨ t.extraction.phase = .rundown))

/-- R42: a KEY notice whose count the entry already holds is a duplicate: no effect is applied, no KEY record is filed
and the stored count stands. The notice is a valid one from k all the same (R25). What the rules leave open is settled
by assumptions 11 and 12. -/
def Obligations.KeyDuplicateIgnored : Prop :=
  ∀ (now : Time) (l : Line) (rx : Received) (k : Station) (key : KeyKind) (count : Byte) (start : Time) (s : State),
    (s.line l).stage ≠ .busy → (s.line l).place = none → s.started = true →
    crc (covered classKey rx.sender rx.payload) = rx.check → rx.payload = [octet key.code, count] →
    rx.sender.toNat = k.val → k ≠ 0 → k ≠ s.setup.number → (s.line l).receiveStart rx.start = start →
    (s.peers[k]).pressCount key = some count →
    ∃ (t u : State), exec (.keyNotice now l rx) s = .next t ∧ u.refilledFrom t ∧
      u = { s with
        clock := now
        peers := change s.peers k fun p => p.hear l start
        lineA := u.lineA, lineB := u.lineB
        sensing := { s.sensing with unserved := u.anyUnserved }
        record := u.record, flags := u.flags } ∧
      (∀ m : Line, u.line m = { (if m = l then { s.line l with
          stage := .busy
          counters := { (s.line l).counters with valid := bump (s.line l).counters.valid }
          lastValid := some ⟨now, none⟩ } else s.line m) with quiet := u.quietTests m }) ∧
      u.flags = s.flags ||| s.heardFlags u ∧
      u.record = s.record.fileAll now (peerPresentFilings k s.peers[k] ++ s.quietRecords u) ∧
      (t.peers[k]).pressCount key = some count

/-- R42: a KEY notice with another count, or the first one: the count is stored, the record is filed with subject k,
and the key's effect is applied as for a local press (R43, R44, R143). What the rules leave open is settled by
assumptions 7, 11, 12, 15, 36 and 37. -/
def Obligations.KeyNoticeTaken : Prop :=
  ∀ (now : Time) (l : Line) (rx : Received) (k : Station) (key : KeyKind) (count : Byte) (start : Time) (s : State),
    (s.line l).stage ≠ .busy → (s.line l).place = none → s.started = true →
    crc (covered classKey rx.sender rx.payload) = rx.check → rx.payload = [octet key.code, count] →
    rx.sender.toNat = k.val → k ≠ 0 → k ≠ s.setup.number → (s.line l).receiveStart rx.start = start →
    (s.peers[k]).pressCount key ≠ some count →
    ∃ (t u : State), exec (.keyNotice now l rx) s = .next t ∧
      (match key with
        | .silence => ∃ v : State, u.silencedFrom v ∧ v.refilledFrom t
        | .reset => u.resetFrom t) ∧
      s.sameControllers u ∧
      u = { s with
        clock := now
        peers := change s.peers k fun p => (p.hear l start).storePress key count
        lineA := u.lineA, lineB := u.lineB
        sensing := { s.sensing with unserved := u.anyUnserved }
        record := u.record, flags := u.flags } ∧
      (∀ m : Line, u.line m = { (if m = l then { s.line l with
          stage := .busy
          counters := { (s.line l).counters with valid := bump (s.line l).counters.valid }
          lastValid := some ⟨now, none⟩ } else s.line m) with quiet := u.quietTests m }) ∧
      u.flags = s.flags ||| s.heardFlags u ∧
      u.record = s.record.fileAll now (peerPresentFilings k s.peers[k] ++ s.quietRecords u ++
        [⟨key.record, stationOctet k, count.zeroExtend 16⟩]) ∧
      (t.peers[k]).pressCount key = some count

/-- LINE_QUIET and SINGLE_LINE (R22, R28): the two tests of LINE_x_QUIET, no valid notice on the line for 1500 ms,
measured from the start of LISTEN until the first one, and a PRESENT entry heard on the other line within the last 1500
ms, which the model reads as less than 1500 ms ago (assumption 11, not the rule's words); a line comes to be quiet with
a record and its flag; SINGLE_LINE is set on a PRESENT entry unheard on a line for 1500 ms, with its flag and no
record. What the rules leave open is settled by assumptions 11, 12 and 29. -/
def Obligations.QuietAndSingleLines : Prop :=
  (∀ (s : State) (l : Line), s.quietTests l = true ↔
    s.started = true ∧
    (match (s.line l).lastValid with
      | some i => 1500 ≤ i.elapsed s.clock
      | none => ∃ i, s.start.listenStart = some i ∧ 1500 ≤ i.elapsed s.clock) ∧
    ∃ (k : Station) (i : Instant), (s.peers[k]).presence = .present ∧
      (match l with | .a => (s.peers[k]).heardB | .b => (s.peers[k]).heardA) = some i ∧ i.elapsed s.clock < 1500) ∧
  (∀ (now : Time) (l : Line) (s : State),
    exec (.lineQuiet now l) s = .next { (s.takeAt now).withLine l { s.line l with
        quiet := (s.takeAt now).quietTests l } with
      record :=
        if (s.takeAt now).quietTests l && !(s.line l).quiet then
          s.record.file now ⟨.lineQuiet, octet (lineCode l), 0⟩
        else s.record
      flags :=
        if (s.takeAt now).quietTests l && !(s.line l).quiet then
          s.flags ||| (match l with | .a => Attention.lineAQuiet | .b => Attention.lineBQuiet).mask
        else s.flags }) ∧
  (∀ (now : Time) (k : Station) (l : Line) (i : Instant) (s : State),
    (s.peers[k]).presence = .present → (s.peers[k]).single = none →
    latestOf (s.peers[k]).since ((s.peers[k]).heard l) = some i → 1500 ≤ i.elapsed now →
    (l = .b → (s.peers[k]).unheardOn now .a = false) →
    exec (.singleLine now k) s = .next { s with
      clock := now
      peers := change s.peers k fun p => { p with single := some l }
      flags := s.flags ||| Attention.singleLine.mask })

/-- PEER_LOST (R27): an entry unheard on both lines for 1500 ms becomes LOST: state-known, override, press counts and
SINGLE_LINE go, content and instants stay; the record carries the time since its last STATE, and the flag is set. What
the rules leave open is settled by assumptions 7, 11, 12, 20, 36 and 38. -/
def Obligations.PeerIsLost : Prop :=
  ∀ (now : Time) (k : Station) (i : Instant) (s : State),
    (s.peers[k]).presence = .present → latestOf (s.peers[k]).heardA (s.peers[k]).heardB = some i →
    1500 ≤ i.elapsed now →
    ∃ (t u : State), exec (.peerLost now k) s = .next t ∧ u.settledFrom t ∧
      u = { s with
        clock := now
        peers := change s.peers k fun p => { p with
          presence := .lost, known := false, override := none, silence := none, reset := none, single := none }
        lineA := { s.lineA with quiet := u.quietTests .a }
        lineB := { s.lineB with quiet := u.quietTests .b }
        sensing := { s.sensing with unserved := u.anyUnserved }
        sirens := { s.sirens with slowLeader := u.chosenLeader .slow, fastLeader := u.chosenLeader .fast }
        record := u.record, flags := u.flags } ∧
      u.flags = s.flags ||| Attention.peerLost.mask ||| s.heardFlags u ∧
      u.record = s.record.fileAll now (⟨.peerLost, stationOctet k, match (s.peers[k]).received with
        | some r => sat16 (r.elapsed now)
        | none => 0xFFFF#16⟩ :: s.quietRecords u)

/-! ## Keys and heat -/

/-- CALL_PRESS, CALL_RELEASE and HEAT_INPUT_CHANGE (R29, R30, R39, R40). What the rules leave open is settled by
assumptions 7, 20 and 36. -/
def Obligations.CallAndHeatInputs : Prop :=
  (∀ (now : Time) (s : State), s.started = true → s.inputs.call.state = false →
    ∃ t, exec (.callPress now) s = .next t ∧ t.own.level = .evacuate ∧
      ({ s with
        clock := now
        inputs := { s.inputs with call := ⟨true, true, none⟩ }
        lineA := { s.lineA with slots := { s.lineA.slots with call := some s.setup.zone } }
        lineB := { s.lineB with slots := { s.lineB.slots with call := some s.setup.zone } }
        record := s.record.file now ⟨.call, stationOctet s.setup.number, BitVec.ofNat 16 s.setup.zone.val⟩ } :
          State).settledFrom t) ∧
  (∀ (now : Time) (s : State), s.started = true → s.inputs.call.state = true →
    ∃ t, exec (.callRelease now) s = .next t ∧
      ({ s with clock := now, inputs := { s.inputs with call := ⟨false, false, none⟩ } } : State).settledFrom t) ∧
  (∀ (now : Time) (active : Bool) (s : State), s.started = true → s.inputs.heat.state = !active →
    ∃ t, exec (.heatInputChange now active) s = .next t ∧
      ({ s with clock := now, inputs := { s.inputs with heat := ⟨active, active, none⟩ } } : State).settledFrom t)

/-- SILENCE_PRESS (R41, R44, R143). What the rules leave open is settled by assumptions 31 and 36. -/
def Obligations.SilencePressed : Prop :=
  ∀ (now : Time) (s : State), s.started = true →
    ∃ (t v : State), exec (.silencePress now) s = .next t ∧
      ({ s with
        clock := now
        press := { s.press with silence := s.press.silence + 1 }
        inputs := { s.inputs with silence := ⟨true, true, none⟩ }
        record := s.record.file now
          ⟨.keySilence, stationOctet s.setup.number, (s.press.silence + 1).zeroExtend 16⟩ } : State).silencedFrom v ∧
      t = { v with
        lineA := { v.lineA with slots := { v.lineA.slots with silence := some (s.press.silence + 1) } }
        lineB := { v.lineB with slots := { v.lineB.slots with silence := some (s.press.silence + 1) } } }

/-- RESET_PRESS (R41, R43). What the rules leave open is settled by assumptions 7, 11, 15, 31, 36 and 37. -/
def Obligations.ResetPressed : Prop :=
  ∀ (now : Time) (s : State), s.started = true →
    ∃ (t v : State), exec (.resetPress now) s = .next t ∧
      ({ s with
        clock := now
        press := { s.press with reset := s.press.reset + 1 }
        inputs := { s.inputs with reset := ⟨true, true, none⟩ }
        record := s.record.file now
          ⟨.keyReset, stationOctet s.setup.number, (s.press.reset + 1).zeroExtend 16⟩ } : State).resetFrom v ∧
      t = { v with
        lineA := { v.lineA with slots := { v.lineA.slots with reset := some (s.press.reset + 1) } }
        lineB := { v.lineB with slots := { v.lineB.slots with reset := some (s.press.reset + 1) } } }

/-- START_PRESS (R44, R106, R108, R116): accepted in STANDBY or STOPPED with no condition standing, refused there with
one, and without effect in the other phases, before OPERATING and without the FAN role. In a state whose picture and
barriers stand, as they do at every instant, a press without effect leaves the levels, the views, the valves, the phase,
the causes, the record and the flags as they are, and a refused one adds its record and its flag alone. What the rules
leave open is settled by assumptions 7, 20, 31 and 36. -/
def Obligations.StartPressed : Prop :=
  ∀ (now : Time) (s : State), s.started = true →
    ((s.operating = false ∨ s.hasFan = false) →
      exec (.startPress now) s = .next { s with
        clock := now, inputs := { s.inputs with start := ⟨true, true, none⟩ } }) ∧
    (s.operating = true → s.hasFan = true → s.pictureStands →
      (s.extraction.phase = .standby ∨ s.extraction.phase = .stopped) → s.extraction.conditions = ⟨false, false, false⟩ →
      ∃ t, exec (.startPress now) s = .next t ∧
        t.apart = ({ s with clock := now, inputs := { s.inputs with start := ⟨true, true, none⟩ } } : State).apart ∧
        t.extraction.apart = ({ s.extraction with
          lowFlow := false, lowCount := 0, goodCount := 0, starts := bump s.extraction.starts } : Extraction).apart ∧
        t.extraction.phase = .starting ∧ t.extraction.causes = 0 ∧ t.extraction.first = none ∧
        t.extraction.timer = some (after now (s.setup.extraction.startGrace * 1000)) ∧
        t.extraction.mode = .continuous ∧ t.extraction.phase.contactorOn = true ∧ t.extraction.phase.gateOn = false ∧
        t.zones = s.zones ∧ t.own = s.own ∧ t.valves = s.valves ∧ t.flood = s.flood ∧ t.flags = s.flags ∧
        s.filed t ⟨.fanPhase, 1, BitVec.ofNat 16 (bitAt s.extraction.gateFail 9 + bitAt s.extraction.rundownSlow 8)⟩ ∧
        t.reportStands ∧
        ∃ u : State, u.settledFrom t ∧ ({ s with
          clock := now
          inputs := { s.inputs with start := ⟨true, true, none⟩ }
          extraction := { s.extraction with
            phase := .starting
            causes := 0
            first := none
            lowFlow := false
            lowCount := 0
            goodCount := 0
            timer := some (after now (s.setup.extraction.startGrace * 1000))
            starts := bump s.extraction.starts } } : State).phaseEntered u) ∧
    (s.operating = true → s.hasFan = true →
      (s.extraction.phase = .standby ∨ s.extraction.phase = .stopped) → s.extraction.conditions.any = true →
      ∃ t, exec (.startPress now) s = .next t ∧
        ({ s with
          clock := now
          inputs := { s.inputs with start := ⟨true, true, none⟩ }
          extraction := { s.extraction with refusals := bump s.extraction.refusals }
          record := s.record.file now
            ⟨.startRefused, octet s.extraction.phase.code, s.extraction.conditions.bits⟩
          flags := s.flags ||| Attention.startRefused.mask } : State).settledFrom t ∧
        (s.pictureStands →
          t.extraction.phase = s.extraction.phase ∧ t.extraction.causes = s.extraction.causes ∧
          t.extraction.first = s.extraction.first ∧ t.extraction.conditions = s.extraction.conditions ∧
          t.own = s.own ∧ t.zones = s.zones ∧ t.views = s.views ∧ t.flood = s.flood ∧ t.valves = s.valves ∧
          t.flags = s.flags ||| Attention.startRefused.mask ∧
          (s.barriersFollow → t.record = s.record.file now
            ⟨.startRefused, octet s.extraction.phase.code, s.extraction.conditions.bits⟩))) ∧
    (s.operating = true → s.hasFan = true → s.extraction.phase ≠ .standby → s.extraction.phase ≠ .stopped →
      ∃ t, exec (.startPress now) s = .next t ∧
        ({ s with clock := now, inputs := { s.inputs with start := ⟨true, true, none⟩ } } : State).settledFrom t ∧
        (s.pictureStands →
          t.extraction.phase = s.extraction.phase ∧ t.extraction.causes = s.extraction.causes ∧
          t.extraction.first = s.extraction.first ∧ t.extraction.conditions = s.extraction.conditions ∧
          t.own = s.own ∧ t.zones = s.zones ∧ t.views = s.views ∧ t.flood = s.flood ∧ t.valves = s.valves ∧
          t.flags = s.flags ∧ (s.barriersFollow → t.record = s.record)))

/-- STOP_PRESS (R44, R115, R117): the cause STOP_KEY in every phase but STANDBY; from STARTING and RUNNING the phase
becomes DIVERTING, and RUNDOWN at once with the gate feedback active. What the rules leave open is settled by
assumptions 7, 20, 31 and 36. -/
def Obligations.StopPressed : Prop :=
  ∀ (now : Time) (s : State), s.started = true →
    ((s.operating = false ∨ s.hasFan = false) →
      exec (.stopPress now) s = .next { s with
        clock := now, inputs := { s.inputs with stop := ⟨true, true, none⟩ } }) ∧
    (s.operating = true → s.hasFan = true →
      ∃ t, exec (.stopPress now) s = .next t ∧
        ({ s with clock := now, inputs := { s.inputs with stop := ⟨true, true, none⟩ } } : State).settledFrom t [.stopKey] ∧
        (s.extraction.phase = .standby → t.extraction.phase = .standby ∧ t.extraction.causes = s.extraction.causes ∧
          t.extraction.first = s.extraction.first) ∧
        (s.extraction.phase ≠ .standby → hasCause t.extraction.causes .stopKey = true) ∧
        (s.extraction.phase = .starting ∨ s.extraction.phase = .running →
          t.extraction.phase = (if s.feedbackOf s.gateOutput then .rundown else .diverting) ∧
          (s.pictureStands → t.extraction.first = some .stopKey)) ∧
        (s.extraction.phase = .diverting ∨ s.extraction.phase = .rundown ∨ s.extraction.phase = .stopped →
          t.extraction.phase = s.extraction.phase ∧ t.extraction.first = s.extraction.first))

/-! ## Spark channels -/

/-- SENSOR_PULSE_START, SENSOR_PULSE_END on a blinded channel, BLINDED and BLINDED_CLEAR (R45, R46, R47, R58): a rising
edge begins a pulse, 250 ms of high blind the channel and abandon it, and 1000 ms of low, measured from the last
falling edge, clear BLINDED; each change of the flag files its record. That an edge command is taken as its edge
whatever the level of the pin was is the model's choice (assumption 42). What the rules leave open is settled by
assumptions 1, 10 and 42. -/
def Obligations.ChannelEdges : Prop :=
  ∀ (now : Time) (c : Channel) (s : State),
    ((s.permitted && s.setup.channels[c].enabled) = false →
      exec (.sensorPulseStart now c) s = .next { s with
        clock := now, inputs := { s.inputs with spark := put s.inputs.spark c true } } ∧
      ∀ width : Nat, exec (.sensorPulseEnd now c width) s = .next { s with
        clock := now, inputs := { s.inputs with spark := put s.inputs.spark c false } }) ∧
    (s.permitted = true → s.setup.channels[c].enabled = true →
      exec (.sensorPulseStart now c) s = .next { s with
        clock := now
        inputs := { s.inputs with spark := put s.inputs.spark c true }
        sensing := { s.sensing with
          channels := put s.sensing.channels c
            (if (s.channel c).blinded then { s.channel c with lowSince := none }
          else { s.channel c with pulse := some now }) } } ∧
      ((s.channel c).blinded = true → ∀ width : Nat,
        exec (.sensorPulseEnd now c width) s = .next { s with
          clock := now
          inputs := { s.inputs with spark := put s.inputs.spark c false }
          sensing := { s.sensing with
            channels := put s.sensing.channels c
              { s.channel c with lowSince := some now } } }) ∧
      (∀ pulse : Time, (s.channel c).blinded = false → (s.channel c).pulse = some pulse →
        reached now (after pulse 250) = true →
        ∃ t, exec (.blinded now c) s = .next t ∧ ({ s with
          clock := now
          sensing := { s.sensing with
            channels := put s.sensing.channels c
              { s.channel c with pulse := none, blinded := true, lowSince := none } }
          record := s.record.file now ⟨.sensorFlag, octet c.val,
            BitVec.ofNat 16 (1 + bitAt (s.channel c).silent 1 + bitAt (s.channel c).noisy 2)⟩
          flags := s.flags ||| Attention.sensorFault.mask } : State).refilledFrom t) ∧
      (∀ low : Time, (s.channel c).blinded = true → (s.channel c).lowSince = some low →
        reached now (after low 1000) = true →
        ∃ t, exec (.blindedClear now c) s = .next t ∧ ({ s with
          clock := now
          sensing := { s.sensing with
            channels := put s.sensing.channels c
              { s.channel c with blinded := false, lowSince := none } }
          record := s.record.file now ⟨.sensorFlag, octet c.val,
            BitVec.ofNat 16 (bitAt (s.channel c).silent 1 + bitAt (s.channel c).noisy 2)⟩ } : State).refilledFrom t))

/-- SENSOR_PULSE_END, the classes but spark (R46, R47, R48, R56, R57, Table 3.4), by the width in steps of 10 µs: below
0.1 ms a glitch without effect; from 8 to 20 ms and from 60 to 250 ms noise, which sets NOISY when the window count
reaches 10; from 20 to 60 ms a test pulse, which clears SILENT and restarts the test interval while OPERATING; from 250
ms the channel is blinded and its low time begins. What the rules leave open is settled by assumptions 10 and 42. -/
def Obligations.PulseClasses : Prop :=
  ∀ (now : Time) (c : Channel) (width : Nat) (pulse : Time) (s : State),
    s.permitted = true → s.setup.channels[c].enabled = true → (s.channel c).blinded = false →
    (s.channel c).pulse = some pulse →
    let x := s.channel c
    let taken (y : SparkChannel) : State := { s with
      clock := now
      inputs := { s.inputs with spark := put s.inputs.spark c false }
      sensing := { s.sensing with channels := put s.sensing.channels c y } }
    (width < 10 → exec (.sensorPulseEnd now c width) s = .next (taken { x with pulse := none })) ∧
    ((800 ≤ width ∧ width < 2000) ∨ (6000 ≤ width ∧ width < 25000) →
      let y := { x with pulse := none, noise := bump x.noise, noiseBuckets := put x.noiseBuckets 0 (bump x.noiseBuckets[0]) }
      ∃ t, exec (.sensorPulseEnd now c width) s = .next t ∧
        (if x.noisy = false ∧ 10 ≤ windowCount y.noiseBuckets then { taken { y with noisy := true } with
          record := s.record.file now
            ⟨.sensorFlag, octet c.val, BitVec.ofNat 16 (bitAt x.blinded 0 + bitAt x.silent 1 + 4)⟩
          flags := s.flags ||| Attention.sensorFault.mask }
        else taken y).refilledFrom t) ∧
    (2000 ≤ width → width < 6000 →
      let y := { x with
        pulse := none
        tests := bump x.tests
        testTimer := if s.operating then some (after now (s.setup.sensing.testInterval * 1000)) else x.testTimer }
      ∃ t, exec (.sensorPulseEnd now c width) s = .next t ∧
        (if s.operating = true ∧ x.silent = true then { taken { y with silent := false } with
          record := s.record.file now
            ⟨.sensorFlag, octet c.val, BitVec.ofNat 16 (bitAt x.blinded 0 + bitAt x.noisy 2)⟩ }
        else taken y).refilledFrom t) ∧
    (25000 ≤ width → ∃ t, exec (.sensorPulseEnd now c width) s = .next t ∧
      ({ taken { x with pulse := none, blinded := true, lowSince := some now } with
        record := s.record.file now
          ⟨.sensorFlag, octet c.val, BitVec.ofNat 16 (1 + bitAt x.silent 1 + bitAt x.noisy 2)⟩
        flags := s.flags ||| Attention.sensorFault.mask } : State).refilledFrom t)

/-- SENSOR_PULSE_END, a spark (R49, R50, R52, R54, R55, R59, R60, R63, R69, R78, R114): a width from 0.1 to 8 ms. The
spark is counted, may enter the storm and start the escalation timer, restarts the watch hold, fills or coalesces into
the SPARK slot of each line, and is handed to release timing at a station with a VALVE output; u is the state with all
that, and its consequences follow, with the cause UNSERVED for an unserved channel on a branch of the fan station's
duct system. What the rules leave open is settled by assumptions 7, 10, 20, 32, 36 and 42. -/
def Obligations.SparkTaken : Prop :=
  ∀ (now : Time) (c : Channel) (width : Nat) (pulse : Time) (s : State),
    s.permitted = true → s.setup.channels[c].enabled = true → (s.channel c).blinded = false →
    (s.channel c).pulse = some pulse → 10 ≤ width → width < 800 →
    let x := s.channel c
    let counted := { x with
      pulse := none, sparks := bump x.sparks, sparkBuckets := put x.sparkBuckets 0 (bump x.sparkBuckets[0]) }
    let enters := x.storm.isNone && decide (s.setup.sensing.stormOn ≤ windowCount counted.sparkBuckets)
    let slot (r : Option SparkReport) : SparkReport := match r with
      | none => ⟨⟨pulse, none⟩, 0, 1, false, !s.served c, s.setup.channels[c].branch, s.setup.channels[c].position⟩
      | some r => { r with
          count := min 255 (r.count + 1)
          span := min 4095 (r.first.elapsed pulse)
          stale := r.stale || decide (4095 ≤ r.first.elapsed pulse)
          unserved := !s.served c }
    let filled (y : LineInterface) : LineInterface :=
      { y with slots := { y.slots with spark := put y.slots.spark c (some (slot y.slots.spark[c])) } }
    let report : Report := ⟨.own, s.setup.number, s.setup.channels[c].branch, s.setup.channels[c].position, pulse, 0, false⟩
    let unserved := !s.served c && s.hasFan && s.branchServed s.setup.channels[c].branch
    ∃ (t u : State), exec (.sensorPulseEnd now c width) s = .next t ∧
      u.settledFrom t (if unserved then [.unserved] else []) ∧
      u = { s with
        clock := now
        inputs := { s.inputs with spark := put s.inputs.spark c false }
        own := { s.own with watchHold := some (after now 60000) }
        sensing := { s.sensing with
          channels := put s.sensing.channels c
            (if enters then { counted with storm := some ⟨⟨now, none⟩, 0⟩ } else counted)
          escalation :=
            if enters = true ∧ s.sensing.escalation = none ∧ s.own.escalation = false ∧
              s.setup.sensing.escalation ≠ 0 then some (after now (s.setup.sensing.escalation * 1000))
            else s.sensing.escalation }
        lineA := filled s.lineA
        lineB := filled s.lineB
        valves := u.valves, record := u.record, flags := u.flags } ∧
      (∀ (o : Output) (e : Branch) (pe reach : Nat), s.hasValve = true → s.role o = .valve e pe reach →
        u.valves[o] = ((s.takeAt now).valveAfter o report ((s.takeAt now).computedFor report e pe reach)).1) ∧
      (∀ o : Output, (s.hasValve = false ∨ (s.role o).isValve = false) → u.valves[o] = s.valves[o]) ∧
      u.record = s.record.fileAll now
        ((if enters then [⟨.stormOn, octet c.val, sat16 (windowCount counted.sparkBuckets)⟩] else []) ++
          if s.hasValve then (indexes 4).flatMap ((s.takeAt now).reportRecords report) else []) ∧
      u.flags = s.flags ||| (if s.hasValve then (s.takeAt now).reportFlags report else 0) ∧ t.own.level.atLeast .watch = true ∧
      (unserved = true → s.extraction.phase ≠ .standby →
        hasCause t.extraction.causes .unserved = true ∧
        (s.extraction.phase = .starting ∨ s.extraction.phase = .running →
          t.extraction.phase = .diverting ∨ t.extraction.phase = .rundown))

/-- BUCKET_BOUNDARY (R50, R53, R54, R57): each active channel drops its oldest bucket of either kind and begins a new
one; a storm ends at the fourth successive boundary with the window count at or below the off threshold; NOISY clears
with an empty window; the escalation timer stops when no channel is in storm. What the rules leave open is settled by
assumptions 7, 20, 30 and 36. -/
def Obligations.BucketBoundaryTurns : Prop :=
  ∀ (now : Time) (s : State), s.permitted = true → now.toNat % 1000 = 0 → s.sensing.lastBoundary ≠ some now →
    ∃ (t u : State), exec (.bucketBoundary now) s = .next t ∧ u.settledFrom t ∧
      u = { s with clock := now, sensing := u.sensing, record := u.record } ∧
      (∀ c : Channel, s.setup.channels[c].enabled = false → u.channel c = s.channel c) ∧
      (∀ c : Channel, s.setup.channels[c].enabled = true →
        let x := s.channel c
        let y := u.channel c
        (y.sparkBuckets[0] = 0 ∧ ∀ i : Fin 9, y.sparkBuckets[i.val + 1] = x.sparkBuckets[i.val]) ∧
        (y.noiseBuckets[0] = 0 ∧ ∀ i : Fin 9, y.noiseBuckets[i.val + 1] = x.noiseBuckets[i.val]) ∧
        y.noisy = (x.noisy && windowCount y.noiseBuckets != 0) ∧
        (x.storm = none → y.storm = none) ∧
        (∀ m : Storm, x.storm = some m →
          y.storm =
            if windowCount y.sparkBuckets ≤ s.setup.sensing.stormOff then
              if 3 ≤ m.exitCount then none else some ⟨m.entry, m.exitCount + 1⟩
            else some ⟨m.entry, 0⟩) ∧
        y = { x with
          sparkBuckets := y.sparkBuckets, noiseBuckets := y.noiseBuckets, noisy := y.noisy, storm := y.storm }) ∧
      u.sensing.lastBoundary = some now ∧ u.sensing.unserved = s.sensing.unserved ∧
      u.sensing.escalation = (if u.anyStorm then s.sensing.escalation else none) ∧
      u.record = s.record.fileAll now ((indexes 4).flatMap fun c =>
        (match (s.channel c).storm, (u.channel c).storm with
          | some m, none => [⟨.stormOff, octet c.val, sat16 (m.entry.elapsed now / 1000)⟩]
          | _, _ => []) ++
        (if (s.channel c).noisy = true ∧ (u.channel c).noisy = false then
          [⟨.sensorFlag, octet c.val,
            BitVec.ofNat 16 (bitAt (s.channel c).blinded 0 + bitAt (s.channel c).silent 1)⟩]
        else []))

/-- ESCALATED, WATCH_HOLD_EXPIRY and SILENT (R29, R54, R55, R56, R58). What the rules leave open is settled by
assumptions 7, 20 and 36. -/
def Obligations.ChannelTimers : Prop :=
  (∀ (now deadline : Time) (c : Channel) (s : State), s.sensing.escalation = some deadline →
    reached now deadline = true → (s.channel c).storm.isSome = true →
    (∀ d : Channel, d < c → (s.channel d).storm = none) →
    ∃ t, exec (.escalated now) s = .next t ∧
      ({ s with
        clock := now
        own := { s.own with escalation := true }
        sensing := { s.sensing with escalation := none }
        record := s.record.file now ⟨.escalated, octet c.val, sat16 s.setup.sensing.escalation⟩ } :
          State).settledFrom t ∧
      (s.started = true → t.own.level.atLeast .fire = true)) ∧
  (∀ (now deadline : Time) (s : State), s.own.watchHold = some deadline → reached now deadline = true →
    ∃ t, exec (.watchHoldExpiry now) s = .next t ∧
      ({ s with clock := now, own := { s.own with watchHold := none } } : State).settledFrom t ∧
      t.own.level ≠ .watch) ∧
  (∀ (now deadline : Time) (c : Channel) (s : State), (s.channel c).testTimer = some deadline →
    reached now deadline = true →
    ∃ t, exec (.silent now c) s = .next t ∧
      ({ s with
        clock := now
        sensing := { s.sensing with
          channels := put s.sensing.channels c
            { s.channel c with testTimer := none, silent := true } }
        record := s.record.file now ⟨.sensorFlag, octet c.val,
          BitVec.ofNat 16 (bitAt (s.channel c).blinded 0 + 2 + bitAt (s.channel c).noisy 2)⟩
        flags := s.flags ||| Attention.sensorFault.mask } : State).refilledFrom t)

/-! ## Release timing -/

/-- R71 to R76, from a report to its window, over every branch table and report. The path: one segment on the valve's
own branch, two from a feeder of it, and otherwise none, so NOT_DOWNSTREAM; longer than the reach, BEYOND_REACH,
untimed or not. The velocity tests in their order, each with its flood reason, and the three velocities of each segment
of nonzero length, on the fan view of the valve's duct system, which at a fan station is for its own system its own
controller's state. The window's two instants from the sums of the transit times, and the tests in their order: with
the close at or before now the outcome is MISSED; otherwise TIMED, the open the computed one or now (LATE), the close
the computed one or the open plus 10 000 ms (CLIPPED), and one millisecond after an equal open. An outcome without a
window is counted, recorded when MISSED, and hands nothing on. Premise of the window: the computed close is not before
the computed open, as R74 and R75 give it. What the rules leave open is settled by assumption 33. -/
def Obligations.TimedWindowIsBounded : Prop :=
  (∀ (u : Setup) (b e : Branch) (pd pe : Nat),
    let entry := u.branches[b]
    let stands := min pd entry.length
    (entry.length = 0 → u.path b pd e pe = none) ∧
    (entry.length ≠ 0 → entry.system ≠ u.branches[e].system → u.path b pd e pe = none) ∧
    (entry.length ≠ 0 → entry.system = u.branches[e].system →
      (b = e → u.path b pd e pe = if stands < pe then some [⟨b, pe - stands⟩] else none) ∧
      (b ≠ e → entry.parent = some e →
        u.path b pd e pe = if entry.join < pe then some [⟨b, entry.length - stands⟩, ⟨e, pe - entry.join⟩] else none) ∧
      (b ≠ e → entry.parent ≠ some e → u.path b pd e pe = none))) ∧
  (∀ (now : Time) (u : Setup) (view : Option ViewData) (r : Report) (e : Branch) (pe reach : Nat),
    (u.path r.branch r.position e pe = none → u.compute now view r e pe reach = .notDownstream) ∧
    ∀ path, u.path r.branch r.position e pe = some path → reach < (path.map Segment.length).sum →
      u.compute now view r e pe reach = .beyondReach) ∧
  (∀ (u : Setup) (path : List Segment),
    u.timing? none path = .error .viewNotFresh ∧
    ∀ v : ViewData,
      let steady := v.phase = .running ∨ v.phase = .diverting
      let segments := (path.filter fun g => decide (0 < g.length)).map fun g =>
        let w := min 1000 (min 1000 v.velocity * u.branches[g.branch].factor / 64)
        (⟨g.length, w, w * (100 + u.timing.spread) / 100, w * (100 - u.timing.spread) / 100⟩ : Velocities)
      (¬steady → u.timing? (some v) path = .error .fanPhase) ∧
      (steady → v.lowFlow = true → u.timing? (some v) path = .error .lowFlow) ∧
      (steady → v.lowFlow = false → 3000 < v.age → u.timing? (some v) path = .error .sampleOld) ∧
      (steady → v.lowFlow = false → v.age ≤ 3000 → v.velocity = 0 → u.timing? (some v) path = .error .noVelocity) ∧
      (steady → v.lowFlow = false → v.age ≤ 3000 → v.velocity ≠ 0 →
        ((∃ g ∈ segments, g.low < u.timing.floor) → u.timing? (some v) path = .error .belowFloor) ∧
        ((∀ g ∈ segments, u.timing.floor ≤ g.low) → u.timing? (some v) path = .ok segments))) ∧
  (∀ (u : Setup) (view : Option ViewData) (path : List Segment) (gs : List Velocities),
    u.timing? view path = .ok gs → 20 ≤ u.timing.floor →
    let early := (gs.map fun g => g.length * 1000 / g.high).sum
    let late := (gs.map fun g => (g.length * 1000 + (g.low - 1)) / g.low).sum
    (∀ g ∈ gs, 0 < g.length ∧ 20 ≤ g.low ∧ g.low ≤ g.high) ∧ early ≤ late ∧
      ((path.map Segment.length).sum ≤ 2000 → late ≤ 100000)) ∧
  (∀ (r : Report) (e : Branch) (pe reach : Nat) (s : State),
    let d := s.setup.branches[e].system
    let own : ViewData :=
      ⟨s.extraction.phase, s.extraction.velocity, s.sampleAge, s.extraction.lowFlow, s.extraction.causes⟩
    s.computedFor r e pe reach =
      s.setup.compute s.clock (if s.hasFan = true ∧ s.setup.system = d then some own else s.viewData d) r e pe reach ∧
    (s.views[d].source = some s.setup.number → s.viewData d = some own)) ∧
  (∀ (now : Time) (u : Setup) (view : Option ViewData) (r : Report) (e : Branch) (pe reach : Nat) (path : List Segment)
      (gs : List Velocities),
    u.path r.branch r.position e pe = some path → pathLength path ≤ reach → r.untimed = false →
    u.timing? view path = .ok gs →
    let early := (gs.map fun g => g.length * 1000 / g.high).sum
    let late := (gs.map fun g => (g.length * 1000 + (g.low - 1)) / g.low).sum
    let opens := r.t0 + BitVec.ofNat 32 early - BitVec.ofNat 32 u.timing.lead
    let closes := r.t0 + BitVec.ofNat 32 (r.span + late + u.timing.hold)
    later opens closes = false →
    (later closes now = false → u.compute now view r e pe reach = .missed (now - closes).toNat) ∧
    (later closes now = true →
      ∃ (o c : Time) (late clipped : Bool), u.compute now view r e pe reach = .timed o c late clipped ∧
        late = later now opens ∧ o = (if late then now else opens) ∧
        clipped = decide (10000 < (closes - o).toNat) ∧
        c = (if clipped then after o 10000 else if closes = o then after o 1 else closes) ∧
        later c o = true ∧ later now o = false ∧ 1 ≤ (c - o).toNat ∧ (c - o).toNat ≤ 10000)) ∧
  (∀ (o : Output) (r : Report) (e : Branch) (pe reach : Nat) (s : State), s.role o = .valve e pe reach →
    let k := s.valves[o].outcomes
    let without (outcome : ReleaseOutcome) (k : OutcomeCounters) : State := { s with
      valves := put s.valves o { s.valves[o] with
        outcomes := k
        last := some ⟨r.source, r.station, r.branch, s.setup.clampedPosition r.branch r.position, outcome, s.clock, false,
          false, none, none⟩ } }
    (s.computedFor r e pe reach = .notDownstream →
      s.releaseFor r o = without .notDownstream { k with notDownstream := bump k.notDownstream }) ∧
    (s.computedFor r e pe reach = .beyondReach →
      s.releaseFor r o = without .beyondReach { k with beyondReach := bump k.beyondReach }) ∧
    ∀ missed : Nat, s.computedFor r e pe reach = .missed missed →
      s.releaseFor r o = { without .missed { k with missed := bump k.missed } with
        record := s.record.file s.clock ⟨.windowMissed, octet o.val, sat16 missed⟩ })

/-- R77: a report sent to flood has the outcome FLOOD with the window from now for the flood hold, no LATE or CLIPPED mark,
the reason given where it was sent to flood (R70, R73, R74), and the FLOOD counter incremented. -/
def Obligations.FloodWindowTaken : Prop :=
  (∀ (now : Time) (u : Setup) (view : Option ViewData) (r : Report) (e : Branch) (pe reach : Nat) (path : List Segment),
    u.path r.branch r.position e pe = some path → pathLength path ≤ reach →
    (r.untimed = true →
      u.compute now view r e pe reach = .flood now (after now u.timing.floodHold) .untimed) ∧
    (∀ reason : FloodReason, r.untimed = false → u.timing? view path = .error reason →
      u.compute now view r e pe reach = .flood now (after now u.timing.floodHold) reason)) ∧
  (∀ (o : Output) (r : Report) (opens closes now : Time) (reason : FloodReason) (s : State),
    let x := Computed.flood opens closes reason
    let v := (s.valveAfter o r x).1
    x.window = some ⟨⟨opens, none⟩, ⟨closes, none⟩, ⟨false, false, true⟩⟩ ∧
    v.outcomes = { s.valves[o].outcomes with flood := bump s.valves[o].outcomes.flood } ∧
    v.last = some ⟨r.source, r.station, r.branch, s.setup.clampedPosition r.branch r.position, .flood, s.clock, false, false,
      some (opens, closes), some reason⟩ ∧
    (x.lastReport now r 0).late = false ∧ (x.lastReport now r 0).clipped = false)

/-! ## Extinguishing valves -/

/-- The release schedule. WINDOW_OPEN and WINDOW_CLOSE (R87, R88, R89 to R93, R96, R99): an IDLE valve whose first
window has opened turns on, and passes to FLOWING at once with its flow switch active; at the close the window goes,
and while OPERATING the output turns off, or CUT ends, and the next window opens at once if its open has come. A window
inserted (R83 to R86) merges with every window within g of it, and what it has become with every further one, and with
nothing else; with nothing merged it joins a list of fewer than eight, and in a list of eight it merges with the window
whose open is nearest. The schedule stays in order, each window more than g after the one before it, and no window is
lost: each is there as it was or is covered by the new one, which carries the marks of all it covers. A report's TIMED
or FLOOD window is inserted so (R78), and its outcome, LATE and CLIPPED are counted with the last report (R79, R80);
while OPERATING an IDLE valve whose first window is then open opens at the insertion; and a saturation is counted,
recorded and flagged. What the rules leave open is settled by assumption 35. -/
def Obligations.WindowsOpenAndClose : Prop :=
  (∀ (g : Nat) (base : Time) (w : Window) (ws : List Window),
    g < 2 ^ 30 → (∀ x ∈ w :: ws, x.opens.near base ∧ x.closes.near base) → w.closes.later w.opens = true →
    inSchedule g ws → ws.length ≤ 8 →
    let r := insertWindow g w ws
    let apart := ∀ x ∈ ws, x.opens.later (w.closes.after g) = true ∨ w.opens.later (x.closes.after g) = true
    let nearest (n : Window) : Prop := n ∈ ws ∧ ∀ x ∈ ws, openDistance w n ≤ openDistance w x ∧
      (openDistance w n = openDistance w x → x.opens.later n.opens = true ∨ x = n)
    inSchedule g r.schedule ∧ r.schedule.length ≤ 8 ∧
    (r.saturated.isSome = true ↔ apart ∧ ws.length = 8) ∧
    ∃ v : Window,
      (∀ x, x ∈ r.schedule ↔ x = v ∨ (x ∈ ws ∧ ¬v.covers x)) ∧ v.covers w ∧
      (r.saturated.isSome = true → r.saturated = some (v.closes.reading - v.opens.reading).toNat ∧
        ∃ n, nearest n ∧ v.covers n) ∧
      (∀ x : Window, x.opens.near base → x.closes.near base → x.covers w →
        (∀ y ∈ ws, y.opens.later (x.closes.after g) = false → x.opens.later (y.closes.after g) = false → x.covers y) →
        (r.saturated.isSome = true → ∀ n, nearest n → x.covers n) → x.covers v) ∧
      (v.marks.late = true ↔ ∃ x ∈ w :: ws, v.covers x ∧ x.marks.late = true) ∧
      (v.marks.clipped = true ↔ ∃ x ∈ w :: ws, v.covers x ∧ x.marks.clipped = true) ∧
      (v.marks.flood = true ↔ ∃ x ∈ w :: ws, v.covers x ∧ x.marks.flood = true)) ∧
  (∀ (o : Output) (r : Report) (s : State) (e : Branch) (pe reach : Nat), s.role o = .valve e pe reach →
    let v := s.valves[o]
    let k := v.outcomes
    let x := s.computedFor r e pe reach
    let reported (outcome : ReleaseOutcome) (late clipped : Bool) (w : Time × Time) (reason : Option FloodReason) :
      LastReport := ⟨r.source, r.station, r.branch, s.setup.clampedPosition r.branch r.position, outcome, s.clock, late,
        clipped, some w, reason⟩
    let handed (w : Window) (k : OutcomeCounters) (last : LastReport) : Valve × Option Nat :=
      let i := insertWindow s.setup.valves.gap w v.schedule
      let taken : Valve := { v with
        outcomes := k
        last := some last
        schedule := i.schedule
        saturations := if i.saturated.isSome then bump v.saturations else v.saturations }
      (if s.operating && v.state == .idle && i.schedule.head?.any fun n => !n.opens.later ⟨s.clock, none⟩ then
        { taken with
          state := if s.feedback o then .flowing else .opening
          confirmTimer := if s.feedback o then none else some (after s.clock s.setup.valves.confirm)
          openSince := some ⟨s.clock, none⟩
          stuckTimer := none
          counters := { v.counters with
            openings := bump v.counters.openings
            underTrouble := if v.trouble then bump v.counters.underTrouble else v.counters.underTrouble
            confirmed := if s.feedback o then bump v.counters.confirmed else v.counters.confirmed } }
      else taken, i.saturated)
    (∀ (opens closes : Time) (late clipped : Bool), x = .timed opens closes late clipped →
      s.valveAfter o r x = handed ⟨⟨opens, none⟩, ⟨closes, none⟩, ⟨late, clipped, false⟩⟩
        { k with
          timed := bump k.timed
          late := if late then bump k.late else k.late
          clipped := if clipped then bump k.clipped else k.clipped }
        (reported .timed late clipped (opens, closes) none)) ∧
    (∀ (opens closes : Time) (reason : FloodReason), x = .flood opens closes reason →
      s.valveAfter o r x = handed ⟨⟨opens, none⟩, ⟨closes, none⟩, ⟨false, false, true⟩⟩ { k with flood := bump k.flood }
        (reported .flood false false (opens, closes) (some reason))) ∧
    s.releaseFor r o = { s with
      valves := put s.valves o (s.valveAfter o r x).1
      record := s.record.fileAll s.clock ((match x with
          | .missed late => [⟨.windowMissed, octet o.val, sat16 late⟩]
          | _ => []) ++ match (s.valveAfter o r x).2 with
          | some length => [⟨.scheduleSaturated, octet o.val, sat16 length⟩]
          | none => [])
      flags := if (s.valveAfter o r x).2.isSome then s.flags ||| Attention.scheduleSaturated.mask else s.flags }) ∧
  ∀ (now : Time) (o : Output) (w : Window) (ws : List Window) (s : State),
    (s.role o).isValve = true → (s.valve o).schedule = w :: ws →
    let opened (v : Valve) : Valve := { v with
      state := if s.feedback o then .flowing else .opening
      confirmTimer := if s.feedback o then none else some (after now s.setup.valves.confirm)
      openSince := some ⟨now, none⟩
      stuckTimer := none
      counters := { v.counters with
        openings := bump v.counters.openings
        underTrouble := if v.trouble then bump v.counters.underTrouble else v.counters.underTrouble
        confirmed := if s.feedback o then bump v.counters.confirmed else v.counters.confirmed } }
    let ended (v : Valve) : Valve := match v.state with
      | .idle => { v with schedule := ws }
      | .cut => { v with schedule := ws, state := .idle }
      | .opening | .flowing | .flowingUnconfirmed => { v with
          schedule := ws
          state := .idle
          confirmTimer := none
          openSince := none
          stuckTimer := if s.feedback o = true ∧ v.stuck = false then some (after now s.setup.valves.confirm) else none
          counters := { v.counters with
            short := if v.state = .opening then bump v.counters.short else v.counters.short } }
    (s.operating = true → (s.valve o).state = .idle → w.opens.later ⟨now, none⟩ = false →
      exec (.windowOpen now o) s = .next { s with clock := now, valves := put s.valves o (opened (s.valve o)) }) ∧
    (w.closes.later ⟨now, none⟩ = false → s.operating = false →
      exec (.windowClose now o) s = .next { s with
        clock := now, valves := put s.valves o { s.valve o with schedule := ws } }) ∧
    (w.closes.later ⟨now, none⟩ = false → s.operating = true →
      ((∀ n ∈ ws.head?, n.opens.later ⟨now, none⟩ = true) →
        exec (.windowClose now o) s = .next { s with clock := now, valves := put s.valves o (ended (s.valve o)) }) ∧
      ((∃ n ∈ ws.head?, n.opens.later ⟨now, none⟩ = false) →
        exec (.windowClose now o) s = .next { s with
          clock := now, valves := put s.valves o (opened (ended (s.valve o))) }))

/-- FLOW_SWITCH_CHANGE (R82, R90 to R92, R96): the debounced flow switch takes its new state, and while OPERATING the valve
acts on it: water confirmed in OPENING and FLOWING_UNCONFIRMED, the confirm timer begun or stopped in FLOWING, and the
stuck timer with the output off. -/
def Obligations.FlowSwitchChanges : Prop :=
  ∀ (now : Time) (o : Output) (active : Bool) (s : State),
    (s.role o).isValve = true → s.permitted = true → s.feedback o = !active →
    let inputs : Inputs := { s.inputs with
      feedback := put s.inputs.feedback o
        ⟨⟨active, active, none⟩, if active then some ⟨now, none⟩ else (s.inputs.feedback[o]).activeSince⟩ }
    let v := s.valve o
    let timer := some (after now s.setup.valves.confirm)
    (s.operating = false → exec (.flowSwitchChange now o active) s = .next { s with clock := now, inputs := inputs }) ∧
    (s.operating = true →
      exec (.flowSwitchChange now o active) s = .next { s with
        clock := now
        inputs := inputs
        valves := put s.valves o (match v.state with
          | .opening | .flowingUnconfirmed =>
            if active then { v with
              state := .flowing
              confirmTimer := none
              counters := { v.counters with confirmed := bump v.counters.confirmed } }
            else v
          | .flowing => { v with confirmTimer := if active then none else timer }
          | .idle | .cut => { v with stuckTimer := if active = true ∧ v.stuck = false then timer else none }) })

/-- CONFIRM_TIMER_EXPIRY, CUT_OFF and VALVE_STUCK (R90, R91, R94, R95, R96, R97): the sticky faults WATER_FAIL, CUT_OFF
and STUCK, each with its record, its counter and VALVE_TROUBLE; CUT_OFF forces the output off. What the rules leave open
is settled by assumptions 7, 20 and 36. -/
def Obligations.ValveFaultsSet : Prop :=
  ∀ (now : Time) (o : Output) (s : State), (s.role o).isValve = true →
    let v := s.valve o
    (∀ deadline : Time, v.confirmTimer = some deadline → reached now deadline = true →
      ∃ t, exec (.confirmTimerExpiry now o) s = .next t ∧ ({ s with
        clock := now
        valves := put s.valves o { v with
          state := .flowingUnconfirmed
          confirmTimer := none
          waterFail := true
          counters := { v.counters with unconfirmed := bump v.counters.unconfirmed } }
        record := s.record.file now ⟨.waterFail, octet o.val, sat16 s.setup.valves.confirm⟩
        flags := s.flags ||| Attention.valveTrouble.mask } : State).settledFrom t) ∧
    (∀ since : Instant, v.state.on = true → v.openSince = some since →
      (if s.flood[s.valveSystem o] then s.setup.valves.floodCutOff else s.setup.valves.cutOff) * 1000 ≤
        since.elapsed now →
      ∃ t, exec (.cutOff now o) s = .next t ∧ ({ s with
        clock := now
        valves := put s.valves o { v with
          state := .cut
          confirmTimer := none
          openSince := none
          stuckTimer := if s.feedback o = true ∧ v.stuck = false then some (after now s.setup.valves.confirm) else none
          cutOff := true
          counters := { v.counters with cutOff := bump v.counters.cutOff } }
        record := s.record.file now ⟨.cutOff, octet o.val, sat16 (since.elapsed now / 1000)⟩
        flags := s.flags ||| Attention.valveTrouble.mask } : State).settledFrom t ∧
        t.drivenOutput o = false) ∧
    (∀ deadline : Time, v.stuckTimer = some deadline → reached now deadline = true →
      ∃ t, exec (.valveStuck now o) s = .next t ∧ ({ s with
        clock := now
        valves := put s.valves o { v with
          stuck := true
          stuckTimer := none
          counters := { v.counters with stuck := bump v.counters.stuck } }
        record := s.record.file now ⟨.valveStuck, octet o.val, 0⟩
        flags := s.flags ||| Attention.valveTrouble.mask } : State).settledFrom t)

/-! ## Extraction control -/

/-- FLOW_PULSE and PERIODIC_WINDOW_START (R103, R104). -/
def Obligations.SamplerWindows : Prop :=
  (∀ (now : Time) (s : State), s.extraction.window = none →
    exec (.flowPulse now) s = .next { s with clock := now }) ∧
  (∀ (now : Time) (w : SampleWindow) (s : State), s.extraction.window = some w →
    exec (.flowPulse now) s = .next { s with
      clock := now
      extraction := { s.extraction with
        window := some (if later now (after w.start 250) then w else { w with pulses := w.pulses + 1 }) } }) ∧
  (∀ (now deadline : Time) (s : State), s.extraction.mode = .periodic → s.extraction.nextStart = some deadline →
    reached now deadline = true →
    exec (.periodicWindowStart now) s = .next { s with
      clock := now
      extraction := { s.extraction with window := some ⟨now, 0⟩, lastStart := some ⟨now, none⟩, nextStart := none } })

/-- SAMPLE_COMPLETE (R95, R102, R103, R104, R106, R107, R108, R111, R112, R114): the velocity is pulses × 4 × scale /
16, at most 1000; the sample is judged for LOW_FLOW outside STARTING, counts as good in STARTING and as slow in RUNDOWN;
the fourth good sample brings RUNNING and the fourth slow one STOPPED, each with what a change of phase brings; LOW_FLOW
set while RUNNING is the cause FLOW_LOST. judged is the state with the sample judged, moved the state after the change of
phase, and u the state with the next window planned by the mode that then holds, before the consequences: none in OFF, one
at once in CONTINUOUS, and in PERIODIC, the move from STARTING to RUNNING included, one 2000 ms after the start of the most
recent window. What the rules leave open is settled by assumptions 7, 20 and 36. -/
def Obligations.SampleCompletes : Prop :=
  ∀ (now : Time) (w : SampleWindow) (s : State), s.extraction.window = some w →
    reached now (after w.start 250) = true →
    let e := s.extraction
    let p := s.setup.extraction
    let v := min 1000 (w.pulses * 4 * p.scale / 16)
    let low := if e.lowFlow then decide (v < p.floor + p.hysteresis) else decide (v < p.floor ∧ 3 ≤ e.lowCount)
    let good := if p.floor ≤ v then e.goodCount + 1 else 0
    let slow := if v < p.stop then e.stopCount + 1 else 0
    let moves := (e.phase = .starting ∧ 4 ≤ good) ∨ (e.phase = .rundown ∧ 4 ≤ slow)
    let lost := decide (e.phase = .running ∧ e.lowFlow = false ∧ low = true)
    let judged : State := { s with
      clock := now
      extraction := { e with
        velocity := v
        lastSample := some ⟨now, none⟩
        window := none
        lowFlow := if e.phase = .starting then e.lowFlow else low
        lowCount :=
          if e.phase = .starting ∨ e.lowFlow = true then e.lowCount
          else if v < p.floor then (if 3 ≤ e.lowCount then 0 else e.lowCount + 1) else 0
        goodCount := if e.phase = .starting then good else e.goodCount
        stopCount := if e.phase = .rundown then slow else e.stopCount
        phase :=
          if e.phase = .starting ∧ 4 ≤ good then .running
          else if e.phase = .rundown ∧ 4 ≤ slow then .stopped else e.phase
        timer := if moves then none else e.timer } }
    ∃ (t u moved : State), exec (.sampleComplete now) s = .next t ∧ u.settledFrom t (if lost then [.flowLost] else []) ∧
      (moves → judged.phaseEntered moved) ∧ (¬moves → moved = judged) ∧
      u = { moved with extraction := { moved.extraction with
        window := u.extraction.window, lastStart := u.extraction.lastStart, nextStart := u.extraction.nextStart } } ∧
      moved.extraction.governs now moved.extraction.mode u.extraction ∧
      (moves → s.filed t ⟨.fanPhase, octet judged.extraction.phase.code, BitVec.ofNat 16
        (firstCauseCode e.first * 4096 + bitAt e.gateFail 9 + bitAt e.rundownSlow 8 + e.causes.toNat)⟩) ∧
      (lost = true →
        hasCause t.extraction.causes .flowLost = true ∧
        (t.extraction.phase = .diverting ∨ t.extraction.phase = .rundown)) ∧
      t.extraction.mode = t.samplerMode ∧ (t.extraction.mode = .continuous → t.extraction.window = some ⟨now, 0⟩) ∧
      (moved.extraction.mode = .off → t.extraction.mode = .off →
        t.extraction.window = none ∧ t.extraction.nextStart = none ∧ t.extraction.lastStart = e.lastStart) ∧
      (∀ i : Instant, moved.extraction.mode = .periodic → t.extraction.mode = .periodic → e.lastStart = some i →
        if 2000 ≤ i.elapsed now then
          t.extraction.window = some ⟨now, 0⟩ ∧ t.extraction.lastStart = some ⟨now, none⟩ ∧ t.extraction.nextStart = none
        else
          t.extraction.window = none ∧ t.extraction.lastStart = some i ∧
            t.extraction.nextStart = some (after i.reading 2000))

/-- START_GRACE_EXPIRY, GATE_TIMER_EXPIRY and RUNDOWN_LIMIT_EXPIRY (R95, R102, R107, R108, R110, R111, R114, R118): the
marks START_FAIL, GATE_FAIL and RUNDOWN_SLOW with FAN_FAULT; the cause START_FAIL takes STARTING to DIVERTING, and to
RUNDOWN with the gate feedback active; the gate timer ends DIVERTING and the run-down limit ends RUNDOWN, each with what
a change of phase brings. What the rules leave open is settled by assumptions 7, 20 and 36. -/
def Obligations.PhaseTimersExpire : Prop :=
  ∀ (now deadline : Time) (s : State), s.extraction.timer = some deadline → reached now deadline = true →
    let e := s.extraction
    (e.phase = .starting →
      ∃ t, exec (.startGraceExpiry now) s = .next t ∧
        ({ s with
          clock := now
          extraction := { e with startFail := true }
          flags := s.flags ||| Attention.fanFault.mask } : State).settledFrom t [.startFail] ∧
        hasCause t.extraction.causes .startFail = true ∧
        t.extraction.phase = (if s.feedbackOf s.gateOutput then .rundown else .diverting) ∧
        (s.pictureStands → t.extraction.first = some .startFail)) ∧
    (e.phase = .diverting →
      ∃ (t u : State), exec (.gateTimerExpiry now) s = .next t ∧ u.settledFrom t ∧
        ({ s with
          clock := now
          extraction := { e with
            gateFail := true
            phase := .rundown
            timer := some (after now (s.setup.extraction.rundownLimit * 1000))
            stopCount := 0 }
          flags := s.flags ||| Attention.fanFault.mask } : State).phaseEntered u ∧
        t.extraction.phase = .rundown ∧ t.extraction.timer = some (after now (s.setup.extraction.rundownLimit * 1000)) ∧
        t.extraction.first = e.first ∧
        s.filed t ⟨.fanPhase, 4, BitVec.ofNat 16
          (firstCauseCode e.first * 4096 + 512 + bitAt e.rundownSlow 8 + e.causes.toNat)⟩) ∧
    (e.phase = .rundown →
      ∃ (t u : State), exec (.rundownLimitExpiry now) s = .next t ∧ u.settledFrom t ∧
        ({ s with
          clock := now
          extraction := { e with rundownSlow := true, phase := .stopped, timer := none }
          flags := s.flags ||| Attention.fanFault.mask } : State).phaseEntered u ∧
        t.extraction.phase = .stopped ∧ t.extraction.timer = none ∧ t.extraction.first = e.first ∧
        s.filed t ⟨.fanPhase, 5, BitVec.ofNat 16
          (firstCauseCode e.first * 4096 + bitAt e.gateFail 9 + 256 + e.causes.toNat)⟩)

/-- GATE_FEEDBACK_CHANGE, RUNNING_CONTACT_CHANGE, CONTACTOR_MISMATCH and GATE_MISMATCH (R101, R102, R107, R110, R118):
the feedbacks are debounced from SETTLE and judged against their outputs from OPERATING: a disagreement runs its timer,
an agreement ends it and the mismatch; the gate feedback becoming active ends DIVERTING, with what a change of phase
brings. What the rules leave open is settled by assumptions 7, 20 and 36. -/
def Obligations.FanFeedbacksJudged : Prop :=
  ∀ (now : Time) (active : Bool) (s : State),
    let e := s.extraction
    let inputs (o : Output) : Inputs := { s.inputs with
      feedback := put s.inputs.feedback o
        ⟨⟨active, active, none⟩, if active then some ⟨now, none⟩ else (s.inputs.feedback[o]).activeSince⟩ }
    let judged (time : Nat) (output feedback : Bool) (m : Mismatch) : Mismatch :=
      if (s.operating && s.hasFan) = false then m
      else if output = feedback then ⟨none, false⟩
      else if m.stands = true ∨ m.timer.isSome = true then m
      else ⟨some (after now time), false⟩
    (∀ o : Output, s.permitted = true → s.gateOutput = some o → s.feedback o = !active →
      (e.phase ≠ .diverting ∨ active = false →
        ∃ t, exec (.gateFeedbackChange now active) s = .next t ∧
          ({ s with
            clock := now
            inputs := inputs o
            extraction := { e with
              contactor := judged 2000 e.phase.contactorOn (s.feedbackOf s.contactorOutput) e.contactor
              gate := judged s.setup.extraction.gateTime e.phase.gateOn active e.gate } } : State).settledFrom t) ∧
      (e.phase = .diverting → active = true →
        ∃ (t u : State), exec (.gateFeedbackChange now active) s = .next t ∧ u.settledFrom t ∧
          ({ s with
            clock := now
            inputs := inputs o
            extraction := { e with
              phase := .rundown
              timer := some (after now (s.setup.extraction.rundownLimit * 1000))
              stopCount := 0
              contactor := judged 2000 true (s.feedbackOf s.contactorOutput) e.contactor
              gate := judged s.setup.extraction.gateTime true true e.gate } } : State).phaseEntered u ∧
          t.extraction.phase = .rundown ∧
          t.extraction.timer = some (after now (s.setup.extraction.rundownLimit * 1000)) ∧
          t.extraction.first = e.first ∧
          s.filed t ⟨.fanPhase, 4, BitVec.ofNat 16
            (firstCauseCode e.first * 4096 + bitAt e.gateFail 9 + bitAt e.rundownSlow 8 + e.causes.toNat)⟩)) ∧
    (∀ o : Output, s.permitted = true → s.contactorOutput = some o → s.feedback o = !active →
      exec (.runningContactChange now active) s = .next { s with
        clock := now
        inputs := inputs o
        extraction := { e with
          contactor := judged 2000 e.phase.contactorOn active e.contactor
          gate := judged s.setup.extraction.gateTime e.phase.gateOn (s.feedbackOf s.gateOutput) e.gate } }) ∧
    (∀ deadline : Time, e.contactor.timer = some deadline → reached now deadline = true →
      exec (.contactorMismatch now) s = .next { s with
        clock := now
        extraction := { e with contactor := ⟨none, true⟩ }
        flags := s.flags ||| Attention.fanFault.mask }) ∧
    (∀ deadline : Time, e.gate.timer = some deadline → reached now deadline = true →
      exec (.gateMismatch now) s = .next { s with
        clock := now
        extraction := { e with gate := ⟨none, true⟩ }
        flags := s.flags ||| Attention.fanFault.mask })

/-! ## Fire barriers -/

/-- BARRIER_FEEDBACK_CHANGE (R125, R126, R127, R128, R129, R131, R132, R134): what a barrier makes of its feedback in each
state, with its records; every other barrier that is not QUEUED stands as it was. b is the barrier controller with the
feedback taken, the closing queue in order; the queue is then considered, and afterwards either a motor runs, or the supply
is LOW, or no entry of the closing queue may run. Premise: the motors are in turn. What the rules leave open is settled by
assumption 17. -/
def Obligations.BarrierFeedbackTaken : Prop :=
  ∀ (now : Time) (o : Output) (active : Bool) (s : State),
    (s.role o).isBarrier = true → s.permitted = true → s.feedback o = !active → s.motorsInTurn →
    let b := s.barrier o
    let inputs : Inputs := { s.inputs with
      feedback := put s.inputs.feedback o
        ⟨⟨active, active, none⟩, if active then some ⟨now, none⟩ else (s.inputs.feedback[o]).activeSince⟩ }
    let closed (x : Barrier) : Barrier :=
      { x with state := .closed, travelTimer := none, run := none, kept := none, wait := .idle }
    let held : Barrier :=
      { b with state := .held, travelTimer := none, run := none, kept := none, attempts := 0, wait := .idle }
    let since := match b.released with
      | some i => i.elapsed now / 100
      | none => 0
    let ran := match b.run with
      | some (start, _) => b.ran + (now - start).toNat
      | none => b.ran
    (s.operating = false →
      exec (.barrierFeedbackChange now o active) s = .next { s with clock := now, inputs := inputs }) ∧
    (s.operating = true →
      ∃ (t u : State), exec (.barrierFeedbackChange now o active) s = .next t ∧ u.refilledFrom t ∧
        u = { s with
          clock := now, inputs := inputs, barriers := u.barriers, record := u.record, flags := u.flags } ∧
        (∃ x : Barriers, u.considers x ∧ u.queueInOrder x ∧
          (∀ p : Output, p ≠ o → x.units[p] = s.barrier p) ∧
          match b.state, active with
          | .closing, true =>
            x.units[o] = (if (s.role o).isMotor then closed { b with ran := ran } else closed b) ∧
              x.queue = s.barriers.queue ∧
              x.running = if (s.role o).isMotor then none else s.barriers.running
          | .queued, true =>
            (s.role o).isMotor = true → x.units[o] = closed b ∧ x.running = s.barriers.running ∧
              x.queue = s.barriers.queue.filter fun p => p ≠ o
          | .closed, false =>
            x.running = s.barriers.running ∧
            (if s.releaseHolds o = true ∧ (s.role o).isMotor = true ∧ b.attempts < 3 then
              x.units[o] = { b with state := .queued, run := none, kept := none, ran := 0, wait := .idle } ∧
                x.queue.Perm (o :: s.barriers.queue) ∧ s.barriers.queue.Sublist x.queue
            else x.queue = s.barriers.queue)
          | .queued, false => x = s.barriers
          | _, _ => x.queue = s.barriers.queue ∧ x.running = s.barriers.running) ∧
        (∀ p : Output, p ≠ o → (s.barrier p).state ≠ .queued → u.barrier p = s.barrier p) ∧
        (u.barriers.running = none → u.supply.low = false → ∀ p ∈ u.barriers.queue, u.mayRun p = false) ∧
        (match b.state, active with
          | .closing, true =>
            u.barrier o = (if (s.role o).isMotor then closed { b with ran := ran } else closed b) ∧
              u.record = s.record.file now
                ⟨.barrierClosed, octet o.val, sat16 (if (s.role o).isMotor then ran / 100 else since)⟩ ∧
              u.flags = s.flags
          | .jammed, true =>
            u.barrier o = closed b ∧
              u.record = s.record.file now
                ⟨.barrierClosed, octet o.val, sat16 (if (s.role o).isMotor then b.ran / 100 else since)⟩ ∧
              u.flags = s.flags
          | .queued, true =>
            (s.role o).isMotor = true →
              u.barrier o = closed b ∧ o ∉ u.barriers.queue ∧
              u.record = s.record.file now ⟨.barrierClosed, octet o.val, 0⟩ ∧ u.flags = s.flags
          | .reopened, true =>
            (s.role o).isMagnet = true →
              u.barrier o = closed b ∧ u.record = s.record.file now ⟨.barrierClosed, octet o.val, 0⟩ ∧
              u.flags = s.flags
          | .closed, false =>
            if s.releaseHolds o = false then u.barrier o = held ∧ u.record = s.record ∧ u.flags = s.flags
            else
              u.flags = s.flags ||| Attention.barrierFault.mask ∧
              (if (s.role o).isMotor = false then
                u.barrier o = { b with state := .reopened } ∧
                  u.record = s.record.file now ⟨.barrierReopened, octet o.val, 0⟩
              else if b.attempts < 3 then
                ((u.barrier o).state = .queued ∧ o ∈ u.barriers.queue ∨
                  (u.barrier o).state = .closing ∧ u.barriers.running = some o) ∧
                  u.record = s.record.file now ⟨.barrierReopened, octet o.val, sat16 b.attempts⟩
              else
                u.barrier o = { b with
                  state := .jammed, travelTimer := none, run := none, kept := none, wait := .idle } ∧ u.record = s.record.fileAll now
                  [⟨.barrierReopened, octet o.val, sat16 b.attempts⟩,
                   ⟨.barrierJammed, octet o.val, sat16 b.attempts⟩])
          | .unarmed, _ | .held, _ | .closing, false | .jammed, false | .reopened, false | .closed, true =>
            u.barrier o = b ∧ u.record = s.record ∧ u.flags = s.flags
          | .queued, false => u.record = s.record ∧ u.flags = s.flags))

/-- TRAVEL_TIMER_EXPIRY, TRAVEL_EXHAUSTED and DAMPER_WAIT_EXPIRY (R125, R129, R131, R132, R136): a MAGNET or a motor barrier
is JAMMED, or a damper wait expires, and the closing queue is considered. What the rules leave open is settled by assumption
17. -/
def Obligations.BarrierTimersExpire : Prop :=
  ∀ (now deadline : Time) (o : Output) (s : State), reached now deadline = true →
    let b := s.barrier o
    let jammed (x : Barrier) : Barrier :=
      { x with state := .jammed, travelTimer := none, run := none, kept := none, wait := .idle }
    ((s.role o).isMagnet = true → b.state = .closing → b.travelTimer = some deadline →
      ∃ t, exec (.travelTimerExpiry now o) s = .next t ∧ ({ s with
        clock := now
        barriers := { s.barriers with units := put s.barriers.units o (jammed b) }
        record := s.record.file now ⟨.barrierJammed, octet o.val, 0⟩
        flags := s.flags ||| Attention.barrierFault.mask } : State).refilledFrom t) ∧
    (∀ start : Time, s.barriers.running = some o → b.run = some (start, deadline) → s.motorsInTurn →
      ∃ (t u : State), exec (.travelExhausted now o) s = .next t ∧ u.refilledFrom t ∧
        u = { s with
          clock := now
          barriers := u.barriers
          record := s.record.file now ⟨.barrierJammed, octet o.val, sat16 b.attempts⟩
          flags := s.flags ||| Attention.barrierFault.mask } ∧
        u.barrier o = jammed { b with ran := b.ran + (now - start).toNat } ∧
        u.considers ⟨put s.barriers.units o (jammed { b with ran := b.ran + (now - start).toNat }), s.barriers.queue,
          none⟩ ∧
        (∀ p : Output, p ≠ o → (s.barrier p).state ≠ .queued → u.barrier p = s.barrier p) ∧
        u.barriers.running ≠ some o ∧
        (u.barriers.running = none → u.supply.low = false → ∀ p ∈ u.barriers.queue, u.mayRun p = false)) ∧
    (b.wait = .running deadline → s.motorsInTurn →
      ∃ (t u : State), exec (.damperWaitExpiry now o) s = .next t ∧ u.refilledFrom t ∧
        u = { s with clock := now, barriers := u.barriers } ∧ (u.barrier o).wait = .expired ∧
        u.considers { s.barriers with units := put s.barriers.units o { b with wait := .expired } } ∧
        (u.barrier o = { b with wait := .expired } ∨ (b.state = .queued ∧ u.barriers.running = some o)) ∧
        (∀ p : Output, p ≠ o → (s.barrier p).state ≠ .queued → u.barrier p = s.barrier p) ∧
        (∀ p : Output, s.barriers.running = some p → u.barriers.running = some p) ∧
        (s.operating = true → u.barriers.running = none → u.supply.low = false →
          ∀ p ∈ u.barriers.queue, u.mayRun p = false))

/-! ## Yard sirens -/

/-- SIREN_FEEDBACK_CHANGE and SIREN_FAULT (R137, R138): an active current sense clears the mark and returns the absence
count to 0; with an inactive one the count grows while the output is on, and at 500 ms it sets the mark, with its record
and flag, and stops growing. What the rules leave open is settled by assumption 19. -/
def Obligations.SirenCurrentJudged : Prop :=
  ∀ (now : Time) (o : Output) (s : State), (s.role o).isSiren = true →
    let u := s.siren o
    (∀ active : Bool, s.permitted = true → s.feedback o = !active →
      exec (.sirenFeedbackChange now o active) s = .next { s with
        clock := now
        inputs := { s.inputs with
          feedback := put s.inputs.feedback o
            ⟨⟨active, active, none⟩, if active then some ⟨now, none⟩ else (s.inputs.feedback[o]).activeSince⟩ }
        sirens := { s.sirens with
          units := put s.sirens.units o
            (if active = true ∨ u.pattern = .none then { u with
              fault := u.fault && !active, absence := 0, absenceTaken := false, absenceFrom := none }
            else { u with
              absence := u.absenceAt now
              absenceFrom := if u.driven = true ∧ u.absenceTaken = false then some now else none }) } }) ∧
    (∀ since : Time, u.absenceTaken = false → u.absenceFrom = some since → 500 ≤ u.absence + (now - since).toNat →
      exec (.sirenFault now o) s = .next { s with
        clock := now
        sirens := { s.sirens with
          units := put s.sirens.units o
            { u with fault := true, absence := 500, absenceFrom := none, absenceTaken := true } }
        record := s.record.file now ⟨.sirenFault, octet o.val, BitVec.ofNat 16 u.pattern.code⟩
        flags := s.flags ||| Attention.sirenFault.mask })

/-- CADENCE_LEVEL_CHANGE, RESOUND_TIMER_EXPIRY and ALL_CLEAR_END (R139, R142, R144, R145): the outputs take the levels
of their patterns; the resound timer clears every silenced flag; an ALL_CLEAR claim ends at 9000 ms; the patterns are
then those that the lists give, each output takes its pattern's level and counts its absence (R138), the phases begin and become idle with their
patterns, and the leaders are chosen (R146, R147). What the rules leave open is settled by assumptions 28 and 36. -/
def Obligations.SirenTimersExpire : Prop :=
  ∀ (now : Time) (s : State),
    (∃ t, exec (.cadenceLevelChange now) s = .next t ∧
      t = { s with clock := now, sirens := { t.sirens with
        resound := s.sirens.resound, slowLeader := s.sirens.slowLeader, fastLeader := s.sirens.fastLeader } } ∧
      t.sirens.slow = s.sirens.slow.map (fun x => ⟨x.at_ 2000 now, now⟩) ∧
      t.sirens.fast = s.sirens.fast.map (fun x => ⟨x.at_ 500 now, now⟩) ∧
      (∀ o : Output, (s.operating = false ∨ (s.role o).isSiren = false) → t.siren o = s.siren o) ∧
      ∀ o : Output, s.operating = true → (s.role o).isSiren = true →
        let u := s.siren o
        let clear := u.pattern = .none ∨ s.feedback o = true
        t.siren o = { u with
          driven := match u.pattern with
            | .none => false
            | .allClear => u.allClear.any fun i => decide (i.elapsed now < 9000 ∧ i.elapsed now % 3000 < 2000)
            | .slow => s.sirens.slow.any fun x => decide (x.at_ 2000 now < 1000)
            | .fast => s.sirens.fast.any fun x => decide (x.at_ 500 now < 250)
            | .steady => true
          absence := if clear then 0 else u.absenceAt now
          absenceTaken := if clear then false else u.absenceTaken
          absenceFrom :=
            if (t.siren o).driven = true ∧ ¬clear ∧ u.absenceTaken = false then some now else none }) ∧
    (∀ deadline : Time, s.sirens.resound = some deadline → reached now deadline = true →
      ∃ (t u : State), exec (.resoundTimerExpiry now) s = .next t ∧ u.refilledFrom t ∧
        u = { s with clock := now, sirens := u.sirens } ∧ u.sirens.resound = none ∧
        (∀ o : Output, (s.role o).isSiren = false → u.siren o = s.siren o) ∧
        (∀ o : Output, (s.role o).isSiren = true →
          (u.siren o).claims = (s.siren o).claims.map (fun x => { x with silenced := false }) ∧
          (u.siren o).allClear = (s.siren o).allClear ∧ (u.siren o).fault = (s.siren o).fault ∧
          (u.siren o).fireSeen = (s.siren o).fireSeen ∧
          (s.operating = true → (u.siren o).pattern = (u.siren o).chosen) ∧
          (s.operating = false → u.siren o = { s.siren o with claims := (u.siren o).claims })) ∧
        (s.takeAt now).patternsChosen u) ∧
    (∀ (o : Output) (i : Instant), (s.role o).isSiren = true → (s.siren o).allClear = some i → 9000 ≤ i.elapsed now →
      ∃ (t u : State), exec (.allClearEnd now o) s = .next t ∧ u.refilledFrom t ∧
        u = { s with clock := now, sirens := u.sirens } ∧ u.sirens.resound = s.sirens.resound ∧
        (u.siren o).allClear = none ∧ (s.takeAt now).patternsChosen u ∧
        (∀ p : Output, (u.siren p).claims = (s.siren p).claims ∧ (u.siren p).fault = (s.siren p).fault ∧
          (u.siren p).fireSeen = (s.siren p).fireSeen ∧ (p ≠ o → (u.siren p).allClear = (s.siren p).allClear) ∧
          (s.operating = true → (s.role p).isSiren = true → (u.siren p).pattern = (u.siren p).chosen) ∧
          (s.operating = false ∨ (s.role p).isSiren = false →
            u.siren p = { s.siren p with allClear := (u.siren p).allClear })))

/-! ## Supply -/

/-- SUPPLY_SAMPLE (R129, R133, R155, R156): the level is the highest n with at least 18.0 + 0.5 n volts; four successive
samples at or below the low level set LOW, stop the running motor and keep its travel at the head of the queue; one at
or above the resume level clears LOW and the queue is considered. In CONFIG_FAULT the supply is graded only. What the
rules leave open is settled by assumptions 10 and 17. -/
def Obligations.SupplySampled : Prop :=
  ∀ (now deadline : Time) (millivolts : Nat) (s : State),
    s.supply.next = some deadline → reached now deadline = true →
    let level := if millivolts < 18000 then 0 else min 15 ((millivolts - 18000) / 500)
    let next := some (after now 50)
    (s.started = false →
      exec (.supplySample now millivolts) s = .next { s with
        clock := now, supply := { s.supply with level := level, next := next } }) ∧
    (s.started = true → s.supply.low = false → s.setup.supplyLow < level →
      exec (.supplySample now millivolts) s = .next { s with clock := now, supply := ⟨level, 0, false, next⟩ }) ∧
    (s.started = true → s.supply.low = false → level ≤ s.setup.supplyLow → s.supply.count < 3 →
      exec (.supplySample now millivolts) s = .next { s with
        clock := now, supply := ⟨level, s.supply.count + 1, false, next⟩ }) ∧
    (s.started = true → s.supply.low = false → level ≤ s.setup.supplyLow → 3 ≤ s.supply.count →
      ∃ (t u : State), exec (.supplySample now millivolts) s = .next t ∧ u.refilledFrom t ∧
        u = { s with
          clock := now
          supply := ⟨level, 0, true, next⟩
          barriers := u.barriers
          record := s.record.file now ⟨.supplyLow, 0, BitVec.ofNat 16 level⟩
          flags := s.flags ||| Attention.supplyLow.mask } ∧
        u.barriers.running = none ∧
        u.barriers.queue = s.barriers.running.toList ++ s.barriers.queue ∧
        (s.barriers.running = none → u.considers s.barriers) ∧
        (∀ (o : Output) (start stop : Time), s.barriers.running = some o →
          (s.barrier o).run = some (start, stop) →
          let paused : Barrier := { s.barrier o with
            state := .queued
            kept := some (if reached now stop then 0 else (stop - now).toNat)
            ran := (s.barrier o).ran + (now - start).toNat
            run := none }
          u.considers ⟨put s.barriers.units o paused, o :: s.barriers.queue, none⟩ ∧
          u.barrier o = { paused with wait := (u.barrier o).wait } ∧
          ((s.barrier o).wait ≠ .idle → u.barrier o = paused)) ∧
        (∀ p : Output, s.barriers.running ≠ some p → p ∉ s.barriers.queue → u.barrier p = s.barrier p)) ∧
    (s.started = true → s.supply.low = true → level < s.setup.supplyResume →
      exec (.supplySample now millivolts) s = .next { s with
        clock := now, supply := { s.supply with level := level, next := next } }) ∧
    (s.started = true → s.supply.low = true → s.setup.supplyResume ≤ level →
      ∃ (t u : State), exec (.supplySample now millivolts) s = .next t ∧ u.refilledFrom t ∧
        u = { s with
          clock := now
          supply := { s.supply with level := level, low := false, next := next }
          barriers := u.barriers
          record := s.record.file now ⟨.supplyOk, 0, BitVec.ofNat 16 level⟩ } ∧
        u.considers s.barriers ∧
        (∀ p : Output, p ∉ s.barriers.queue → u.barrier p = s.barrier p) ∧
        (s.operating = true → u.barriers.running = none → ∀ p ∈ u.barriers.queue, u.mayRun p = false))

/-! ## Maintenance port -/

/-- STATUS, ZONES, PEER, VALVE, BARRIERS, SIRENS, FAN, COUNTERS, TAKE_RECORD and UNKNOWN (R157, R158, R160, R165): the
bits that the panel shifts in, most significant first and sampled at rising edges of MCK, make the request at the last
bit of the argument octet; MDO carries four octets of 0, the response record and 0 after it, a bit from each falling
edge; and MCS ending once the whole record has been shifted out completes a TAKE_RECORD. Each transaction answers its
response record, and changes nothing but what the port has sent: a TAKE_RECORD with an entry held has sent the oldest.
Each record has the length and, at each offset, the field that Tables 11.7 and 11.8 give it; a request that names
nothing answers NO_SUCH. What the rules leave open is settled by assumptions 9, 26, 27, 40 and 41: that the entries of
BARRIERS stand by output number is the model's choice (assumption 41). -/
def Obligations.PortRequestsAnswered : Prop :=
  ∀ (now : Time) (argument : Byte) (s : State),
    let at_ := s.takeAt now
    let bit (b : Bool) : Byte := if b then 1 else 0
    let timer (t : Option Time) : List Byte := be32 (t.elim 0xFFFFFFFF fun deadline => remaining s.clock deadline)
    let instant (i : Option Instant) : List Byte := be32 (i.elim 0 fun i => i.reading.toNat)
    let number (o : Option Output) : Byte := o.elim 0xFF fun o => octet o.val
    let phase (cycle : Nat) (x : Option Cadence) : List Byte := be16 (x.elim 0xFFFF fun x => x.at_ cycle s.clock)
    let counts (xs : List Count) : List Byte := xs.flatMap fun x => be16 x.toNat
    let shows (record : List Byte) (fields : List (Nat × List Byte)) : Prop :=
      ∀ f ∈ fields, (record.drop f.1).take f.2.length = f.2
    (∀ request ∈ [(Instr.status now argument, at_.statusRecord), (.zones now argument, at_.zonesRecord),
        (.peer now argument, at_.peerRecord argument), (.valve now argument, at_.valveRecord argument),
        (.barriers now argument, at_.barriersRecord), (.sirens now argument, at_.sirensRecord argument),
        (.fan now argument, at_.fanRecord), (.counters now argument, at_.countersRecord)],
      exec request.1 s = .next { s with
        clock := now, port := ⟨request.2⟩, record := { s.record with sent := false } }) ∧
    exec (.takeRecord now argument) s = .next { s with
      clock := now
      port := ⟨match s.record.entries with
        | [] => [3]
        | e :: es => [0, octet (es.length + 1)] ++ be32 e.stamp.toNat ++ [octet e.kind.code, e.subject] ++
            be16 e.value.toNat⟩
      record := { s.record with sent := !s.record.entries.isEmpty } } ∧
    (∀ request : Byte, (request.toNat = 0 ∨ 9 < request.toNat) →
      exec (.unknown now request argument) s = .next { s with
        clock := now, port := ⟨[1]⟩, record := { s.record with sent := false } }) ∧
    s.statusRecord.length = 29 ∧ s.zonesRecord.length = 89 ∧ s.fanRecord.length = 25 ∧ s.countersRecord.length = 77 ∧
    s.barriersRecord.length = 8 + 19 * (s.outputsOf OutputRole.isBarrier).length ∧
    shows s.statusRecord
      [(0, [0]), (1, [octet s.start.phase.code]), (2, [octet s.start.faultKind.code]), (3, [s.start.faultOffset]),
       (4, [s.imageOctet 0]), (5, [s.imageOctet 254, s.imageOctet 255]),
       (7, if s.started then [stationOctet s.setup.number, octet s.setup.zone.val, octet s.setup.system.val]
         else [s.imageOctet 1, s.imageOctet 2, s.imageOctet 3]),
       (10, if s.started then [s.setup.roles.toOctet] else [s.start.image.elim 0 fun image => (imageRoles image).toOctet]),
       (11, be32 s.clock.toNat), (15, [octet s.own.level.code]),
       (16, [octet (bitAt s.inputs.call.state 0 + bitAt s.inputs.heat.state 1 + bitAt s.own.escalation 2 +
         bitAt s.anyStorm 3 + bitAt s.own.watchHold.isSome 4)]),
       (17, [s.press.silence]), (18, [s.press.reset]),
       (19, [octet (bitAt (s.lineA.txState == .failed) 0 + bitAt (s.lineB.txState == .failed) 1)]),
       (20, [octet s.supply.level]), (21, [bit s.supply.low]), (22, be16 s.flags.toNat), (24, be16 s.setup.mask.toNat),
       (26, [bit s.attn]), (27, [octet s.record.entries.length]), (28, [s.record.dropped])] ∧
    (s.zonesRecord.head? = some 0 ∧
      (∀ z : Zone, shows s.zonesRecord [(1 + 3 * z.val,
        [octet (s.zones.live[z]).code, octet (s.zones.latched[z]).code, octet (s.zoneLevel z).code])]) ∧
      ∀ d : System, shows s.zonesRecord
        [(49 + 10 * d.val, [bit (s.viewData d).isSome]), (50 + 10 * d.val, [(s.views[d].source).elim 0 stationOctet]),
         (51 + 10 * d.val, [bit s.views[d].clash]), (52 + 10 * d.val, (s.viewData d).elim (List.replicate 7 0) fun v =>
           [octet v.phase.code] ++ be16 v.velocity ++ be16 v.age ++ [bit v.lowFlow, octet v.causes.toNat])]) ∧
    (s.hasFan = true →
      let e := s.extraction
      shows s.fanRecord
        [(0, [0]), (1, [octet e.phase.code]), (2, [octet (firstCauseCode e.first)]), (3, [octet e.causes.toNat]),
         (4, timer e.timer), (8, [octet e.mode.code]), (9, [bit e.window.isSome]), (10, be16 e.velocity),
         (12, be16 s.sampleAge), (14, [bit e.lowFlow]), (15, [octet e.lowCount]), (16, [octet e.goodCount]),
         (17, [octet e.stopCount]), (18, [octet (bitAt e.phase.contactorOn 0 + bitAt e.phase.gateOn 1)]),
         (19, [octet (bitAt (s.feedbackOf s.contactorOutput) 0 + bitAt (s.feedbackOf s.gateOutput) 1)]),
         (20, [octet (bitAt e.startFail 0 + bitAt e.gateFail 1 + bitAt e.rundownSlow 2 + bitAt e.contactor.stands 3 +
           bitAt e.gate.stands 4)]), (21, be16 e.starts.toNat), (23, be16 e.refusals.toNat)]) ∧
    (s.hasFan = false → s.fanRecord = List.replicate 4 0 ++ List.replicate 4 0xFF ++ List.replicate 17 0) ∧
    (s.countersRecord.head? = some 0 ∧
      (∀ l : Line, let k := (s.line l).counters
        shows s.countersRecord [(1 + 12 * lineCode l, counts [k.valid, k.check, k.framing, k.content, k.contention, k.tx])]) ∧
      ∀ c : Channel, let x := s.channel c
        shows s.countersRecord [(25 + 13 * c.val, counts [x.sparks, x.tests, x.noise]),
          (31 + 13 * c.val, [octet (bitAt x.blinded 0 + bitAt x.silent 1 + bitAt x.noisy 2), bit x.storm.isSome,
            x.storm.elim 0 fun m => octet m.exitCount]),
          (34 + 13 * c.val, be16 (min 65535 (windowCount x.sparkBuckets))),
          (36 + 13 * c.val, be16 (min 65535 (windowCount x.noiseBuckets)))]) ∧
    (shows s.barriersRecord
        [(0, [0]), (1, [octet (s.outputsOf OutputRole.isBarrier).length]), (2, [number s.barriers.running]),
         (3, [bit s.supply.low]), (4, [octet s.barriers.queue.length]), (5, [number s.barriers.queue[0]?]),
         (6, [number s.barriers.queue[1]?]), (7, [number s.barriers.queue[2]?])] ∧
      ∀ (i : Nat) (o : Output), (s.outputsOf OutputRole.isBarrier)[i]? = some o →
        let b := s.barrier o
        shows (s.barriersRecord.drop (8 + 19 * i))
          [(0, [octet o.val]), (1, [octet (s.role o).code]), (2, [octet b.state.code]), (3, [bit (s.drivenOutput o)]),
           (4, [bit (s.feedback o)]), (5, be16 (s.role o).trigger.toNat), (7, [bit (s.releaseHolds o)]),
           (8, if (s.role o).isMagnet then timer b.travelTimer
             else be32 (b.run.elim (b.kept.getD 0) fun run => remaining s.clock run.2)),
           (12, [octet b.attempts]), (13, [octet (s.role o).rank]),
           (14, match s.role o with
             | .damper _ _ _ d => [octet d.val, bit (s.mayRun o), octet b.wait.code] ++
                 (match b.wait with
                   | .running deadline => be16 (remaining s.clock deadline)
                   | .idle | .expired => [0xFF, 0xFF])
             | _ => List.replicate 5 0)]) ∧
    (s.started = true →
      (argument.toNat = 0 ∨ 32 ≤ argument.toNat ∨ argument.toNat = s.setup.number.val →
        s.peerRecord argument = [2]) ∧
      (1 ≤ argument.toNat → argument.toNat < 32 → argument.toNat ≠ s.setup.number.val →
        (s.peerRecord argument).length = 39 ∧ (s.peerRecord argument).head? = some 0)) ∧
    (∀ k : Station, s.started = true → argument.toNat = k.val → k ≠ 0 → k ≠ s.setup.number →
      let p := s.peers[k]
      shows (s.peerRecord argument)
        [(0, [0]), (1, [octet p.presence.code]),
         (2, [octet (bitAt p.heardA.isSome 0 + bitAt p.heardB.isSome 1 + bitAt p.since.isSome 2 + bitAt p.content.isSome 3 +
           bitAt p.override.isSome 4 + bitAt p.silence.isSome 5 + bitAt p.reset.isSome 6)]),
         (3, instant p.heardA), (7, instant p.heardB), (11, instant p.since), (15, [bit p.known]),
         (16, p.content.elim (List.replicate 14 0) StateContent.payload), (30, instant p.received),
         (34, [p.override.elim 0 fun z => octet z.val]), (35, [p.silence.getD 0]), (36, [p.reset.getD 0]),
         (37, [p.rejoins]), (38, [bit p.single.isSome])]) ∧
    (∀ o : Output, argument.toNat = o.val →
      ((s.role o).isValve = true →
        (s.valveRecord argument).length = 64 + 9 * (s.valve o).schedule.length ∧
        let v := s.valve o
        let k := v.outcomes
        let c := v.counters
        let flood := s.flood[s.valveSystem o]
        shows (s.valveRecord argument)
          [(0, [0]),
           (1, counts [k.notDownstream, k.beyondReach, k.timed, k.late, k.clipped, k.flood, k.missed]),
           (15, v.last.elim (List.replicate 21 0) fun r =>
             [1, octet r.source.code, stationOctet r.station, octet r.branch.val] ++ be16 r.position ++
             [octet r.outcome.code] ++ be32 r.computed.toNat ++ [octet (bitAt r.late 0 + bitAt r.clipped 1)] ++
             (r.window.elim (List.replicate 8 0) fun w => be32 w.1.toNat ++ be32 w.2.toNat) ++
             [r.reason.elim 0 fun reason => octet reason.code]),
           (36, [octet v.state.code]), (37, [bit (s.drivenOutput o)]), (38, [bit (s.feedback o)]),
           (39, [octet (bitAt v.waterFail 0 + bitAt v.stuck 1 + bitAt v.cutOff 2)]), (40, [bit flood]),
           (41, be16 (if flood then s.setup.valves.floodCutOff else s.setup.valves.cutOff)),
           (43, be32 (v.openSince.elim 0 fun i => i.elapsed s.clock)),
           (47, counts [c.openings, c.underTrouble, c.confirmed, c.unconfirmed, c.short, c.cutOff, c.stuck]),
           (61, be16 v.saturations.toNat), (63, [octet v.schedule.length])] ∧
        ∀ (i : Nat) (w : Window), v.schedule[i]? = some w → shows ((s.valveRecord argument).drop (64 + 9 * i))
          [(0, be32 w.opens.reading.toNat), (4, be32 w.closes.reading.toNat),
           (8, [octet (bitAt w.marks.late 0 + bitAt w.marks.clipped 1 + bitAt w.marks.flood 2)])]) ∧
      ((s.role o).isSiren = true →
        let u := s.siren o
        let claims := u.claims.length + u.allClear.toList.length
        (s.sirensRecord argument).length = 19 + 7 * claims ∧
        shows (s.sirensRecord argument)
          [(0, [0]), (1, [octet u.pattern.code]), (2, [bit (s.drivenOutput o)]), (3, [bit (s.feedback o)]),
           (4, be16 (u.absenceAt s.clock)), (6, [bit u.fault]), (7, [bit u.fireSeen]), (8, timer s.sirens.resound),
           (12, phase 2000 s.sirens.slow), (14, phase 500 s.sirens.fast), (16, [s.sirens.slowLeader.elim 0 stationOctet]),
           (17, [s.sirens.fastLeader.elim 0 stationOctet]), (18, [octet claims])] ∧
        (∀ (i : Nat) (c : Claim), u.claims[i]? = some c → shows ((s.sirensRecord argument).drop (19 + 7 * i))
          [(0, [octet c.zone.val]), (1, [octet c.level.code]), (2, be32 c.since.reading.toNat), (6, [bit c.silenced])]) ∧
        ∀ i : Instant, u.allClear = some i → shows ((s.sirensRecord argument).drop (19 + 7 * u.claims.length))
          [(0, [0xFF, 0]), (2, be32 i.reading.toNat), (6, [0])]) ∧
      ((s.role o).isValve = false → s.valveRecord argument = [2]) ∧
      ((s.role o).isSiren = false → s.sirensRecord argument = [2])) ∧
    (4 ≤ argument.toNat → s.valveRecord argument = [2] ∧ s.sirensRecord argument = [2]) ∧
    (∀ (request : Byte) (rest : List Byte) (x : PortShift) (i : Nat), x.pins.select = false →
      let sent := (request :: argument :: rest).flatMap msbFirst
      let pins := ⟨true, false, sent.getD 0 false⟩ ::
        sent.flatMap fun bit => [(⟨true, false, bit⟩ : PortPins), ⟨true, true, bit⟩]
      let taken := (pins.take (i + 1)).foldl PortShift.next x
      i < pins.length - 1 →
        (pins[i + 1]?.bind fun p => taken.command? now s p) =
            (if i = 31 then some (match request.toNat with
              | 1 => .status now argument
              | 2 => .zones now argument
              | 3 => .peer now argument
              | 4 => .valve now argument
              | 5 => .barriers now argument
              | 6 => .sirens now argument
              | 7 => .fan now argument
              | 8 => .takeRecord now argument
              | 9 => .counters now argument
              | _ => .unknown now request argument)
            else none) ∧
        taken.bits = sent.take (i / 2) ∧
        s.port.mdo? taken =
          some (((List.replicate 4 0 ++ s.port.response).flatMap msbFirst).getD ((i - 1) / 2) false) ∧
        taken.command? now s ⟨false, false, false⟩ =
          if s.record.sent = true ∧ 32 + 8 * s.port.response.length ≤ i / 2 then some (.takeRecordComplete now)
          else none)

/-- R160: a TAKE_RECORD answers EMPTY alone with no entry held, and otherwise OK with the number of entries and the oldest
one, which stays until the completion. The completion removes the entry sent, unless a filing into a full record has
discarded it before; a filing that falls at the completion is either taken after it, with a free place, or before it. -/
def Obligations.TakeRecordCompletes : Prop :=
  (∀ (now : Time) (argument : Byte) (s : State),
    ∃ t, exec (.takeRecord now argument) s = .next t ∧ t.record.entries = s.record.entries ∧
      t.record.dropped = s.record.dropped ∧
      t.port.response = (match s.record.entries with
        | [] => [3]
        | e :: es => [0, octet (es.length + 1)] ++ be32 e.stamp.toNat ++ [octet e.kind.code, e.subject] ++
            be16 e.value.toNat) ∧
      ∀ again : Time, ∃ u, exec (.takeRecord again argument) t = .next u ∧ u.port.response = t.port.response) ∧
  (∀ (now : Time) (s : State),
    exec (.takeRecordComplete now) s = .next { s with
      clock := now
      record := { s.record with
        entries := if s.record.sent then s.record.entries.tail else s.record.entries, sent := false } }) ∧
  (∀ (r : EventRecord) (now : Time) (f : Filing), r.entries.length ≤ 64 →
    let e : Entry := ⟨now, f.kind, f.subject, f.value⟩
    (r.entries.length < 64 → r.file now f = { r with entries := r.entries ++ [e] }) ∧
    (r.entries.length = 64 → r.file now f = ⟨r.entries.tail ++ [e], bump8 r.dropped, false⟩)) ∧
  (∀ (now done : Time) (argument : Byte) (fs : List Filing) (s : State), s.record.entries.length ≤ 64 →
    let es := fs.map fun f => (⟨now, f.kind, f.subject, f.value⟩ : Entry)
    ∃ t, exec (.takeRecord now argument) s = .next t ∧
      (s.record.entries.length + fs.length ≤ 64 →
        exec (.takeRecordComplete done) (t.fileAll fs) = .next { t.fileAll fs with
          clock := done
          record :=
            ⟨if s.record.entries = [] then es else s.record.entries.tail ++ es, s.record.dropped, false⟩ }) ∧
      (64 < s.record.entries.length + fs.length → s.record.entries ≠ [] →
        exec (.takeRecordComplete done) (t.fileAll fs) = .next { t.fileAll fs with
          clock := done
          record :=
            ⟨(s.record.entries ++ es).drop (s.record.entries.length + fs.length - 64), (t.fileAll fs).record.dropped,
              false⟩ }))

/-! ## Clock and instants -/

/-- INSTANT_AGED (R149): every kept instant that the clock has left 2^30 ms behind becomes aged, all at once; an aged
instant is earlier than every instant that is not aged, of two aged at different times the one aged first is the
earlier, and the time since it is 2^30 ms. The numbering of the ageings is the model's (assumption 4). -/
def Obligations.InstantsAge : Prop :=
  (∀ (now : Time) (s : State),
    ((∀ i ∈ s.instants, i.agesAt now = false) → exec (.instantAged now) s = .next { s with clock := now }) ∧
    ((∃ i ∈ s.instants, i.agesAt now = true) →
      exec (.instantAged now) s = .next { (s.takeAt now).mapInstants (fun i =>
        if i.aged = none ∧ (2 ^ 30 : Int) ≤ (now - i.reading).toInt then ⟨i.reading, some s.agings⟩ else i) with
          agings := s.agings + 1 })) ∧
  (∀ (x y : Instant) (n : Nat), x.aged = none → y.aged = some n → x.later y = true ∧ y.later x = false) ∧
  (∀ (x y : Instant) (m n : Nat), x.aged = some m → y.aged = some n → m < n → y.later x = true ∧ x.later y = false) ∧
  (∀ (now : Time) (x : Instant) (n : Nat), x.aged = some n → x.elapsed now = 2 ^ 30) ∧
  (∀ (now : Time) (x : Instant), x.aged = none → 0 ≤ (now - x.reading).toInt →
    (x.elapsed now : Int) = (now - x.reading).toInt) ∧
  (∀ x y : Time, later x y = decide (0 < (x - y).toInt))

/-! ## Encoding -/

/-- R2, R3, R4, R6, R18, R163: what a station sends for a notice is its precedence, length, payload and check octets;
the bit times of these octets read back as sent are a successful attempt and are received as a complete notice with the
same parts; of two notices begun together, the one with the higher precedence value loses contention within its
precedence octet and stops driving, and the other is sent to its end; and a notice whose fields are in their ranges is,
at every receiver, a valid notice of its class with the same content. What the rules leave open is settled by assumption
9. -/
def Obligations.NoticesCrossTheLine : Prop :=
  (∀ (k : Station) (n : Notice), n.octets k =
    [BitVec.ofNat 8 (n.class_.toNat * 32 + k.val), octet n.payload.length] ++ n.payload ++
      be16 (crc (covered n.class_ (BitVec.ofNat 5 k.val) n.payload)).toNat) ∧
  (∀ (k : Station) (n : Notice), n.heardAs k (lineBits (n.octets k)) = .success ∧
    receive (lineBits (n.octets k)) = .complete n.class_ (BitVec.ofNat 5 k.val) n.payload
      (crc (covered n.class_ (BitVec.ofNat 5 k.val) n.payload))) ∧
  (∀ (j k : Station) (m n : Notice), m.class_.toNat * 32 + j.val < n.class_.toNat * 32 + k.val →
    let meets (xs ys : List Bool) : List Bool := List.zipWith (fun x y => wired [x, y]) xs ys
    let sent := lineBits (m.octets j)
    ∃ bit < 10, n.heardAs k (meets sent (lineBits (n.octets k))) = .contentionLost bit ∧
      m.heardAs j (meets sent ((lineBits (n.octets k)).take (bit + 1) ++ List.replicate sent.length true)) = .success) ∧
  ∀ (k : Station) (start : Time), k ≠ 0 →
    let rx (n : Notice) : Received :=
      ⟨start, BitVec.ofNat 5 k.val, n.payload, crc (covered n.class_ (BitVec.ofNat 5 k.val) n.payload)⟩
    (∀ z : Zone, verdict classCall readCall? (rx (.call z)) = .valid z) ∧
    (∀ (kind : KeyKind) (count : Byte), verdict classKey readKey? (rx (.key kind count)) = .valid (kind, count)) ∧
    (∀ (c : Channel) (r : SparkReport) (age : Nat), 1 ≤ r.count → r.count ≤ 255 → r.position ≤ 4000 → r.span ≤ 4095 →
      age ≤ 1023 →
      verdict classSpark SparkPayload.read? (rx (.spark c r age)) =
        .valid ⟨r.stale, r.unserved, r.branch, r.count, r.position, r.span, age⟩) ∧
    (∀ c : StateContent, c.velocity ≤ 1000 → c.sampleAge ≤ 65535 → c.closed ≤ 4 → c.jammed ≤ 4 →
      (match c.pattern with
        | .slow => c.cadence < 2000
        | .fast => c.cadence < 500
        | .none | .allClear | .steady => c.cadence = 0) →
      verdict classState StateContent.read? (rx (.state c)) = .valid c)

/-! ## Invariants that every step keeps -/

/-- R14, R39, R152, R154: in every step: nothing is in transmission without permission; in LOAD and CONFIG_FAULT every
block stands at its power-on values and no input is debounced; only POWER_ON leaves CONFIG_FAULT; and before OPERATING
every controller stands so that every driven output is off. The ATTN pin is asserted in CONFIG_FAULT and otherwise exactly
while a flag of the attention mask is set (R162). What the rules leave open is settled by assumption 2. -/
def Obligations.StartPhasesGuard : Prop :=
  (∀ s t : State, s.quietLines → step s = .next t → t.quietLines) ∧
  (∀ s t : State, s.inert → step s = .next t → t.inert) ∧
  (∀ s t : State, s.start.phase = .configFault → s.pending.head? ≠ some .powerOn → step s = .next t →
    t.start.phase = .configFault) ∧
  (∀ s t : State, (s.operating = false → s.outputsWait) → step s = .next t → (t.operating = false → t.outputsWait)) ∧
  (∀ s : State, s.outputsWait → ∀ o : Output, s.drivenOutput o = false) ∧
  (∀ s : State, s.start.phase = .configFault → s.attn = true) ∧
  (∀ s : State, s.attn = true ↔ s.start.phase = .configFault ∨
    ∃ a : Attention, s.flagged a = true ∧ s.setup.mask.getLsbD a.bit = true)

/-- R123, R124, R128, R129: in every step: a motor barrier is CLOSING exactly while its motor runs and QUEUED exactly
while it stands in the queue, which stands in order, entries with kept travel first and the others by rank; at most one
motor runs, none runs while the supply is LOW, and while OPERATING a barrier
whose release condition holds is never HELD. What the rules leave open is settled by assumptions 2 and 17. -/
def Obligations.MotorsRunInTurn : Prop :=
  (∀ s t : State, s.motorsInTurn → step s = .next t → t.motorsInTurn) ∧
  (∀ s t : State, s.barriersFollow → step s = .next t → t.barriersFollow) ∧
  (∀ (s : State) (o p : Output), s.motorsInTurn → (s.role o).isMotor = true → (s.role p).isMotor = true →
    s.drivenOutput o = true → s.drivenOutput p = true → o = p ∧ s.supply.low = false)

/-- R29, R30, R31, R32, R33, R36, R38, R62, R95, R113: in every step the own level, the zone picture, the fan views, the
flood states, the unserved field and the conditions of the extraction controller agree with their sources. What the
rules leave open is settled by assumption 2. -/
def Obligations.PictureStands : Prop :=
  (∀ s t : State, s.pictureStands → step s = .next t → t.pictureStands) ∧
  (∀ (s : State) (z : Zone), s.pictureStands → (s.zones.live[z]).code ≤ (s.zoneLevel z).code ∧
    (s.zones.latched[z]).code ≤ (s.zoneLevel z).code ∧
    (s.zoneLevel z = s.zones.live[z] ∨ s.zoneLevel z = s.zones.latched[z]))

/-- R17: with permission to transmit, in every step the most recent fill of the STATE slots carries every reported field
as it stands. What the rules leave open is settled by assumptions 2 and 14. -/
def Obligations.ReportStands : Prop :=
  ∀ s t : State, s.reportStands → step s = .next t → t.reportStands

/-- R137, R139 to R145: in every step, while OPERATING, the claims list of a siren output answers the zones that it covers,
an EVACUATE claim is not silenced, an ALL_CLEAR claim stands alone, and the pattern is the one that the list gives; before
OPERATING every list is empty and every output sounds nothing and is off. So an output that covers a zone at EVACUATE
sounds STEADY and is on. What the rules leave open is settled by assumption 2. -/
def Obligations.SirensAnswer : Prop :=
  (∀ s t : State, s.sirensAnswer → step s = .next t → t.sirensAnswer) ∧
  (∀ (s : State) (o : Output) (z : Zone), s.sirensAnswer → s.operating = true → (s.role o).isSiren = true →
    hasZone (s.role o).covered z = true → s.zoneLevel z = .evacuate →
    (s.siren o).pattern = .steady ∧ s.drivenOutput o = true)

/-- R7, R24, R83, R85, R86, R115, R153, R159, R161: in every step the event record holds at most 64 entries, a release
schedule at most eight windows, in order and separated by more than the merge gap while they lie near the clock, the TX
error count is at most 16, no peer entry is the station's own, and the release parameters stand in their ranges; and,
in every command, a latched level falls and an attention flag clears only by POWER_ON or a RESET taken, the fan phase
moves only as Table 6.2 draws it, and causes go only by a START accepted or POWER_ON. What the rules leave open is
settled by assumptions 1 and 2. -/
def Obligations.BoundsAndMoves : Prop :=
  (∀ s t : State, s.recordFits → step s = .next t → t.recordFits) ∧
  (∀ s t : State, s.schedulesFit → step s = .next t → t.schedulesFit) ∧
  (∀ s t : State, s.errorsFit → step s = .next t → t.errorsFit) ∧
  (∀ s t : State, s.inert → s.noOwnEntry → step s = .next t → t.noOwnEntry) ∧
  (∀ image : List Byte, (imageSetup image).releaseRanges) ∧
  (∀ s t : State, (s.started = true → s.setup.releaseRanges) → step s = .next t →
    t.started = true → t.setup.releaseRanges) ∧
  (∀ s t : State, s.inert → (s.started = true → s.setup.releaseRanges) → s.commandNear → s.schedulesInOrder →
    step s = .next t → t.schedulesInOrder) ∧
  (∀ (c : Instr) (s t : State), exec c s = .next t → c ≠ .powerOn →
    (¬s.takesReset c →
      flagsWithin s.flags t.flags ∧
      (∀ z : Zone, (s.zones.latched[z]).code ≤ (t.zones.latched[z]).code ∧
        (t.zones.latched[z] ≠ s.zones.latched[z] →
          (t.zones.latched[z]).atLeast .fire = true ∧ t.zones.latched[z] = t.zones.live[z]))) ∧
    (¬s.acceptsStart c → causesWithin s.extraction.causes t.extraction.causes) ∧
    (s.pictureStands →
      (t.extraction.phase = .standby → s.extraction.phase = .standby) ∧
      (t.extraction.phase = .starting → s.extraction.phase = .starting ∨ s.acceptsStart c) ∧
      (t.extraction.phase = .running → s.extraction.phase = .running ∨
        (s.extraction.phase = .starting ∧ ∃ now, c = .sampleComplete now)) ∧
      (t.extraction.phase = .diverting →
        s.extraction.phase = .diverting ∨ s.extraction.phase = .starting ∨ s.extraction.phase = .running) ∧
      (t.extraction.phase = .rundown → s.extraction.phase = .rundown ∨ s.extraction.phase = .diverting ∨
        s.extraction.phase = .starting ∨ s.extraction.phase = .running) ∧
      (t.extraction.phase = .stopped → s.extraction.phase = .stopped ∨ s.extraction.phase = .rundown)))
end

