-- ==== Sys2Proof/Laws/State.lean ====
section
/-! SUPPORT. One lemma for each field of State under each named update, so that no proof unfolds a record update. -/

namespace Sys2Proof.Machine

/-! ## takeAt -/

@[simp] theorem State.takeAt_clock (s : State) (t : Time) : (s.takeAt t).clock = t := rfl
@[simp] theorem State.takeAt_agings (s : State) (t : Time) : (s.takeAt t).agings = s.agings := rfl
@[simp] theorem State.takeAt_start (s : State) (t : Time) : (s.takeAt t).start = s.start := rfl
@[simp] theorem State.takeAt_setup (s : State) (t : Time) : (s.takeAt t).setup = s.setup := rfl
@[simp] theorem State.takeAt_lineA (s : State) (t : Time) : (s.takeAt t).lineA = s.lineA := rfl
@[simp] theorem State.takeAt_lineB (s : State) (t : Time) : (s.takeAt t).lineB = s.lineB := rfl
@[simp] theorem State.takeAt_assembler (s : State) (t : Time) : (s.takeAt t).assembler = s.assembler := rfl
@[simp] theorem State.takeAt_peers (s : State) (t : Time) : (s.takeAt t).peers = s.peers := rfl
@[simp] theorem State.takeAt_zones (s : State) (t : Time) : (s.takeAt t).zones = s.zones := rfl
@[simp] theorem State.takeAt_views (s : State) (t : Time) : (s.takeAt t).views = s.views := rfl
@[simp] theorem State.takeAt_flood (s : State) (t : Time) : (s.takeAt t).flood = s.flood := rfl
@[simp] theorem State.takeAt_inputs (s : State) (t : Time) : (s.takeAt t).inputs = s.inputs := rfl
@[simp] theorem State.takeAt_press (s : State) (t : Time) : (s.takeAt t).press = s.press := rfl
@[simp] theorem State.takeAt_own (s : State) (t : Time) : (s.takeAt t).own = s.own := rfl
@[simp] theorem State.takeAt_sensing (s : State) (t : Time) : (s.takeAt t).sensing = s.sensing := rfl
@[simp] theorem State.takeAt_valves (s : State) (t : Time) : (s.takeAt t).valves = s.valves := rfl
@[simp] theorem State.takeAt_extraction (s : State) (t : Time) : (s.takeAt t).extraction = s.extraction := rfl
@[simp] theorem State.takeAt_barriers (s : State) (t : Time) : (s.takeAt t).barriers = s.barriers := rfl
@[simp] theorem State.takeAt_sirens (s : State) (t : Time) : (s.takeAt t).sirens = s.sirens := rfl
@[simp] theorem State.takeAt_supply (s : State) (t : Time) : (s.takeAt t).supply = s.supply := rfl
@[simp] theorem State.takeAt_record (s : State) (t : Time) : (s.takeAt t).record = s.record := rfl
@[simp] theorem State.takeAt_flags (s : State) (t : Time) : (s.takeAt t).flags = s.flags := rfl
@[simp] theorem State.takeAt_port (s : State) (t : Time) : (s.takeAt t).port = s.port := rfl
@[simp] theorem State.takeAt_pending (s : State) (t : Time) : (s.takeAt t).pending = s.pending := rfl

/-! ## withPending -/

@[simp] theorem State.withPending_clock (s : State) (q : List Instr) : (s.withPending q).clock = s.clock := rfl
@[simp] theorem State.withPending_agings (s : State) (q : List Instr) : (s.withPending q).agings = s.agings := rfl
@[simp] theorem State.withPending_start (s : State) (q : List Instr) : (s.withPending q).start = s.start := rfl
@[simp] theorem State.withPending_setup (s : State) (q : List Instr) : (s.withPending q).setup = s.setup := rfl
@[simp] theorem State.withPending_lineA (s : State) (q : List Instr) : (s.withPending q).lineA = s.lineA := rfl
@[simp] theorem State.withPending_lineB (s : State) (q : List Instr) : (s.withPending q).lineB = s.lineB := rfl
@[simp] theorem State.withPending_assembler (s : State) (q : List Instr) :
    (s.withPending q).assembler =
      s.assembler := rfl
@[simp] theorem State.withPending_peers (s : State) (q : List Instr) : (s.withPending q).peers = s.peers := rfl
@[simp] theorem State.withPending_zones (s : State) (q : List Instr) : (s.withPending q).zones = s.zones := rfl
@[simp] theorem State.withPending_views (s : State) (q : List Instr) : (s.withPending q).views = s.views := rfl
@[simp] theorem State.withPending_flood (s : State) (q : List Instr) : (s.withPending q).flood = s.flood := rfl
@[simp] theorem State.withPending_inputs (s : State) (q : List Instr) : (s.withPending q).inputs = s.inputs := rfl
@[simp] theorem State.withPending_press (s : State) (q : List Instr) : (s.withPending q).press = s.press := rfl
@[simp] theorem State.withPending_own (s : State) (q : List Instr) : (s.withPending q).own = s.own := rfl
@[simp] theorem State.withPending_sensing (s : State) (q : List Instr) : (s.withPending q).sensing = s.sensing := rfl
@[simp] theorem State.withPending_valves (s : State) (q : List Instr) : (s.withPending q).valves = s.valves := rfl
@[simp] theorem State.withPending_extraction (s : State) (q : List Instr) :
    (s.withPending q).extraction =
      s.extraction := rfl
@[simp] theorem State.withPending_barriers (s : State) (q : List Instr) :
    (s.withPending q).barriers =
      s.barriers := rfl
@[simp] theorem State.withPending_sirens (s : State) (q : List Instr) : (s.withPending q).sirens = s.sirens := rfl
@[simp] theorem State.withPending_supply (s : State) (q : List Instr) : (s.withPending q).supply = s.supply := rfl
@[simp] theorem State.withPending_record (s : State) (q : List Instr) : (s.withPending q).record = s.record := rfl
@[simp] theorem State.withPending_flags (s : State) (q : List Instr) : (s.withPending q).flags = s.flags := rfl
@[simp] theorem State.withPending_port (s : State) (q : List Instr) : (s.withPending q).port = s.port := rfl
@[simp] theorem State.withPending_pending (s : State) (q : List Instr) : (s.withPending q).pending = q := rfl

/-! ## file -/

@[simp] theorem State.file_clock (s : State) (k : RecordKind) (b : Byte) (v : Count) :
    (s.file k b v).clock =
      s.clock := rfl
@[simp] theorem State.file_agings (s : State) (k : RecordKind) (b : Byte) (v : Count) :
    (s.file k b v).agings =
      s.agings := rfl
@[simp] theorem State.file_start (s : State) (k : RecordKind) (b : Byte) (v : Count) :
    (s.file k b v).start =
      s.start := rfl
@[simp] theorem State.file_setup (s : State) (k : RecordKind) (b : Byte) (v : Count) :
    (s.file k b v).setup =
      s.setup := rfl
@[simp] theorem State.file_lineA (s : State) (k : RecordKind) (b : Byte) (v : Count) :
    (s.file k b v).lineA =
      s.lineA := rfl
@[simp] theorem State.file_lineB (s : State) (k : RecordKind) (b : Byte) (v : Count) :
    (s.file k b v).lineB =
      s.lineB := rfl
@[simp] theorem State.file_assembler (s : State) (k : RecordKind) (b : Byte) (v : Count) :
    (s.file k b v).assembler =
      s.assembler := rfl
@[simp] theorem State.file_peers (s : State) (k : RecordKind) (b : Byte) (v : Count) :
    (s.file k b v).peers =
      s.peers := rfl
@[simp] theorem State.file_zones (s : State) (k : RecordKind) (b : Byte) (v : Count) :
    (s.file k b v).zones =
      s.zones := rfl
@[simp] theorem State.file_views (s : State) (k : RecordKind) (b : Byte) (v : Count) :
    (s.file k b v).views =
      s.views := rfl
@[simp] theorem State.file_flood (s : State) (k : RecordKind) (b : Byte) (v : Count) :
    (s.file k b v).flood =
      s.flood := rfl
@[simp] theorem State.file_inputs (s : State) (k : RecordKind) (b : Byte) (v : Count) :
    (s.file k b v).inputs =
      s.inputs := rfl
@[simp] theorem State.file_press (s : State) (k : RecordKind) (b : Byte) (v : Count) :
    (s.file k b v).press =
      s.press := rfl
@[simp] theorem State.file_own (s : State) (k : RecordKind) (b : Byte) (v : Count) : (s.file k b v).own = s.own := rfl
@[simp] theorem State.file_sensing (s : State) (k : RecordKind) (b : Byte) (v : Count) :
    (s.file k b v).sensing =
      s.sensing := rfl
@[simp] theorem State.file_valves (s : State) (k : RecordKind) (b : Byte) (v : Count) :
    (s.file k b v).valves =
      s.valves := rfl
@[simp] theorem State.file_extraction (s : State) (k : RecordKind) (b : Byte) (v : Count) :
    (s.file k b v).extraction =
      s.extraction := rfl
@[simp] theorem State.file_barriers (s : State) (k : RecordKind) (b : Byte) (v : Count) :
    (s.file k b v).barriers =
      s.barriers := rfl
@[simp] theorem State.file_sirens (s : State) (k : RecordKind) (b : Byte) (v : Count) :
    (s.file k b v).sirens =
      s.sirens := rfl
@[simp] theorem State.file_supply (s : State) (k : RecordKind) (b : Byte) (v : Count) :
    (s.file k b v).supply =
      s.supply := rfl
@[simp] theorem State.file_record (s : State) (k : RecordKind) (b : Byte) (v : Count) :
    (s.file k b v).record =
      s.record.file s.clock ⟨k, b, v⟩ := rfl
@[simp] theorem State.file_flags (s : State) (k : RecordKind) (b : Byte) (v : Count) :
    (s.file k b v).flags =
      s.flags := rfl
@[simp] theorem State.file_port (s : State) (k : RecordKind) (b : Byte) (v : Count) :
    (s.file k b v).port =
      s.port := rfl
@[simp] theorem State.file_pending (s : State) (k : RecordKind) (b : Byte) (v : Count) :
    (s.file k b v).pending =
      s.pending := rfl

/-! ## fileAll -/

@[simp] theorem State.fileAll_clock (s : State) (fs : List Filing) : (s.fileAll fs).clock = s.clock := rfl
@[simp] theorem State.fileAll_agings (s : State) (fs : List Filing) : (s.fileAll fs).agings = s.agings := rfl
@[simp] theorem State.fileAll_start (s : State) (fs : List Filing) : (s.fileAll fs).start = s.start := rfl
@[simp] theorem State.fileAll_setup (s : State) (fs : List Filing) : (s.fileAll fs).setup = s.setup := rfl
@[simp] theorem State.fileAll_lineA (s : State) (fs : List Filing) : (s.fileAll fs).lineA = s.lineA := rfl
@[simp] theorem State.fileAll_lineB (s : State) (fs : List Filing) : (s.fileAll fs).lineB = s.lineB := rfl
@[simp] theorem State.fileAll_assembler (s : State) (fs : List Filing) : (s.fileAll fs).assembler = s.assembler := rfl
@[simp] theorem State.fileAll_peers (s : State) (fs : List Filing) : (s.fileAll fs).peers = s.peers := rfl
@[simp] theorem State.fileAll_zones (s : State) (fs : List Filing) : (s.fileAll fs).zones = s.zones := rfl
@[simp] theorem State.fileAll_views (s : State) (fs : List Filing) : (s.fileAll fs).views = s.views := rfl
@[simp] theorem State.fileAll_flood (s : State) (fs : List Filing) : (s.fileAll fs).flood = s.flood := rfl
@[simp] theorem State.fileAll_inputs (s : State) (fs : List Filing) : (s.fileAll fs).inputs = s.inputs := rfl
@[simp] theorem State.fileAll_press (s : State) (fs : List Filing) : (s.fileAll fs).press = s.press := rfl
@[simp] theorem State.fileAll_own (s : State) (fs : List Filing) : (s.fileAll fs).own = s.own := rfl
@[simp] theorem State.fileAll_sensing (s : State) (fs : List Filing) : (s.fileAll fs).sensing = s.sensing := rfl
@[simp] theorem State.fileAll_valves (s : State) (fs : List Filing) : (s.fileAll fs).valves = s.valves := rfl
@[simp] theorem State.fileAll_extraction (s : State) (fs : List Filing) :
    (s.fileAll fs).extraction =
      s.extraction := rfl
@[simp] theorem State.fileAll_barriers (s : State) (fs : List Filing) : (s.fileAll fs).barriers = s.barriers := rfl
@[simp] theorem State.fileAll_sirens (s : State) (fs : List Filing) : (s.fileAll fs).sirens = s.sirens := rfl
@[simp] theorem State.fileAll_supply (s : State) (fs : List Filing) : (s.fileAll fs).supply = s.supply := rfl
@[simp] theorem State.fileAll_record (s : State) (fs : List Filing) :
    (s.fileAll fs).record =
      s.record.fileAll s.clock fs := rfl
@[simp] theorem State.fileAll_flags (s : State) (fs : List Filing) : (s.fileAll fs).flags = s.flags := rfl
@[simp] theorem State.fileAll_port (s : State) (fs : List Filing) : (s.fileAll fs).port = s.port := rfl
@[simp] theorem State.fileAll_pending (s : State) (fs : List Filing) : (s.fileAll fs).pending = s.pending := rfl

/-! ## raise -/

@[simp] theorem State.raise_clock (s : State) (a : Attention) : (s.raise a).clock = s.clock := rfl
@[simp] theorem State.raise_agings (s : State) (a : Attention) : (s.raise a).agings = s.agings := rfl
@[simp] theorem State.raise_start (s : State) (a : Attention) : (s.raise a).start = s.start := rfl
@[simp] theorem State.raise_setup (s : State) (a : Attention) : (s.raise a).setup = s.setup := rfl
@[simp] theorem State.raise_lineA (s : State) (a : Attention) : (s.raise a).lineA = s.lineA := rfl
@[simp] theorem State.raise_lineB (s : State) (a : Attention) : (s.raise a).lineB = s.lineB := rfl
@[simp] theorem State.raise_assembler (s : State) (a : Attention) : (s.raise a).assembler = s.assembler := rfl
@[simp] theorem State.raise_peers (s : State) (a : Attention) : (s.raise a).peers = s.peers := rfl
@[simp] theorem State.raise_zones (s : State) (a : Attention) : (s.raise a).zones = s.zones := rfl
@[simp] theorem State.raise_views (s : State) (a : Attention) : (s.raise a).views = s.views := rfl
@[simp] theorem State.raise_flood (s : State) (a : Attention) : (s.raise a).flood = s.flood := rfl
@[simp] theorem State.raise_inputs (s : State) (a : Attention) : (s.raise a).inputs = s.inputs := rfl
@[simp] theorem State.raise_press (s : State) (a : Attention) : (s.raise a).press = s.press := rfl
@[simp] theorem State.raise_own (s : State) (a : Attention) : (s.raise a).own = s.own := rfl
@[simp] theorem State.raise_sensing (s : State) (a : Attention) : (s.raise a).sensing = s.sensing := rfl
@[simp] theorem State.raise_valves (s : State) (a : Attention) : (s.raise a).valves = s.valves := rfl
@[simp] theorem State.raise_extraction (s : State) (a : Attention) : (s.raise a).extraction = s.extraction := rfl
@[simp] theorem State.raise_barriers (s : State) (a : Attention) : (s.raise a).barriers = s.barriers := rfl
@[simp] theorem State.raise_sirens (s : State) (a : Attention) : (s.raise a).sirens = s.sirens := rfl
@[simp] theorem State.raise_supply (s : State) (a : Attention) : (s.raise a).supply = s.supply := rfl
@[simp] theorem State.raise_record (s : State) (a : Attention) : (s.raise a).record = s.record := rfl
@[simp] theorem State.raise_flags (s : State) (a : Attention) : (s.raise a).flags = s.flags ||| a.mask := rfl
@[simp] theorem State.raise_port (s : State) (a : Attention) : (s.raise a).port = s.port := rfl
@[simp] theorem State.raise_pending (s : State) (a : Attention) : (s.raise a).pending = s.pending := rfl

/-! ## withValve -/

@[simp] theorem State.withValve_clock (s : State) (o : Output) (v : Valve) : (s.withValve o v).clock = s.clock := rfl
@[simp] theorem State.withValve_agings (s : State) (o : Output) (v : Valve) :
    (s.withValve o v).agings =
      s.agings := rfl
@[simp] theorem State.withValve_start (s : State) (o : Output) (v : Valve) : (s.withValve o v).start = s.start := rfl
@[simp] theorem State.withValve_setup (s : State) (o : Output) (v : Valve) : (s.withValve o v).setup = s.setup := rfl
@[simp] theorem State.withValve_lineA (s : State) (o : Output) (v : Valve) : (s.withValve o v).lineA = s.lineA := rfl
@[simp] theorem State.withValve_lineB (s : State) (o : Output) (v : Valve) : (s.withValve o v).lineB = s.lineB := rfl
@[simp] theorem State.withValve_assembler (s : State) (o : Output) (v : Valve) :
    (s.withValve o v).assembler =
      s.assembler := rfl
@[simp] theorem State.withValve_peers (s : State) (o : Output) (v : Valve) : (s.withValve o v).peers = s.peers := rfl
@[simp] theorem State.withValve_zones (s : State) (o : Output) (v : Valve) : (s.withValve o v).zones = s.zones := rfl
@[simp] theorem State.withValve_views (s : State) (o : Output) (v : Valve) : (s.withValve o v).views = s.views := rfl
@[simp] theorem State.withValve_flood (s : State) (o : Output) (v : Valve) : (s.withValve o v).flood = s.flood := rfl
@[simp] theorem State.withValve_inputs (s : State) (o : Output) (v : Valve) :
    (s.withValve o v).inputs =
      s.inputs := rfl
@[simp] theorem State.withValve_press (s : State) (o : Output) (v : Valve) : (s.withValve o v).press = s.press := rfl
@[simp] theorem State.withValve_own (s : State) (o : Output) (v : Valve) : (s.withValve o v).own = s.own := rfl
@[simp] theorem State.withValve_sensing (s : State) (o : Output) (v : Valve) :
    (s.withValve o v).sensing =
      s.sensing := rfl
@[simp] theorem State.withValve_valves (s : State) (o : Output) (v : Valve) :
    (s.withValve o v).valves =
      put s.valves o v := rfl
@[simp] theorem State.withValve_extraction (s : State) (o : Output) (v : Valve) :
    (s.withValve o v).extraction =
      s.extraction := rfl
@[simp] theorem State.withValve_barriers (s : State) (o : Output) (v : Valve) :
    (s.withValve o v).barriers =
      s.barriers := rfl
@[simp] theorem State.withValve_sirens (s : State) (o : Output) (v : Valve) :
    (s.withValve o v).sirens =
      s.sirens := rfl
@[simp] theorem State.withValve_supply (s : State) (o : Output) (v : Valve) :
    (s.withValve o v).supply =
      s.supply := rfl
@[simp] theorem State.withValve_record (s : State) (o : Output) (v : Valve) :
    (s.withValve o v).record =
      s.record := rfl
@[simp] theorem State.withValve_flags (s : State) (o : Output) (v : Valve) : (s.withValve o v).flags = s.flags := rfl
@[simp] theorem State.withValve_port (s : State) (o : Output) (v : Valve) : (s.withValve o v).port = s.port := rfl
@[simp] theorem State.withValve_pending (s : State) (o : Output) (v : Valve) :
    (s.withValve o v).pending =
      s.pending := rfl

/-! ## withBarrier -/

@[simp] theorem State.withBarrier_clock (s : State) (o : Output) (b : Barrier) :
    (s.withBarrier o b).clock =
      s.clock := rfl
@[simp] theorem State.withBarrier_agings (s : State) (o : Output) (b : Barrier) :
    (s.withBarrier o b).agings =
      s.agings := rfl
@[simp] theorem State.withBarrier_start (s : State) (o : Output) (b : Barrier) :
    (s.withBarrier o b).start =
      s.start := rfl
@[simp] theorem State.withBarrier_setup (s : State) (o : Output) (b : Barrier) :
    (s.withBarrier o b).setup =
      s.setup := rfl
@[simp] theorem State.withBarrier_lineA (s : State) (o : Output) (b : Barrier) :
    (s.withBarrier o b).lineA =
      s.lineA := rfl
@[simp] theorem State.withBarrier_lineB (s : State) (o : Output) (b : Barrier) :
    (s.withBarrier o b).lineB =
      s.lineB := rfl
@[simp] theorem State.withBarrier_assembler (s : State) (o : Output) (b : Barrier) :
    (s.withBarrier o b).assembler =
      s.assembler := rfl
@[simp] theorem State.withBarrier_peers (s : State) (o : Output) (b : Barrier) :
    (s.withBarrier o b).peers =
      s.peers := rfl
@[simp] theorem State.withBarrier_zones (s : State) (o : Output) (b : Barrier) :
    (s.withBarrier o b).zones =
      s.zones := rfl
@[simp] theorem State.withBarrier_views (s : State) (o : Output) (b : Barrier) :
    (s.withBarrier o b).views =
      s.views := rfl
@[simp] theorem State.withBarrier_flood (s : State) (o : Output) (b : Barrier) :
    (s.withBarrier o b).flood =
      s.flood := rfl
@[simp] theorem State.withBarrier_inputs (s : State) (o : Output) (b : Barrier) :
    (s.withBarrier o b).inputs =
      s.inputs := rfl
@[simp] theorem State.withBarrier_press (s : State) (o : Output) (b : Barrier) :
    (s.withBarrier o b).press =
      s.press := rfl
@[simp] theorem State.withBarrier_own (s : State) (o : Output) (b : Barrier) : (s.withBarrier o b).own = s.own := rfl
@[simp] theorem State.withBarrier_sensing (s : State) (o : Output) (b : Barrier) :
    (s.withBarrier o b).sensing =
      s.sensing := rfl
@[simp] theorem State.withBarrier_valves (s : State) (o : Output) (b : Barrier) :
    (s.withBarrier o b).valves =
      s.valves := rfl
@[simp] theorem State.withBarrier_extraction (s : State) (o : Output) (b : Barrier) :
    (s.withBarrier o b).extraction =
      s.extraction := rfl
@[simp] theorem State.withBarrier_barriers (s : State) (o : Output) (b : Barrier) :
    (s.withBarrier o b).barriers =
      { s.barriers with units := put s.barriers.units o b } := rfl
@[simp] theorem State.withBarrier_sirens (s : State) (o : Output) (b : Barrier) :
    (s.withBarrier o b).sirens =
      s.sirens := rfl
@[simp] theorem State.withBarrier_supply (s : State) (o : Output) (b : Barrier) :
    (s.withBarrier o b).supply =
      s.supply := rfl
@[simp] theorem State.withBarrier_record (s : State) (o : Output) (b : Barrier) :
    (s.withBarrier o b).record =
      s.record := rfl
@[simp] theorem State.withBarrier_flags (s : State) (o : Output) (b : Barrier) :
    (s.withBarrier o b).flags =
      s.flags := rfl
@[simp] theorem State.withBarrier_port (s : State) (o : Output) (b : Barrier) :
    (s.withBarrier o b).port =
      s.port := rfl
@[simp] theorem State.withBarrier_pending (s : State) (o : Output) (b : Barrier) :
    (s.withBarrier o b).pending =
      s.pending := rfl

/-! ## withSiren -/

@[simp] theorem State.withSiren_clock (s : State) (o : Output) (u : Siren) : (s.withSiren o u).clock = s.clock := rfl
@[simp] theorem State.withSiren_agings (s : State) (o : Output) (u : Siren) :
    (s.withSiren o u).agings =
      s.agings := rfl
@[simp] theorem State.withSiren_start (s : State) (o : Output) (u : Siren) : (s.withSiren o u).start = s.start := rfl
@[simp] theorem State.withSiren_setup (s : State) (o : Output) (u : Siren) : (s.withSiren o u).setup = s.setup := rfl
@[simp] theorem State.withSiren_lineA (s : State) (o : Output) (u : Siren) : (s.withSiren o u).lineA = s.lineA := rfl
@[simp] theorem State.withSiren_lineB (s : State) (o : Output) (u : Siren) : (s.withSiren o u).lineB = s.lineB := rfl
@[simp] theorem State.withSiren_assembler (s : State) (o : Output) (u : Siren) :
    (s.withSiren o u).assembler =
      s.assembler := rfl
@[simp] theorem State.withSiren_peers (s : State) (o : Output) (u : Siren) : (s.withSiren o u).peers = s.peers := rfl
@[simp] theorem State.withSiren_zones (s : State) (o : Output) (u : Siren) : (s.withSiren o u).zones = s.zones := rfl
@[simp] theorem State.withSiren_views (s : State) (o : Output) (u : Siren) : (s.withSiren o u).views = s.views := rfl
@[simp] theorem State.withSiren_flood (s : State) (o : Output) (u : Siren) : (s.withSiren o u).flood = s.flood := rfl
@[simp] theorem State.withSiren_inputs (s : State) (o : Output) (u : Siren) :
    (s.withSiren o u).inputs =
      s.inputs := rfl
@[simp] theorem State.withSiren_press (s : State) (o : Output) (u : Siren) : (s.withSiren o u).press = s.press := rfl
@[simp] theorem State.withSiren_own (s : State) (o : Output) (u : Siren) : (s.withSiren o u).own = s.own := rfl
@[simp] theorem State.withSiren_sensing (s : State) (o : Output) (u : Siren) :
    (s.withSiren o u).sensing =
      s.sensing := rfl
@[simp] theorem State.withSiren_valves (s : State) (o : Output) (u : Siren) :
    (s.withSiren o u).valves =
      s.valves := rfl
@[simp] theorem State.withSiren_extraction (s : State) (o : Output) (u : Siren) :
    (s.withSiren o u).extraction =
      s.extraction := rfl
@[simp] theorem State.withSiren_barriers (s : State) (o : Output) (u : Siren) :
    (s.withSiren o u).barriers =
      s.barriers := rfl
@[simp] theorem State.withSiren_sirens (s : State) (o : Output) (u : Siren) :
    (s.withSiren o u).sirens =
      { s.sirens with units := put s.sirens.units o u } := rfl
@[simp] theorem State.withSiren_supply (s : State) (o : Output) (u : Siren) :
    (s.withSiren o u).supply =
      s.supply := rfl
@[simp] theorem State.withSiren_record (s : State) (o : Output) (u : Siren) :
    (s.withSiren o u).record =
      s.record := rfl
@[simp] theorem State.withSiren_flags (s : State) (o : Output) (u : Siren) : (s.withSiren o u).flags = s.flags := rfl
@[simp] theorem State.withSiren_port (s : State) (o : Output) (u : Siren) : (s.withSiren o u).port = s.port := rfl
@[simp] theorem State.withSiren_pending (s : State) (o : Output) (u : Siren) :
    (s.withSiren o u).pending =
      s.pending := rfl

/-! ## withChannel -/

@[simp] theorem State.withChannel_clock (s : State) (c : Channel) (x : SparkChannel) :
    (s.withChannel c x).clock =
      s.clock := rfl
@[simp] theorem State.withChannel_agings (s : State) (c : Channel) (x : SparkChannel) :
    (s.withChannel c x).agings =
      s.agings := rfl
@[simp] theorem State.withChannel_start (s : State) (c : Channel) (x : SparkChannel) :
    (s.withChannel c x).start =
      s.start := rfl
@[simp] theorem State.withChannel_setup (s : State) (c : Channel) (x : SparkChannel) :
    (s.withChannel c x).setup =
      s.setup := rfl
@[simp] theorem State.withChannel_lineA (s : State) (c : Channel) (x : SparkChannel) :
    (s.withChannel c x).lineA =
      s.lineA := rfl
@[simp] theorem State.withChannel_lineB (s : State) (c : Channel) (x : SparkChannel) :
    (s.withChannel c x).lineB =
      s.lineB := rfl
@[simp] theorem State.withChannel_assembler (s : State) (c : Channel) (x : SparkChannel) :
    (s.withChannel c x).assembler =
      s.assembler := rfl
@[simp] theorem State.withChannel_peers (s : State) (c : Channel) (x : SparkChannel) :
    (s.withChannel c x).peers =
      s.peers := rfl
@[simp] theorem State.withChannel_zones (s : State) (c : Channel) (x : SparkChannel) :
    (s.withChannel c x).zones =
      s.zones := rfl
@[simp] theorem State.withChannel_views (s : State) (c : Channel) (x : SparkChannel) :
    (s.withChannel c x).views =
      s.views := rfl
@[simp] theorem State.withChannel_flood (s : State) (c : Channel) (x : SparkChannel) :
    (s.withChannel c x).flood =
      s.flood := rfl
@[simp] theorem State.withChannel_inputs (s : State) (c : Channel) (x : SparkChannel) :
    (s.withChannel c x).inputs =
      s.inputs := rfl
@[simp] theorem State.withChannel_press (s : State) (c : Channel) (x : SparkChannel) :
    (s.withChannel c x).press =
      s.press := rfl
@[simp] theorem State.withChannel_own (s : State) (c : Channel) (x : SparkChannel) :
    (s.withChannel c x).own =
      s.own := rfl
@[simp] theorem State.withChannel_sensing (s : State) (c : Channel) (x : SparkChannel) :
    (s.withChannel c x).sensing =
      { s.sensing with channels := put s.sensing.channels c x } := rfl
@[simp] theorem State.withChannel_valves (s : State) (c : Channel) (x : SparkChannel) :
    (s.withChannel c x).valves =
      s.valves := rfl
@[simp] theorem State.withChannel_extraction (s : State) (c : Channel) (x : SparkChannel) :
    (s.withChannel c x).extraction =
      s.extraction := rfl
@[simp] theorem State.withChannel_barriers (s : State) (c : Channel) (x : SparkChannel) :
    (s.withChannel c x).barriers =
      s.barriers := rfl
@[simp] theorem State.withChannel_sirens (s : State) (c : Channel) (x : SparkChannel) :
    (s.withChannel c x).sirens =
      s.sirens := rfl
@[simp] theorem State.withChannel_supply (s : State) (c : Channel) (x : SparkChannel) :
    (s.withChannel c x).supply =
      s.supply := rfl
@[simp] theorem State.withChannel_record (s : State) (c : Channel) (x : SparkChannel) :
    (s.withChannel c x).record =
      s.record := rfl
@[simp] theorem State.withChannel_flags (s : State) (c : Channel) (x : SparkChannel) :
    (s.withChannel c x).flags =
      s.flags := rfl
@[simp] theorem State.withChannel_port (s : State) (c : Channel) (x : SparkChannel) :
    (s.withChannel c x).port =
      s.port := rfl
@[simp] theorem State.withChannel_pending (s : State) (c : Channel) (x : SparkChannel) :
    (s.withChannel c x).pending =
      s.pending := rfl

/-! ## setFeedback -/

@[simp] theorem State.setFeedback_clock (s : State) (o : Output) (b : Bool) :
    (s.setFeedback o b).clock =
      s.clock := rfl
@[simp] theorem State.setFeedback_agings (s : State) (o : Output) (b : Bool) :
    (s.setFeedback o b).agings =
      s.agings := rfl
@[simp] theorem State.setFeedback_start (s : State) (o : Output) (b : Bool) :
    (s.setFeedback o b).start =
      s.start := rfl
@[simp] theorem State.setFeedback_setup (s : State) (o : Output) (b : Bool) :
    (s.setFeedback o b).setup =
      s.setup := rfl
@[simp] theorem State.setFeedback_lineA (s : State) (o : Output) (b : Bool) :
    (s.setFeedback o b).lineA =
      s.lineA := rfl
@[simp] theorem State.setFeedback_lineB (s : State) (o : Output) (b : Bool) :
    (s.setFeedback o b).lineB =
      s.lineB := rfl
@[simp] theorem State.setFeedback_assembler (s : State) (o : Output) (b : Bool) :
    (s.setFeedback o b).assembler =
      s.assembler := rfl
@[simp] theorem State.setFeedback_peers (s : State) (o : Output) (b : Bool) :
    (s.setFeedback o b).peers =
      s.peers := rfl
@[simp] theorem State.setFeedback_zones (s : State) (o : Output) (b : Bool) :
    (s.setFeedback o b).zones =
      s.zones := rfl
@[simp] theorem State.setFeedback_views (s : State) (o : Output) (b : Bool) :
    (s.setFeedback o b).views =
      s.views := rfl
@[simp] theorem State.setFeedback_flood (s : State) (o : Output) (b : Bool) :
    (s.setFeedback o b).flood =
      s.flood := rfl
@[simp] theorem State.setFeedback_inputs (s : State) (o : Output) (b : Bool) :
    (s.setFeedback o b).inputs =
      { s.inputs with feedback := change s.inputs.feedback o (Feedback.become b s.clock) } := rfl
@[simp] theorem State.setFeedback_press (s : State) (o : Output) (b : Bool) :
    (s.setFeedback o b).press =
      s.press := rfl
@[simp] theorem State.setFeedback_own (s : State) (o : Output) (b : Bool) : (s.setFeedback o b).own = s.own := rfl
@[simp] theorem State.setFeedback_sensing (s : State) (o : Output) (b : Bool) :
    (s.setFeedback o b).sensing =
      s.sensing := rfl
@[simp] theorem State.setFeedback_valves (s : State) (o : Output) (b : Bool) :
    (s.setFeedback o b).valves =
      s.valves := rfl
@[simp] theorem State.setFeedback_extraction (s : State) (o : Output) (b : Bool) :
    (s.setFeedback o b).extraction =
      s.extraction := rfl
@[simp] theorem State.setFeedback_barriers (s : State) (o : Output) (b : Bool) :
    (s.setFeedback o b).barriers =
      s.barriers := rfl
@[simp] theorem State.setFeedback_sirens (s : State) (o : Output) (b : Bool) :
    (s.setFeedback o b).sirens =
      s.sirens := rfl
@[simp] theorem State.setFeedback_supply (s : State) (o : Output) (b : Bool) :
    (s.setFeedback o b).supply =
      s.supply := rfl
@[simp] theorem State.setFeedback_record (s : State) (o : Output) (b : Bool) :
    (s.setFeedback o b).record =
      s.record := rfl
@[simp] theorem State.setFeedback_flags (s : State) (o : Output) (b : Bool) :
    (s.setFeedback o b).flags =
      s.flags := rfl
@[simp] theorem State.setFeedback_port (s : State) (o : Output) (b : Bool) : (s.setFeedback o b).port = s.port := rfl
@[simp] theorem State.setFeedback_pending (s : State) (o : Output) (b : Bool) :
    (s.setFeedback o b).pending =
      s.pending := rfl

/-! ## setSparkPin -/

@[simp] theorem State.setSparkPin_clock (s : State) (c : Channel) (b : Bool) :
    (s.setSparkPin c b).clock =
      s.clock := rfl
@[simp] theorem State.setSparkPin_agings (s : State) (c : Channel) (b : Bool) :
    (s.setSparkPin c b).agings =
      s.agings := rfl
@[simp] theorem State.setSparkPin_start (s : State) (c : Channel) (b : Bool) :
    (s.setSparkPin c b).start =
      s.start := rfl
@[simp] theorem State.setSparkPin_setup (s : State) (c : Channel) (b : Bool) :
    (s.setSparkPin c b).setup =
      s.setup := rfl
@[simp] theorem State.setSparkPin_lineA (s : State) (c : Channel) (b : Bool) :
    (s.setSparkPin c b).lineA =
      s.lineA := rfl
@[simp] theorem State.setSparkPin_lineB (s : State) (c : Channel) (b : Bool) :
    (s.setSparkPin c b).lineB =
      s.lineB := rfl
@[simp] theorem State.setSparkPin_assembler (s : State) (c : Channel) (b : Bool) :
    (s.setSparkPin c b).assembler =
      s.assembler := rfl
@[simp] theorem State.setSparkPin_peers (s : State) (c : Channel) (b : Bool) :
    (s.setSparkPin c b).peers =
      s.peers := rfl
@[simp] theorem State.setSparkPin_zones (s : State) (c : Channel) (b : Bool) :
    (s.setSparkPin c b).zones =
      s.zones := rfl
@[simp] theorem State.setSparkPin_views (s : State) (c : Channel) (b : Bool) :
    (s.setSparkPin c b).views =
      s.views := rfl
@[simp] theorem State.setSparkPin_flood (s : State) (c : Channel) (b : Bool) :
    (s.setSparkPin c b).flood =
      s.flood := rfl
@[simp] theorem State.setSparkPin_inputs (s : State) (c : Channel) (b : Bool) :
    (s.setSparkPin c b).inputs =
      { s.inputs with spark := put s.inputs.spark c b } := rfl
@[simp] theorem State.setSparkPin_press (s : State) (c : Channel) (b : Bool) :
    (s.setSparkPin c b).press =
      s.press := rfl
@[simp] theorem State.setSparkPin_own (s : State) (c : Channel) (b : Bool) : (s.setSparkPin c b).own = s.own := rfl
@[simp] theorem State.setSparkPin_sensing (s : State) (c : Channel) (b : Bool) :
    (s.setSparkPin c b).sensing =
      s.sensing := rfl
@[simp] theorem State.setSparkPin_valves (s : State) (c : Channel) (b : Bool) :
    (s.setSparkPin c b).valves =
      s.valves := rfl
@[simp] theorem State.setSparkPin_extraction (s : State) (c : Channel) (b : Bool) :
    (s.setSparkPin c b).extraction =
      s.extraction := rfl
@[simp] theorem State.setSparkPin_barriers (s : State) (c : Channel) (b : Bool) :
    (s.setSparkPin c b).barriers =
      s.barriers := rfl
@[simp] theorem State.setSparkPin_sirens (s : State) (c : Channel) (b : Bool) :
    (s.setSparkPin c b).sirens =
      s.sirens := rfl
@[simp] theorem State.setSparkPin_supply (s : State) (c : Channel) (b : Bool) :
    (s.setSparkPin c b).supply =
      s.supply := rfl
@[simp] theorem State.setSparkPin_record (s : State) (c : Channel) (b : Bool) :
    (s.setSparkPin c b).record =
      s.record := rfl
@[simp] theorem State.setSparkPin_flags (s : State) (c : Channel) (b : Bool) :
    (s.setSparkPin c b).flags =
      s.flags := rfl
@[simp] theorem State.setSparkPin_port (s : State) (c : Channel) (b : Bool) : (s.setSparkPin c b).port = s.port := rfl
@[simp] theorem State.setSparkPin_pending (s : State) (c : Channel) (b : Bool) :
    (s.setSparkPin c b).pending =
      s.pending := rfl

/-! ## withLine -/

@[simp] theorem State.withLine_clock (s : State) (l : Line) (x : LineInterface) : (s.withLine l x).clock = s.clock := rfl
@[simp] theorem State.withLine_agings (s : State) (l : Line) (x : LineInterface) : (s.withLine l x).agings = s.agings := rfl
@[simp] theorem State.withLine_start (s : State) (l : Line) (x : LineInterface) : (s.withLine l x).start = s.start := rfl
@[simp] theorem State.withLine_setup (s : State) (l : Line) (x : LineInterface) : (s.withLine l x).setup = s.setup := rfl
@[simp] theorem State.withLine_assembler (s : State) (l : Line) (x : LineInterface) : (s.withLine l x).assembler = s.assembler := rfl
@[simp] theorem State.withLine_peers (s : State) (l : Line) (x : LineInterface) : (s.withLine l x).peers = s.peers := rfl
@[simp] theorem State.withLine_zones (s : State) (l : Line) (x : LineInterface) : (s.withLine l x).zones = s.zones := rfl
@[simp] theorem State.withLine_views (s : State) (l : Line) (x : LineInterface) : (s.withLine l x).views = s.views := rfl
@[simp] theorem State.withLine_flood (s : State) (l : Line) (x : LineInterface) : (s.withLine l x).flood = s.flood := rfl
@[simp] theorem State.withLine_inputs (s : State) (l : Line) (x : LineInterface) : (s.withLine l x).inputs = s.inputs := rfl
@[simp] theorem State.withLine_press (s : State) (l : Line) (x : LineInterface) : (s.withLine l x).press = s.press := rfl
@[simp] theorem State.withLine_own (s : State) (l : Line) (x : LineInterface) : (s.withLine l x).own = s.own := rfl
@[simp] theorem State.withLine_sensing (s : State) (l : Line) (x : LineInterface) : (s.withLine l x).sensing = s.sensing := rfl
@[simp] theorem State.withLine_valves (s : State) (l : Line) (x : LineInterface) : (s.withLine l x).valves = s.valves := rfl
@[simp] theorem State.withLine_extraction (s : State) (l : Line) (x : LineInterface) : (s.withLine l x).extraction = s.extraction := rfl
@[simp] theorem State.withLine_barriers (s : State) (l : Line) (x : LineInterface) : (s.withLine l x).barriers = s.barriers := rfl
@[simp] theorem State.withLine_sirens (s : State) (l : Line) (x : LineInterface) : (s.withLine l x).sirens = s.sirens := rfl
@[simp] theorem State.withLine_supply (s : State) (l : Line) (x : LineInterface) : (s.withLine l x).supply = s.supply := rfl
@[simp] theorem State.withLine_record (s : State) (l : Line) (x : LineInterface) : (s.withLine l x).record = s.record := rfl
@[simp] theorem State.withLine_flags (s : State) (l : Line) (x : LineInterface) : (s.withLine l x).flags = s.flags := rfl
@[simp] theorem State.withLine_port (s : State) (l : Line) (x : LineInterface) : (s.withLine l x).port = s.port := rfl
@[simp] theorem State.withLine_pending (s : State) (l : Line) (x : LineInterface) : (s.withLine l x).pending = s.pending := rfl
@[simp] theorem State.withLine_a_lineA (s : State) (x : LineInterface) : (s.withLine .a x).lineA = x := rfl
@[simp] theorem State.withLine_a_lineB (s : State) (x : LineInterface) : (s.withLine .a x).lineB = s.lineB := rfl
@[simp] theorem State.withLine_b_lineA (s : State) (x : LineInterface) : (s.withLine .b x).lineA = s.lineA := rfl
@[simp] theorem State.withLine_b_lineB (s : State) (x : LineInterface) : (s.withLine .b x).lineB = x := rfl
@[simp] theorem State.line_withLine (s : State) (l : Line) (x : LineInterface) : (s.withLine l x).line l = x := by
  cases l <;> rfl
@[simp] theorem State.otherLine_withLine (s : State) (l : Line) (x : LineInterface) :
    (s.withLine l x).line (otherLine l) = s.line (otherLine l) := by
  cases l <;> rfl

/-! ## Outcomes and vectors -/

@[simp] theorem answer_eq (s : State) : answer s = .next s := rfl

@[simp] theorem put_same {α : Type} {n : Nat} (v : Vector α n) (i : Fin n) (x : α) : (put v i x)[i.val] = x := by
  simp [put]

theorem put_other {α : Type} {n : Nat} (v : Vector α n) (i j : Fin n) (x : α) (h : j ≠ i) : (put v i x)[j.val] = v[j.val] := by
  have h' : i.val ≠ j.val := fun e => h (Fin.ext e.symm)
  simp [put, h']

@[simp] theorem change_same {α : Type} {n : Nat} (v : Vector α n) (i : Fin n) (f : α → α) :
    (change v i f)[i.val] = f v[i.val] := by simp [change]

theorem change_other {α : Type} {n : Nat} (v : Vector α n) (i j : Fin n) (f : α → α) (h : j ≠ i) :
    (change v i f)[j.val] = v[j.val] := put_other v i j _ h

@[simp] theorem tabulate_at {α : Type} {n : Nat} (f : Fin n → α) (i : Fin n) : (tabulate f)[i.val] = f i := by
  simp [tabulate]

/-- Two vectors with the same entries are equal. -/
theorem vector_eq {α : Type} {n : Nat} {v w : Vector α n} (h : ∀ i : Fin n, v[i] = w[i]) : v = w := by
  apply Vector.ext
  intro i hi
  exact h ⟨i, hi⟩

@[simp] theorem tabulate_self {α : Type} {n : Nat} (v : Vector α n) : (tabulate fun i => v[i]) = v :=
  vector_eq fun i => by simp

/-- A statement about every index of a vector, read off its list of indexes. -/
theorem mem_indexes {n : Nat} (i : Fin n) : i ∈ indexes n := List.mem_finRange i

end Sys2Proof.Machine
end

