-- ==== Sys2Proof/Laws/Follows.lean ====
section
/-! SUPPORT. What the consequences of an event can do, once for each shared operation: Keeps, Follows and Consumes list
everything that is true of t when t is s after some consequences. A claim about a command cites settleWith_follows (with
settleWith_own and settleWith_views) and does not unfold it. -/

namespace Sys2Proof.Machine

/-! ## The record -/

@[simp] theorem fileAll_nil (r : EventRecord) (now : Time) : r.fileAll now [] = r := rfl

@[simp] theorem fileAll_cons (r : EventRecord) (now : Time) (f : Filing) (fs : List Filing) :
    r.fileAll now (f :: fs) = (r.file now f).fileAll now fs := rfl

theorem fileAll_append (r : EventRecord) (now : Time) (fs gs : List Filing) :
    r.fileAll now (fs ++ gs) = (r.fileAll now fs).fileAll now gs := List.foldl_append ..

/-- R159: a filing keeps the record within its 64 places. -/
theorem push_length (r : EventRecord) (e : Entry) (h : r.entries.length ≤ Config.recordPlaces) :
    (r.push e).entries.length ≤ Config.recordPlaces := by
  unfold EventRecord.push
  split <;> simp [Config.recordPlaces] at * <;> omega

theorem fileAll_length (fs : List Filing) (now : Time) (r : EventRecord) (h : r.entries.length ≤ Config.recordPlaces) :
    (r.fileAll now fs).entries.length ≤ Config.recordPlaces := by
  induction fs generalizing r with
  | nil => exact h
  | cons f fs ih => exact ih _ (push_length _ _ h)

/-! ## Orders -/

theorem flagsWithin_refl (m : BitVec 16) : flagsWithin m m := BitVec.and_self

theorem flagsWithin_or (m n : BitVec 16) : flagsWithin m (m ||| n) := by
  unfold flagsWithin; ext i; simp; tauto

theorem flagsWithin_trans {m n k : BitVec 16} (h : flagsWithin m n) (h' : flagsWithin n k) : flagsWithin m k := by
  unfold flagsWithin at *
  rw [← h, BitVec.and_assoc, h']

theorem flagsWithin_ite (b : Bool) (m n : BitVec 16) : flagsWithin m (if b then m ||| n else m) := by
  cases b
  · exact flagsWithin_refl m
  · exact flagsWithin_or m n

theorem causesWithin_refl (m : BitVec 7) : causesWithin m m := BitVec.and_self

theorem causesWithin_or (m n : BitVec 7) : causesWithin m (m ||| n) := by
  unfold causesWithin; ext i; simp; tauto

theorem causesWithin_trans {m n k : BitVec 7} (h : causesWithin m n) (h' : causesWithin n k) : causesWithin m k := by
  unfold causesWithin at *
  rw [← h, BitVec.and_assoc, h']

/-- R115: causes are only added. -/
theorem causesWithin_add (cs : List Cause) (m : BitVec 7) : causesWithin m (addCauses m cs) := by
  induction cs generalizing m with
  | nil => exact causesWithin_refl m
  | cons c cs ih => exact causesWithin_trans (causesWithin_or m c.mask) (ih _)

theorem latchesHold_refl (v : Vector Level 16) : latchesHold v v := fun _ => Nat.le_refl _

theorem latchesHold_trans {u v w : Vector Level 16} (h : latchesHold u v) (h' : latchesHold v w) : latchesHold u w :=
  fun z => Nat.le_trans (h z) (h' z)

theorem caused_refl (p : FanPhase) : p.caused p = true := by simp [FanPhase.caused]

theorem caused_trans {p q r : FanPhase} (h : p.caused q = true) (h' : q.caused r = true) : p.caused r = true := by
  cases p <;> cases q <;> cases r <;> simp_all [FanPhase.caused]

/-- R94: a valve as it stands or cut off. -/
def Valve.cutFrom (v w : Valve) : Prop :=
  w = v ∨ (v.state.on = true ∧ ∃ now confirm feedback, w = v.forceOff now confirm feedback)

theorem cutFrom_trans {u v w : Valve} (h : u.cutFrom v) (h' : v.cutFrom w) : u.cutFrom w := by
  rcases h with h | ⟨on, n, c, f, h⟩
  · subst h; exact h'
  · rcases h' with h' | ⟨on', _⟩
    · subst h'; exact .inr ⟨on, n, c, f, h⟩
    · subst h; exact absurd on' (by simp [Valve.forceOff, ValveState.on])

theorem cutFrom_schedule {v w : Valve} (h : v.cutFrom w) : w.schedule = v.schedule := by
  rcases h with h | ⟨_, _, _, _, h⟩ <;> subst h <;> rfl

/-! ## Keeps, Follows, Consumes -/

/-- What holds after any consequences. -/
structure Keeps (s t : State) : Prop where
  apart : t.apart = s.apart
  record : ∃ fs, t.record = s.record.fileAll s.clock fs
  flags : flagsWithin s.flags t.flags
  latched : latchesHold s.zones.latched t.zones.latched
  valves : ∀ o : Output, (s.valves[o]).cutFrom t.valves[o]
  extraction : t.extraction.apart = s.extraction.apart
  causes : causesWithin s.extraction.causes t.extraction.causes
  motors : s.motorsInTurn → t.motorsInTurn
  waits : s.operating = false → s.outputsWait → t.outputsWait
  armed : ∀ o : Output, (s.barrier o).state ≠ .unarmed → (t.barrier o).state ≠ .unarmed
  sirens : t.sirens.resound = s.sirens.resound ∧ ∀ o : Output, t.sirens.units[o].fault = s.sirens.units[o].fault

/-- What holds after consequences in which the fan changes phase by causes alone. -/
structure Follows (s t : State) : Prop extends Keeps s t where
  fan : s.extraction.phase.caused t.extraction.phase = true

/-- What holds after consequences that read the own level, the zone picture and the choice of views. -/
structure Consumes (s t : State) : Prop extends Follows s t where
  own : t.own = s.own
  zones : t.zones = s.zones
  views : t.views = s.views

theorem Keeps.clock {s t : State} (h : Keeps s t) : t.clock = s.clock :=
  (congrArg State.clock h.apart : t.apart.clock = s.apart.clock)
theorem Keeps.agings {s t : State} (h : Keeps s t) : t.agings = s.agings :=
  (congrArg State.agings h.apart : t.apart.agings = s.apart.agings)
theorem Keeps.start {s t : State} (h : Keeps s t) : t.start = s.start :=
  (congrArg State.start h.apart : t.apart.start = s.apart.start)
theorem Keeps.setup {s t : State} (h : Keeps s t) : t.setup = s.setup :=
  (congrArg State.setup h.apart : t.apart.setup = s.apart.setup)
theorem Keeps.peers {s t : State} (h : Keeps s t) : t.peers = s.peers :=
  (congrArg State.peers h.apart : t.apart.peers = s.apart.peers)
theorem Keeps.inputs {s t : State} (h : Keeps s t) : t.inputs = s.inputs :=
  (congrArg State.inputs h.apart : t.apart.inputs = s.apart.inputs)
theorem Keeps.press {s t : State} (h : Keeps s t) : t.press = s.press :=
  (congrArg State.press h.apart : t.apart.press = s.apart.press)
theorem Keeps.sensing {s t : State} (h : Keeps s t) : t.sensing = s.sensing :=
  (congrArg State.sensing h.apart : t.apart.sensing = s.apart.sensing)
theorem Keeps.supply {s t : State} (h : Keeps s t) : t.supply = s.supply :=
  (congrArg State.supply h.apart : t.apart.supply = s.apart.supply)
theorem Keeps.port {s t : State} (h : Keeps s t) : t.port = s.port :=
  (congrArg State.port h.apart : t.apart.port = s.apart.port)
theorem Keeps.pending {s t : State} (h : Keeps s t) : t.pending = s.pending :=
  (congrArg State.pending h.apart : t.apart.pending = s.apart.pending)
theorem Keeps.escalation {s t : State} (h : Keeps s t) : t.own.escalation = s.own.escalation :=
  (congrArg (fun s => s.own.escalation) h.apart : t.apart.own.escalation = s.apart.own.escalation)
theorem Keeps.watchHold {s t : State} (h : Keeps s t) : t.own.watchHold = s.own.watchHold :=
  (congrArg (fun s => s.own.watchHold) h.apart : t.apart.own.watchHold = s.apart.own.watchHold)
theorem Keeps.lineA {s t : State} (h : Keeps s t) : t.lineA.apart = s.lineA.apart :=
  (congrArg State.lineA h.apart : t.apart.lineA = s.apart.lineA)
theorem Keeps.lineB {s t : State} (h : Keeps s t) : t.lineB.apart = s.lineB.apart :=
  (congrArg State.lineB h.apart : t.apart.lineB = s.apart.lineB)
theorem Keeps.line {s t : State} (h : Keeps s t) (l : Line) : (t.line l).apart = (s.line l).apart := by
  cases l
  · exact h.lineA
  · exact h.lineB

theorem Keeps.operating {s t : State} (h : Keeps s t) : t.operating = s.operating := by
  simp only [State.operating, h.start]
theorem Keeps.permitted {s t : State} (h : Keeps s t) : t.permitted = s.permitted := by
  simp only [State.permitted, h.start]
theorem Keeps.started {s t : State} (h : Keeps s t) : t.started = s.started := by
  simp only [State.started, h.start]
theorem Keeps.role {s t : State} (h : Keeps s t) (o : Output) : t.role o = s.role o := by
  simp only [State.role, h.setup]

theorem Keeps.recordFits {s t : State} (h : Keeps s t) (b : s.recordFits) : t.recordFits := by
  obtain ⟨fs, e⟩ := h.record
  unfold State.recordFits
  rw [e]
  exact fileAll_length _ _ _ b

theorem Keeps.schedulesFit {s t : State} (h : Keeps s t) (b : s.schedulesFit) : t.schedulesFit := fun o => by
  rw [cutFrom_schedule (h.valves o)]; exact b o

theorem Consumes.refl (s : State) : Consumes s s where
  apart := rfl
  record := ⟨[], rfl⟩
  flags := flagsWithin_refl _
  latched := latchesHold_refl _
  valves _ := .inl rfl
  extraction := rfl
  causes := causesWithin_refl _
  motors h := h
  waits _ h := h
  armed _ h := h
  sirens := ⟨rfl, fun _ => rfl⟩
  fan := caused_refl _
  own := rfl
  zones := rfl
  views := rfl

theorem Keeps.trans {s t u : State} (h : Keeps s t) (h' : Keeps t u) : Keeps s u where
  apart := h'.apart.trans h.apart
  record := by
    obtain ⟨fs, e⟩ := h.record
    obtain ⟨gs, e'⟩ := h'.record
    exact ⟨fs ++ gs, by rw [e', e, h.clock, fileAll_append]⟩
  flags := flagsWithin_trans h.flags h'.flags
  latched := latchesHold_trans h.latched h'.latched
  valves o := cutFrom_trans (h.valves o) (h'.valves o)
  extraction := h'.extraction.trans h.extraction
  causes := causesWithin_trans h.causes h'.causes
  motors := h'.motors ∘ h.motors
  waits o w := h'.waits (h.operating.trans o) (h.waits o w)
  armed o := h'.armed o ∘ h.armed o
  sirens := ⟨h'.sirens.1.trans h.sirens.1, fun o => (h'.sirens.2 o).trans (h.sirens.2 o)⟩

theorem Follows.trans {s t u : State} (h : Follows s t) (h' : Follows t u) : Follows s u where
  toKeeps := h.toKeeps.trans h'.toKeeps
  fan := caused_trans h.fan h'.fan

theorem Consumes.trans {s t u : State} (h : Consumes s t) (h' : Consumes t u) : Consumes s u where
  toFollows := h.toFollows.trans h'.toFollows
  own := h'.own.trans h.own
  zones := h'.zones.trans h.zones
  views := h'.views.trans h.views

/-! ## Own level, zones and views -/

theorem recomposeOwn_follows (s : State) : Follows s s.recomposeOwn where
  apart := rfl
  record := ⟨[], rfl⟩
  flags := flagsWithin_refl _
  latched := latchesHold_refl _
  valves _ := .inl rfl
  extraction := rfl
  causes := causesWithin_refl _
  motors h := ⟨h.1, h.2, h.3, h.4, h.5, h.6, h.7, h.8⟩
  waits _ h := ⟨h.1, h.2, h.3, h.4, h.5⟩
  armed _ h := h
  sirens := ⟨rfl, fun _ => rfl⟩
  fan := caused_refl _

/-- R33: the latch rule never lowers a latched level. -/
theorem latchRule_code (live latched : Level) : latched.code ≤ (latchRule live latched).code := by
  cases live <;> cases latched <;> decide

/-- A change of the zone picture with its records and the fire-seen flags. -/
theorem zones_follows (s : State) (z : ZonePicture) (fs : List Filing) (u : Vector Siren 4)
    (hz : latchesHold s.zones.latched z.latched)
    (hu : ∀ o : Output, u[o].driven = s.sirens.units[o].driven ∧ u[o].fault = s.sirens.units[o].fault) :
    Follows s { s with
      zones := z, record := s.record.fileAll s.clock fs, sirens := { s.sirens with units := u } } where
  apart := rfl
  record := ⟨fs, rfl⟩
  flags := flagsWithin_refl _
  latched := hz
  valves _ := .inl rfl
  extraction := rfl
  causes := causesWithin_refl _
  motors h := ⟨h.1, h.2, h.3, h.4, h.5, h.6, h.7, h.8⟩
  waits _ h := ⟨h.1, h.2, h.3, h.4, fun o => (hu o).1.trans (h.5 o)⟩
  armed _ h := h
  sirens := ⟨rfl, fun o => (hu o).2⟩
  fan := caused_refl _

theorem recomputeZones_follows (s : State) : Follows s s.recomputeZones :=
  zones_follows s ⟨s.liveLevels, tabulate fun z => latchRule s.liveLevels[z] s.zones.latched[z]⟩ _ _
    (fun z => by
      simp only [Fin.getElem_fin, tabulate_at]
      exact latchRule_code _ _)
    (fun o => by simp [State.seeFire])

theorem chooseViews_follows (s : State) : Follows s s.chooseViews where
  apart := rfl
  record := ⟨[], rfl⟩
  flags := flagsWithin_ite ..
  latched := latchesHold_refl _
  valves _ := .inl rfl
  extraction := rfl
  causes := causesWithin_refl _
  motors h := ⟨h.1, h.2, h.3, h.4, h.5, h.6, h.7, h.8⟩
  waits _ h := ⟨h.1, h.2, h.3, h.4, h.5⟩
  armed _ h := h
  sirens := ⟨rfl, fun _ => rfl⟩
  fan := caused_refl _

/-! ## Flood -/

theorem cutByFlood_on (s : State) (flood : Vector Bool 4) (o : Output) (h : s.cutByFlood flood o = true) :
    s.valves[o].state.on = true := by
  simp only [State.cutByFlood, Valve.overtime, Bool.and_eq_true] at h
  exact h.2.1.1

/-- R94, R95: a change of flood state leaves a valve as it stands or cuts it. -/
theorem judgeFlood_valve (s : State) (o : Output) : (s.valves[o]).cutFrom s.judgeFlood.valves[o] := by
  simp only [State.judgeFlood, Fin.getElem_fin, tabulate_at]
  split
  · rename_i h
    exact .inr ⟨cutByFlood_on s _ o h, _, _, _, rfl⟩
  · exact .inl rfl

theorem judgeFlood_consumes (s : State) : Consumes s s.judgeFlood where
  apart := rfl
  record := ⟨_, rfl⟩
  flags := flagsWithin_ite ..
  latched := latchesHold_refl _
  valves := judgeFlood_valve s
  extraction := rfl
  causes := causesWithin_refl _
  motors h := ⟨h.1, h.2, h.3, h.4, h.5, h.6, h.7, h.8⟩
  waits _ h := by
    refine ⟨h.1, fun o => ?_, h.3, h.4, h.5⟩
    rcases judgeFlood_valve s o with e | ⟨on, _⟩
    · rw [e]; exact h.2 o
    · rw [(h.2 o).1] at on; exact absurd on (by decide)
  armed _ h := h
  sirens := ⟨rfl, fun _ => rfl⟩
  fan := caused_refl _
  own := rfl
  zones := rfl
  views := rfl

/-! ## Extraction -/

theorem file_consumes (s : State) (k : RecordKind) (b : Byte) (v : Count) : Consumes s (s.file k b v) where
  apart := rfl
  record := ⟨[⟨k, b, v⟩], rfl⟩
  flags := flagsWithin_refl _
  latched := latchesHold_refl _
  valves _ := .inl rfl
  extraction := rfl
  causes := causesWithin_refl _
  motors h := ⟨h.1, h.2, h.3, h.4, h.5, h.6, h.7, h.8⟩
  waits _ h := ⟨h.1, h.2, h.3, h.4, h.5⟩
  armed _ h := h
  sirens := ⟨rfl, fun _ => rfl⟩
  fan := caused_refl _
  own := rfl
  zones := rfl
  views := rfl

/-- A change of the extraction controller alone. -/
theorem extraction_keeps (s : State) (e : Extraction) (ha : e.apart = s.extraction.apart)
    (hc : causesWithin s.extraction.causes e.causes) (hp : s.extraction.phase = .standby → e.phase = .standby) :
    Keeps s { s with extraction := e } where
  apart := rfl
  record := ⟨[], rfl⟩
  flags := flagsWithin_refl _
  latched := latchesHold_refl _
  valves _ := .inl rfl
  extraction := ha
  causes := hc
  motors h := ⟨h.1, h.2, h.3, h.4, h.5, h.6, h.7, h.8⟩
  waits _ w := ⟨hp w.1, w.2, w.3, w.4, w.5⟩
  armed _ h := h
  sirens := ⟨rfl, fun _ => rfl⟩

theorem extraction_consumes (s : State) (e : Extraction) (ha : e.apart = s.extraction.apart)
    (hc : causesWithin s.extraction.causes e.causes) (hf : s.extraction.phase.caused e.phase = true) :
    Consumes s { s with extraction := e } where
  toKeeps := extraction_keeps s e ha hc fun h => by
    rw [h] at hf; revert hf; cases e.phase <;> decide
  fan := hf
  own := rfl
  zones := rfl
  views := rfl

theorem judgeMismatches_extraction (s : State) :
    s.judgeMismatches.extraction.apart = s.extraction.apart ∧
      s.judgeMismatches.extraction.causes = s.extraction.causes ∧
      s.judgeMismatches.extraction.phase = s.extraction.phase := by
  unfold State.judgeMismatches
  simp only
  split <;> exact ⟨rfl, rfl, rfl⟩

theorem judgeMismatches_consumes (s : State) : Consumes s s.judgeMismatches := by
  have h := judgeMismatches_extraction s
  have e : s.judgeMismatches = { s with extraction := s.judgeMismatches.extraction } := rfl
  rw [e]
  exact extraction_consumes s _ h.1 (by rw [h.2.1]; exact causesWithin_refl _) (by rw [h.2.2]; exact caused_refl _)

theorem nextWindow_extraction (now : Time) (e : Extraction) :
    (e.nextWindow now).apart = e.apart ∧ (e.nextWindow now).causes = e.causes ∧ (e.nextWindow now).phase = e.phase := by
  unfold Extraction.nextWindow Extraction.planPeriodic Extraction.startWindow
  split
  · exact ⟨rfl, rfl, rfl⟩
  · split
    · exact ⟨rfl, rfl, rfl⟩
    · exact ⟨rfl, rfl, rfl⟩
    · split
      · exact ⟨rfl, rfl, rfl⟩
      · split <;> exact ⟨rfl, rfl, rfl⟩

theorem judgeMode_extraction (now : Time) (m : SamplerMode) (e : Extraction) :
    (e.judgeMode now m).apart = e.apart ∧ (e.judgeMode now m).causes = e.causes ∧
      (e.judgeMode now m).phase = e.phase := by
  unfold Extraction.judgeMode
  split
  · exact ⟨rfl, rfl, rfl⟩
  · exact nextWindow_extraction now { e with mode := m }

theorem judgeSampler_consumes (s : State) : Consumes s s.judgeSampler :=
  extraction_consumes s _ (judgeMode_extraction ..).1
    (by rw [(judgeMode_extraction ..).2.1]; exact causesWithin_refl _)
    (by rw [(judgeMode_extraction ..).2.2]; exact caused_refl _)

/-- R107: what every change of phase brings does not change the phase again. -/
theorem phaseChanged_consumes (s : State) : Consumes s s.phaseChanged :=
  ((file_consumes ..).trans (judgeMismatches_consumes _)).trans
    ((judgeSampler_consumes _).trans (judgeFlood_consumes _))

theorem phaseChanged_phase (s : State) : s.phaseChanged.extraction.phase = s.extraction.phase := by
  unfold State.phaseChanged
  show (State.judgeSampler _).extraction.phase = _
  unfold State.judgeSampler
  simp only [(judgeMode_extraction ..).2.2, (judgeMismatches_extraction _).2.2]
  rfl

/-- R111, R112: RUNDOWN and STOPPED are entered with nothing else changed but what a change of phase brings. -/
theorem enterRundown_keeps (s : State) (h : s.extraction.phase ≠ .standby) : Keeps s s.enterRundown :=
  (extraction_keeps s
    { s.extraction with
      phase := .rundown
      timer := some (after s.clock (s.setup.extraction.rundownLimit * 1000))
      stopCount := 0 } rfl (causesWithin_refl _) (fun e => absurd e h)).trans (phaseChanged_consumes _).toKeeps

theorem enterStopped_keeps (s : State) (h : s.extraction.phase ≠ .standby) : Keeps s s.enterStopped :=
  (extraction_keeps s { s.extraction with phase := .stopped, timer := none } rfl (causesWithin_refl _)
    (fun e => absurd e h)).trans (phaseChanged_consumes _).toKeeps

theorem enterRundown_phase (s : State) : s.enterRundown.extraction.phase = .rundown := phaseChanged_phase _
theorem enterStopped_phase (s : State) : s.enterStopped.extraction.phase = .stopped := phaseChanged_phase _

theorem enterDiverting_keeps (s : State) (h : s.extraction.phase ≠ .standby) : Keeps s s.enterDiverting := by
  unfold State.enterDiverting
  simp only
  have h1 := (extraction_keeps s { s.extraction with
      phase := .diverting, timer := some (after s.clock s.setup.extraction.gateTime) } rfl (causesWithin_refl _)
      (fun e => absurd e h)).trans (phaseChanged_consumes _).toKeeps
  split
  · exact h1.trans (enterRundown_keeps _ (by rw [phaseChanged_phase]; exact fun h => by cases h))
  · exact h1

theorem enterDiverting_phase (s : State) :
    s.enterDiverting.extraction.phase = .diverting ∨ s.enterDiverting.extraction.phase = .rundown := by
  unfold State.enterDiverting
  simp only
  split
  · exact .inr (enterRundown_phase _)
  · exact .inl (phaseChanged_phase _)

/-- The gate drive is due: RUNNING or STARTING left by causes. -/
theorem enterDiverting_consumes (s : State)
    (h : s.extraction.phase = .starting ∨ s.extraction.phase = .running) : Consumes s s.enterDiverting := by
  have sb : s.extraction.phase ≠ .standby := by rcases h with h | h <;> rw [h] <;> exact fun h => nomatch h
  refine ⟨⟨enterDiverting_keeps s sb, ?_⟩, ?_, ?_, ?_⟩
  · rcases h with h | h <;> rcases enterDiverting_phase s with e | e <;> rw [h, e] <;> rfl
  · have h1 := phaseChanged_consumes { s with extraction := { s.extraction with
      phase := .diverting, timer := some (after s.clock s.setup.extraction.gateTime) } }
    unfold State.enterDiverting
    simp only
    split
    · exact (phaseChanged_consumes _).own.trans h1.own
    · exact h1.own
  · have h1 := phaseChanged_consumes { s with extraction := { s.extraction with
      phase := .diverting, timer := some (after s.clock s.setup.extraction.gateTime) } }
    unfold State.enterDiverting
    simp only
    split
    · exact (phaseChanged_consumes _).zones.trans h1.zones
    · exact h1.zones
  · have h1 := phaseChanged_consumes { s with extraction := { s.extraction with
      phase := .diverting, timer := some (after s.clock s.setup.extraction.gateTime) } }
    unfold State.enterDiverting
    simp only
    split
    · exact (phaseChanged_consumes _).views.trans h1.views
    · exact h1.views

/-- R115: causes in each phase. -/
theorem raiseCauses_consumes (s : State) (cs : List Cause) : Consumes s (s.raiseCauses cs) := by
  unfold State.raiseCauses
  split
  · exact Consumes.refl s
  · rename_i c cs'
    have dive (h : s.extraction.phase = .starting ∨ s.extraction.phase = .running) (y : Option Cause) :
        Consumes s (State.enterDiverting { s with extraction :=
          { s.extraction with causes := addCauses s.extraction.causes (c :: cs'), first := y } }) :=
      (extraction_consumes s
        { s.extraction with causes := addCauses s.extraction.causes (c :: cs'), first := y }
        rfl (causesWithin_add _ _) (caused_refl _)).trans (enterDiverting_consumes _ h)
    have add : Consumes s { s with extraction :=
        { s.extraction with causes := addCauses s.extraction.causes (c :: cs') } } :=
      extraction_consumes s { s.extraction with causes := addCauses s.extraction.causes (c :: cs') }
        rfl (causesWithin_add _ _) (caused_refl _)
    split
    · exact Consumes.refl s
    · rename_i hp; exact dive (.inl hp) _
    · rename_i hp; exact dive (.inr hp) _
    · exact add
    · exact add
    · exact add

theorem judgeCauses_consumes (s : State) (event : List Cause) : Consumes s (s.judgeCauses event) :=
  (extraction_consumes s { s.extraction with conditions := s.conditionsNow } rfl (causesWithin_refl _)
    (caused_refl _)).trans (raiseCauses_consumes _ _)

theorem judgeExtraction_consumes (s : State) (event : List Cause) : Consumes s (s.judgeExtraction event) :=
  (judgeFlood_consumes s).trans ((judgeCauses_consumes _ event).trans
    ((judgeCauses_consumes _ []).trans (judgeSampler_consumes _)))

end Sys2Proof.Machine
end

