-- ==== Sys2Proof/Laws/Barriers.lean ====
section
/-! SUPPORT. What the barrier controller's shared operations can do: each keeps the motor barriers, the closing queue and
the running motor in step (R128, R129), and touches nothing but barriers, records and the flag BARRIER_FAULT. -/

namespace Sys2Proof.Machine

/-! ## One barrier changed -/

theorem barrier_put (s : State) (o : Output) (b : Barrier) (q : List Output) (r : Option Output) :
    ({ s with barriers := ⟨put s.barriers.units o b, q, r⟩ } : State).barrier o = b := by
  simp [State.barrier]

theorem barrier_put_other (s : State) (o p : Output) (b : Barrier) (q : List Output) (r : Option Output) (h : p ≠ o) :
    ({ s with barriers := ⟨put s.barriers.units o b, q, r⟩ } : State).barrier p = s.barrier p := by
  simp only [State.barrier, Fin.getElem_fin]
  exact put_other _ _ _ _ h

/-- The queue and the running motor stay in step when one barrier changes together with them. -/
theorem motors_put {s : State} (h : s.motorsInTurn) (o : Output) (b : Barrier) (q : List Output) (r : Option Output)
    (closing : (s.role o).isMotor = true → (b.state = .closing ↔ r = some o))
    (others : ∀ p, p ≠ o → (r = some p ↔ s.barriers.running = some p))
    (motor : r = some o → (s.role o).isMotor = true)
    (supply : s.supply.low = true → r = none)
    (queued : o ∈ q ↔ ((s.role o).isMotor = true ∧ b.state = .queued))
    (members : ∀ p, p ≠ o → (p ∈ q ↔ p ∈ s.barriers.queue))
    (once : q.Nodup)
    (unarmed : s.operating = false → b.state = .unarmed ∧ q = [] ∧ r = none)
    (order : s.queueInOrder ⟨put s.barriers.units o b, q, r⟩)
    (run : r = some o → b.run.isSome = true) :
    ({ s with barriers := ⟨put s.barriers.units o b, q, r⟩ } : State).motorsInTurn where
  closing p hp := by
    by_cases e : p = o
    · subst e; rw [barrier_put]; exact closing hp
    · rw [barrier_put_other _ _ _ _ _ _ e]
      exact (h.closing p hp).trans (others p e).symm
  motor p hp := by
    by_cases e : p = o
    · subst e; exact motor hp
    · exact h.motor p ((others p e).mp hp)
  supply := supply
  queued p := by
    by_cases e : p = o
    · subst e; rw [barrier_put]; exact queued
    · rw [barrier_put_other _ _ _ _ _ _ e]
      exact (members p e).trans (h.queued p)
  once := once
  unarmed hp := by
    refine ⟨fun p => ?_, (unarmed hp).2⟩
    by_cases e : p = o
    · subst e; rw [barrier_put]; exact (unarmed hp).1
    · rw [barrier_put_other _ _ _ _ _ _ e]; exact (h.unarmed hp).1 p
  order := order
  run p hp := by
    by_cases e : p = o
    · subst e; rw [barrier_put]; exact run hp
    · rw [barrier_put_other _ _ _ _ _ _ e]
      exact h.run p ((others p e).mp hp)

/-- A change of the barrier controller alone. -/
theorem barriers_consumes (s : State) (b : Barriers)
    (motors : s.motorsInTurn → ({ s with barriers := b } : State).motorsInTurn)
    (waits : s.operating = false → s.outputsWait → ({ s with barriers := b } : State).outputsWait)
    (armed : ∀ o : Output, (s.barrier o).state ≠ .unarmed →
      (({ s with barriers := b } : State).barrier o).state ≠ .unarmed) :
    Consumes s { s with barriers := b } where
  apart := rfl
  record := ⟨[], rfl⟩
  flags := flagsWithin_refl _
  latched := latchesHold_refl _
  valves _ := .inl rfl
  extraction := rfl
  causes := causesWithin_refl _
  motors := motors
  waits := waits
  armed := armed
  sirens := ⟨rfl, fun _ => rfl⟩
  fan := caused_refl _
  own := rfl
  zones := rfl
  views := rfl

/-- One barrier changed with the queue and the running motor, while the station is OPERATING. -/
theorem barriers_put_consumes (s : State) (ho : s.operating = true) (o : Output) (b : Barrier) (q : List Output)
    (r : Option Output) (hb : b.state ≠ .unarmed)
    (motors : s.motorsInTurn → ({ s with barriers := ⟨put s.barriers.units o b, q, r⟩ } : State).motorsInTurn) :
    Consumes s { s with barriers := ⟨put s.barriers.units o b, q, r⟩ } :=
  barriers_consumes s _ motors (fun h => by rw [ho] at h; cases h) fun p hp => by
    by_cases e : p = o
    · subst e; rw [barrier_put]; exact hb
    · rw [barrier_put_other _ _ _ _ _ _ e]; exact hp

theorem fileAll_consumes (s : State) (fs : List Filing) : Consumes s (s.fileAll fs) where
  apart := rfl
  record := ⟨fs, rfl⟩
  flags := flagsWithin_refl _
  latched := latchesHold_refl _
  valves _ := .inl rfl
  extraction := rfl
  causes := causesWithin_refl _
  motors h := ⟨h.1, h.2, h.3, h.4, h.5, h.6, h.7, h.8⟩
  waits _ h := ⟨h.1, h.2, h.3, h.4, h.5⟩
  armed _ h := h
  sirens := ⟨rfl, fun _ => rfl⟩
  fan := caused_refl _
  own := rfl
  zones := rfl
  views := rfl

theorem raise_consumes (s : State) (a : Attention) : Consumes s (s.raise a) where
  apart := rfl
  record := ⟨[], rfl⟩
  flags := flagsWithin_or _ _
  latched := latchesHold_refl _
  valves _ := .inl rfl
  extraction := rfl
  causes := causesWithin_refl _
  motors h := ⟨h.1, h.2, h.3, h.4, h.5, h.6, h.7, h.8⟩
  waits _ h := ⟨h.1, h.2, h.3, h.4, h.5⟩
  armed _ h := h
  sirens := ⟨rfl, fun _ => rfl⟩
  fan := caused_refl _
  own := rfl
  zones := rfl
  views := rfl

/-! ## The queue -/

/-- R128: the entry is placed among the others, whatever its place. -/
theorem mem_enterQueue (s : State) (o p : Output) (q : List Output) : p ∈ s.enterQueue o q ↔ p = o ∨ p ∈ q := by
  induction q with
  | nil => simp [State.enterQueue]
  | cons e es ih =>
    simp only [State.enterQueue]
    split <;> simp_all; tauto

theorem nodup_enterQueue (s : State) (o : Output) (q : List Output) (h : q.Nodup) (hn : o ∉ q) :
    (s.enterQueue o q).Nodup := by
  induction q with
  | nil => simp [State.enterQueue]
  | cons e es ih =>
    simp only [State.enterQueue]
    have he : o ≠ e := fun x => hn (by simp [x])
    have hes : o ∉ es := fun x => hn (by simp [x])
    split
    · rw [List.nodup_cons] at h ⊢
      refine ⟨fun x => ?_, ih h.2 hes⟩
      rcases (mem_enterQueue s o e es).mp x with x | x
      · exact he x.symm
      · exact h.1 x
    · rw [List.nodup_cons]
      exact ⟨hn, h⟩

theorem mem_leaveQueue (o p : Output) (q : List Output) : p ∈ leaveQueue o q ↔ p ∈ q ∧ p ≠ o := by
  simp [leaveQueue]

/-- R128: an entry joins the queue without moving those that stand in it. -/
theorem perm_enterQueue (s : State) (o : Output) (q : List Output) : (s.enterQueue o q).Perm (o :: q) := by
  induction q with
  | nil => exact List.Perm.refl _
  | cons e es ih =>
    simp only [State.enterQueue]
    split
    · exact (ih.cons e).trans (List.Perm.swap ..)
    · exact List.Perm.refl _

theorem sublist_enterQueue (s : State) (o : Output) (q : List Output) : q.Sublist (s.enterQueue o q) := by
  induction q with
  | nil => exact List.nil_sublist _
  | cons e es ih =>
    simp only [State.enterQueue]
    split
    · exact ih.cons_cons e
    · exact List.sublist_cons_self ..

/-- R128: a queue in order looks at the kept travel of its entries alone. -/
theorem order_congr {s : State} {b c : Barriers} (h : s.queueInOrder b) (q : c.queue.Sublist b.queue)
    (kept : ∀ p ∈ c.queue, c.units[p].kept = b.units[p].kept) : s.queueInOrder c := by
  refine (List.Pairwise.sublist q h).imp_of_mem fun {x y} mx my k => ?_
  rw [kept x mx, kept y my]
  exact k

/-- R128: an entry without kept travel takes a place that keeps the queue in order. -/
theorem order_enterQueue {s : State} (h : s.queueInOrder s.barriers) (o : Output) (b : Barrier) (r : Option Output)
    (new : o ∉ s.barriers.queue) (kept : b.kept = none) :
    s.queueInOrder ⟨put s.barriers.units o b, s.enterQueue o s.barriers.queue, r⟩ := by
  have at_ : (put s.barriers.units o b)[o].kept = none := by
    simp only [Fin.getElem_fin, put_same]; exact kept
  have others (p : Output) (e : p ≠ o) : (put s.barriers.units o b)[p] = s.barriers.units[p] := by
    simp only [Fin.getElem_fin]; exact put_other _ _ _ _ e
  unfold State.queueInOrder at *
  simp only
  generalize s.barriers.queue = q at h new ⊢
  induction q with
  | nil => exact List.pairwise_singleton ..
  | cons e es ih =>
    rw [List.pairwise_cons] at h
    have ne : e ≠ o := fun x => new (by simp [x])
    have nes : o ∉ es := fun x => new (by simp [x])
    have below (p : Output) (m : p ∈ es) : p ≠ o := fun x => nes (x ▸ m)
    simp only [State.enterQueue]
    split
    · rename_i c
      rw [List.pairwise_cons]
      refine ⟨fun p m => ?_, ih h.2 nes⟩
      rcases (mem_enterQueue s o p es).mp m with rfl | m
      · rw [others e ne, at_]
        simp only [Bool.or_eq_true, decide_eq_true_eq] at c
        exact c.imp id fun x => ⟨rfl, x⟩
      · rw [others e ne, others p (below p m)]
        exact h.1 p m
    · rename_i c
      simp only [Bool.or_eq_true, decide_eq_true_eq, not_or, Nat.not_le] at c
      have bare : s.barriers.units[e].kept = none := Option.not_isSome_iff_eq_none.mp c.1
      rw [List.pairwise_cons, List.pairwise_cons]
      refine ⟨fun p m => .inr ?_, fun p m => ?_, h.2.imp_of_mem fun {x y} mx my k => ?_⟩
      · rcases List.mem_cons.mp m with rfl | m
        · rw [others p ne]; exact ⟨bare, Nat.le_of_lt c.2⟩
        · rw [others p (below p m)]
          have k := (h.1 p m).resolve_left c.1
          exact ⟨k.1, Nat.le_trans (Nat.le_of_lt c.2) k.2⟩
      · rw [others e ne, others p (below p m)]
        exact h.1 p m
      · rw [others x (below x mx), others y (below y my)]
        exact k

theorem nodup_leaveQueue (o : Output) (q : List Output) (h : q.Nodup) : (leaveQueue o q).Nodup := h.filter _

/-! ## Release -/

/-- A barrier that does not run and is not queued has no motor running. -/
theorem not_running {s : State} (h : s.motorsInTurn) (o : Output) (hc : (s.barrier o).state ≠ .closing) :
    s.barriers.running ≠ some o := fun e => hc ((h.closing o (h.motor o e)).mpr e)

theorem not_queued {s : State} (h : s.motorsInTurn) (o : Output) (hc : (s.barrier o).state ≠ .queued) :
    o ∉ s.barriers.queue := fun e => hc ((h.queued o).mp e).2

/-- One barrier that neither runs nor is queued takes a state in which it does neither. -/
theorem motors_rest {s : State} (h : s.motorsInTurn) (ho : s.operating = true) (o : Output) (b : Barrier)
    (hc : (s.barrier o).state ≠ .closing) (hq : (s.barrier o).state ≠ .queued)
    (bc : (s.role o).isMotor = true → b.state ≠ .closing) (bq : (s.role o).isMotor = true → b.state ≠ .queued) :
    (s.withBarrier o b).motorsInTurn :=
  motors_put h o b s.barriers.queue s.barriers.running
    (fun hm => ⟨fun e => absurd e (bc hm), fun e => absurd e (not_running h o hc)⟩)
    (fun _ _ => Iff.rfl)
    (fun e => absurd e (not_running h o hc))
    h.supply
    ⟨fun e => absurd e (not_queued h o hq), fun e => absurd e.2 (bq e.1)⟩
    (fun _ _ => Iff.rfl) h.once (fun e => by rw [ho] at e; cases e)
    (order_congr h.order (List.Sublist.refl _) fun p m => congrArg Barrier.kept
      (barrier_put_other s o p b s.barriers.queue s.barriers.running fun e => not_queued h o hq (by subst e; exact m)))
    (fun e => absurd e (not_running h o hc))

theorem motors_enqueue {s : State} (h : s.motorsInTurn) (ho : s.operating = true) (o : Output) (b : Barrier)
    (hm : (s.role o).isMotor = true) (hc : (s.barrier o).state ≠ .closing) (hq : (s.barrier o).state ≠ .queued) :
    ({ s with barriers := ⟨put s.barriers.units o b.enqueue, s.enterQueue o s.barriers.queue, s.barriers.running⟩ } :
      State).motorsInTurn :=
  motors_put h o b.enqueue _ _
    (fun _ => ⟨fun e => (nomatch e), fun e => absurd e (not_running h o hc)⟩)
    (fun _ _ => Iff.rfl)
    (fun e => absurd e (not_running h o hc))
    h.supply
    ⟨fun _ => ⟨hm, rfl⟩, fun _ => (mem_enterQueue ..).mpr (.inl rfl)⟩
    (fun p e => by rw [mem_enterQueue]; simp [e])
    (nodup_enterQueue s o _ h.once (not_queued h o hq)) (fun e => by rw [ho] at e; cases e)
    (order_enterQueue h.order o _ _ (not_queued h o hq) rfl)
    (fun e => absurd e (not_running h o hc))

theorem releaseBarrier_consumes (s : State) (o : Output) (ho : s.operating = true)
    (hs : (s.barrier o).state = .held) : Consumes s (s.releaseBarrier o) := by
  have hc : (s.barrier o).state ≠ .closing := by rw [hs]; exact fun e => by cases e
  have hq : (s.barrier o).state ≠ .queued := by rw [hs]; exact fun e => by cases e
  unfold State.releaseBarrier
  simp only
  split
  · refine Consumes.trans ?_ (fileAll_consumes _ _)
    exact barriers_put_consumes s ho o _ _ _ (fun e => by cases e) fun h =>
      motors_rest h ho o _ hc hq (fun _ e => by cases e) (fun _ e => by cases e)
  · split
    · rename_i hm
      exact barriers_put_consumes s ho o _ _ _ (fun e => by cases e) fun h => motors_enqueue h ho o _ hm hc hq
    · rename_i hm
      exact barriers_put_consumes s ho o _ _ _ (fun e => by cases e) fun h =>
        motors_rest h ho o _ hc hq (fun e => absurd e hm) (fun e => absurd e hm)

theorem releaseIfDue_consumes (s : State) (o : Output) : Consumes s (s.releaseIfDue o) := by
  unfold State.releaseIfDue
  split
  · rename_i h
    simp only [Bool.and_eq_true, beq_iff_eq] at h
    exact releaseBarrier_consumes s o h.1.1.1 h.1.2
  · exact Consumes.refl s

theorem foldl_consumes {α : Type} (f : State → α → State) (hf : ∀ s a, Consumes s (f s a)) (as : List α) (s : State) :
    Consumes s (as.foldl f s) := by
  induction as generalizing s with
  | nil => exact Consumes.refl s
  | cons a as ih => exact (hf s a).trans (ih _)

theorem releaseBarriers_consumes (s : State) : Consumes s s.releaseBarriers :=
  foldl_consumes _ releaseIfDue_consumes _ _

/-! ## Waits and runs -/

/-- A barrier changed in its wait, its travel so far or its counts. -/
theorem withBarrier_consumes (s : State) (o : Output) (b : Barrier) (hb : b.state = (s.barrier o).state)
    (hk : b.kept = (s.barrier o).kept) (hr : b.run = (s.barrier o).run) : Consumes s (s.withBarrier o b) := by
  have kept : ∀ p, ((s.withBarrier o b).barrier p).kept = (s.barrier p).kept := by
    intro p
    by_cases e : p = o
    · subst e
      exact (congrArg Barrier.kept (barrier_put s p b s.barriers.queue s.barriers.running)).trans hk
    · exact congrArg Barrier.kept (barrier_put_other s o p b s.barriers.queue s.barriers.running e)
  have run : ∀ p, ((s.withBarrier o b).barrier p).run = (s.barrier p).run := by
    intro p
    by_cases e : p = o
    · subst e
      exact (congrArg Barrier.run (barrier_put s p b s.barriers.queue s.barriers.running)).trans hr
    · exact congrArg Barrier.run (barrier_put_other s o p b s.barriers.queue s.barriers.running e)
  have same : ∀ p, ((s.withBarrier o b).barrier p).state = (s.barrier p).state := by
    intro p
    by_cases e : p = o
    · subst e
      exact (congrArg Barrier.state (barrier_put s p b s.barriers.queue s.barriers.running)).trans hb
    · exact congrArg Barrier.state (barrier_put_other s o p b s.barriers.queue s.barriers.running e)
  refine barriers_consumes s _ (fun h => ?_) (fun _ h => ?_) (fun p h => by have := same p; rw [← this] at h; exact h)
  · refine ⟨fun p hp => ?_, h.2, h.3, fun p => ?_, h.5, fun e => ⟨fun p => ?_, (h.6 e).2⟩,
      order_congr h.7 (List.Sublist.refl _) fun p _ => kept p, fun p e => (congrArg Option.isSome (run p)).trans (h.8 p e)⟩
    · have := h.1 p hp; rw [← same p] at this; exact this
    · have := h.4 p; rw [← same p] at this; exact this
    · have := (h.6 e).1 p; rw [← same p] at this; exact this
  · exact ⟨h.1, h.2, fun p => by have := h.3 p; rw [← same p] at this; exact this, h.4, h.5⟩

theorem startWait_consumes (s : State) (o : Output) : Consumes s (s.startWait o) := withBarrier_consumes s o _ rfl rfl rfl

theorem judgeWaits_consumes (n : Nat) (s : State) : Consumes s (s.judgeWaits n) := by
  induction n generalizing s with
  | zero => exact Consumes.refl s
  | succ n ih =>
    simp only [State.judgeWaits]
    split
    · exact Consumes.refl s
    · split
      · exact (startWait_consumes s _).trans (ih _)
      · exact Consumes.refl s

theorem startRun_consumes (s : State) (o : Output) (ho : s.operating = true) (hr : s.barriers.running = none)
    (hl : s.supply.low = false) (hq : o ∈ s.barriers.queue) : Consumes s (s.startRun o) := by
  refine barriers_put_consumes s ho o _ _ _ (fun e => by cases e) fun h => ?_
  have hm := ((h.queued o).mp hq).1
  refine motors_put h o _ _ _ (fun _ => ⟨fun _ => rfl, fun _ => rfl⟩) (fun p e => ?_) (fun _ => hm)
    (fun e => by rw [hl] at e; cases e) ?_ (fun p e => ?_) (nodup_leaveQueue _ _ h.once)
    (fun e => by rw [ho] at e; cases e)
    (order_congr h.order List.filter_sublist fun p m => by
      simp only [Fin.getElem_fin]
      rw [put_other _ _ _ _ ((mem_leaveQueue ..).mp m).2])
    (fun _ => rfl)
  · rw [hr]; simp [Ne.symm e]
  · rw [mem_leaveQueue]; simp
  · rw [mem_leaveQueue]; simp [e]

theorem considerRun_consumes (s : State) : Consumes s s.considerRun := by
  unfold State.considerRun
  split
  · rename_i h
    simp only [Bool.and_eq_true, Bool.not_eq_true', Option.isNone_iff_eq_none] at h
    split
    · rename_i o e
      exact startRun_consumes s o h.1.1 h.1.2 h.2 (List.mem_of_find?_eq_some e)
    · exact Consumes.refl s
  · exact Consumes.refl s

/-- R129, R131: what considering the queue can do. -/
theorem considerQueue_consumes (s : State) : Consumes s s.considerQueue :=
  (judgeWaits_consumes 4 s).trans (considerRun_consumes _)

theorem judgeBarriers_consumes (s : State) : Consumes s s.judgeBarriers :=
  (releaseBarriers_consumes s).trans (considerQueue_consumes _)

end Sys2Proof.Machine
end

