-- ==== Sys2Proof/Laws/Settle.lean ====
section
/-! SUPPORT. What the siren controller's shared operations, the STATE fills and the settling of an event can do. -/

namespace Sys2Proof.Machine

/-! ## Sirens -/

/-- A change of the siren controller alone. -/
theorem sirens_consumes (s : State) (x : Sirens) (hr : x.resound = s.sirens.resound)
    (hf : ∀ o : Output, x.units[o].fault = s.sirens.units[o].fault)
    (h : s.operating = false → ∀ o : Output, x.units[o].driven = s.sirens.units[o].driven) :
    Consumes s { s with sirens := x } where
  apart := rfl
  record := ⟨[], rfl⟩
  flags := flagsWithin_refl _
  latched := latchesHold_refl _
  valves _ := .inl rfl
  extraction := rfl
  causes := causesWithin_refl _
  motors h := ⟨h.1, h.2, h.3, h.4, h.5, h.6, h.7, h.8⟩
  waits ho w := ⟨w.1, w.2, w.3, w.4, fun o => (h ho o).trans (w.5 o)⟩
  armed _ h := h
  sirens := ⟨hr, hf⟩
  fan := caused_refl _
  own := rfl
  zones := rfl
  views := rfl

/-- R138: driving an output leaves its current fault mark as it stands. -/
theorem drive_fault (now : Time) (p : Pattern) (level feedback : Bool) (u : Siren) :
    (u.drive now p level feedback).fault = u.fault := rfl

theorem fault_ite (b : Bool) (u v : Siren) (h : u.fault = v.fault) : (if b then u else v).fault = v.fault := by
  cases b
  · rfl
  · exact h

theorem followZones_consumes (s : State) : Consumes s s.followZones :=
  sirens_consumes s _ rfl (fun o => by simp only [Fin.getElem_fin, tabulate_at]; exact fault_ite _ _ _ rfl)
    fun ho o => by simp [ho]

theorem chooseLeaders_consumes (s : State) : Consumes s s.chooseLeaders :=
  sirens_consumes s _ rfl (fun _ => rfl) fun _ _ => rfl

theorem choosePatterns_consumes (s : State) : Consumes s s.choosePatterns := by
  unfold State.choosePatterns
  refine Consumes.trans (sirens_consumes s _ ?_ (fun o => ?_) fun ho o => ?_) (chooseLeaders_consumes _)
  · rfl
  · simp only [Fin.getElem_fin, tabulate_at]
    exact fault_ite _ _ _ rfl
  · simp [ho]

theorem followCadence_consumes (s : State) : Consumes s s.followCadence :=
  sirens_consumes s _ rfl (fun o => by simp only [Fin.getElem_fin, tabulate_at]; exact fault_ite _ _ _ rfl)
    fun ho o => by simp [ho]

theorem judgeSirens_consumes (s : State) : Consumes s s.judgeSirens :=
  (followZones_consumes s).trans (choosePatterns_consumes _)

/-! ## Fills -/

/-- R17: a fill writes the STATE slots and the assembler, and nothing else. -/
theorem fillIf_consumes (s : State) (go : Bool) : Consumes s (s.fillIf go) where
  apart := rfl
  record := ⟨[], rfl⟩
  flags := flagsWithin_refl _
  latched := latchesHold_refl _
  valves _ := .inl rfl
  extraction := rfl
  causes := causesWithin_refl _
  motors h := ⟨h.1, h.2, h.3, h.4, h.5, h.6, h.7, h.8⟩
  waits _ h := ⟨h.1, h.2, h.3, h.4, h.5⟩
  armed _ h := h
  sirens := ⟨rfl, fun _ => rfl⟩
  fan := caused_refl _
  own := rfl
  zones := rfl
  views := rfl

theorem fill_consumes (s : State) : Consumes s s.fill := fillIf_consumes s true

theorem fillOnChange_consumes (s : State) : Consumes s s.fillOnChange := fillIf_consumes s _

/-! ## Settling -/

theorem judgeConsumers_consumes (s : State) (event : List Cause) : Consumes s (s.judgeConsumers event) :=
  (judgeExtraction_consumes s event).trans
    ((judgeBarriers_consumes _).trans ((judgeSirens_consumes _).trans (fillOnChange_consumes _)))

/-- Everything that can follow an event at its own instant. -/
theorem settleWith_follows (s : State) (event : List Cause) : Follows s (s.settleWith event) :=
  (recomposeOwn_follows s).trans
    ((recomputeZones_follows _).trans ((chooseViews_follows _).trans (judgeConsumers_consumes _ event).toFollows))

theorem settle_follows (s : State) : Follows s s.settle := settleWith_follows s []

/-- R30: after an event the own level is the one its sources give. -/
theorem settleWith_own (s : State) (event : List Cause) : (s.settleWith event).own.level = s.composedLevel := by
  have h := (judgeConsumers_consumes s.recomposeOwn.recomputeZones.chooseViews event).own
  exact congrArg OwnLevel.level h

/-- R32, R33: after an event the zone picture is the one recomputed with that own level. -/
theorem settleWith_zones (s : State) (event : List Cause) :
    (s.settleWith event).zones = s.recomposeOwn.recomputeZones.zones :=
  (judgeConsumers_consumes s.recomposeOwn.recomputeZones.chooseViews event).zones

/-- R36: after an event the fan views are those of their candidates. -/
theorem settleWith_views (s : State) (event : List Cause) :
    (s.settleWith event).views = tabulate s.recomposeOwn.recomputeZones.chosenView :=
  (judgeConsumers_consumes s.recomposeOwn.recomputeZones.chooseViews event).views

end Sys2Proof.Machine
end

