-- ==== Sys2Proof/Laws/Fan.lean ====
section
/-! SUPPORT. The flood states, the valves and the extraction controller after an event, in one lemma: judgeExtraction does
all that State.fanSettles lists (R94, R95, R102, R104, R107, R110, R111, R113, R115). -/

namespace Sys2Proof.Machine

/-! ## Filings -/

/-- t files after what u has filed, at the same clock. -/
def Grows (u t : State) : Prop := t.clock = u.clock ∧ ∃ fs, t.record = u.record.fileAll u.clock fs

theorem Grows.refl (u : State) : Grows u u := ⟨rfl, [], rfl⟩

theorem Grows.trans {u t v : State} (h : Grows u t) (h' : Grows t v) : Grows u v := by
  obtain ⟨c, fs, e⟩ := h
  obtain ⟨c', gs, e'⟩ := h'
  exact ⟨c'.trans c, fs ++ gs, by rw [e', e, c, fileAll_append]⟩

theorem Keeps.grows {s t : State} (h : Keeps s t) : Grows s t := ⟨h.clock, h.record⟩

/-- An entry filed between two filings is filed. -/
theorem filed_between {u a b t : State} (h : Grows u a) (f : Filing) (hb : b.record = a.record.file a.clock f)
    (hc : b.clock = a.clock) (h' : Grows b t) : u.filed t f := by
  obtain ⟨c, fs, e⟩ := h
  obtain ⟨c', gs, e'⟩ := h'
  refine ⟨fs, gs, ?_⟩
  rw [e', hb, e, c', hc, c, fileAll_append, fileAll_cons]

theorem filed_grows {u t v : State} {f : Filing} (h : u.filed t f) (h' : Grows t v) : u.filed v f := by
  obtain ⟨before, later, e⟩ := h
  obtain ⟨c, gs, e'⟩ := h'
  exact ⟨before, later ++ gs, by rw [e', e, c, ← fileAll_append]; simp⟩

theorem filed_before {u v t : State} {f : Filing} (h : Grows u v) (h' : v.filed t f) (hc : t.clock = v.clock) :
    u.filed t f := by
  obtain ⟨c, gs, e⟩ := h
  obtain ⟨before, later, e'⟩ := h'
  exact ⟨gs ++ before, later, by rw [e', e, hc, c, ← fileAll_append]; simp⟩

theorem filed_mem {u t : State} {fs : List Filing} {f : Filing} (h : t.record = u.record.fileAll u.clock fs)
    (hc : t.clock = u.clock) (hf : f ∈ fs) : u.filed t f := by
  obtain ⟨before, later, rfl⟩ := List.append_of_mem hf
  exact ⟨before, later, by rw [h, hc]⟩

theorem flagged_within {s t : State} (h : flagsWithin s.flags t.flags) (a : Attention) (hs : s.flagged a = true) :
    t.flagged a = true := by
  unfold State.flagged at *
  unfold flagsWithin at h
  rw [← h] at hs
  simp only [BitVec.getLsbD_and, Bool.and_eq_true] at hs
  exact hs.2

theorem flagged_or_mask (m : BitVec 16) (a : Attention) : (m ||| a.mask).getLsbD a.bit = true := by
  have h : a.mask.getLsbD a.bit = true := by cases a <;> decide
  simp [h]

/-- A mask raised raises its own flag and no other. -/
theorem flagged_raised (m : BitVec 16) (a b : Attention) :
    (m ||| a.mask).getLsbD b.bit = true ↔ m.getLsbD b.bit = true ∨ b = a := by
  have h : a.mask.getLsbD b.bit = true ↔ b = a := by cases a <;> cases b <;> decide
  rw [BitVec.getLsbD_or, Bool.or_eq_true, h]

/-! ## Judgements of the flood states in turn -/

theorem turns_snoc (b c : Bool) (xs : List Bool) :
    turns b (xs ++ [c]) = turns b xs ++ if c = xs.getLastD b then [] else [c] := by
  induction xs generalizing b with
  | nil => simp [turns]
  | cons x xs ih =>
    simp only [List.cons_append, turns, ih, List.getLastD_cons]
    split
    · rename_i h; subst h; rfl
    · rfl

/-- A flood state of the valve's system changes, in these judgements, to one whose cut-off its watch has reached. -/
def State.cutAt (u : State) (bs : System → List Bool) (o : Output) : Prop :=
  (u.role o).isValve = true ∧ ∃ flood ∈ turns u.flood[u.valveSystem o] (bs (u.valveSystem o)),
    u.valves[o].overtime u.clock (u.setup.cutOffSeconds flood) = true

/-- What judgements of the flood states in turn come to; bs gives the values judged, and ps the phases entered, each with its
FAN_PHASE record. -/
structure Flooded (u t : State) (bs : System → List Bool) (ps : List FanPhase) : Prop where
  clock : t.clock = u.clock
  setup : t.setup = u.setup
  inputs : t.inputs = u.inputs
  flood : ∀ d : System, t.flood[d] = (bs d).getLastD u.flood[d]
  flags : ∀ a : Attention, t.flagged a = true ↔ u.flagged a = true ∨ (a = .valveTrouble ∧ ∃ o : Output, u.cutAt bs o)
  cut : ∀ o : Output, u.cutAt bs o → u.cutsOff t o
  stands : ∀ o : Output, ¬u.cutAt bs o → t.valves[o] = u.valves[o]
  files : ∃ fs, t.record = u.record.fileAll u.clock fs ∧
    (∀ f ∈ fs, f.kind = .fanPhase ∨ ∃ o : Output, u.cutAt bs o ∧ f = cutOffFiling u.clock o u.valves[o]) ∧
    (fs.filter fun f => f.kind == .fanPhase).map Filing.subject = ps.map fun p => octet p.code

theorem Flooded.grows {u t : State} {bs : System → List Bool} {ps : List FanPhase} (h : Flooded u t bs ps) : Grows u t :=
  ⟨h.clock, h.files.imp fun _ x => x.1⟩

theorem cutsOff_later {u t v : State} {o : Output} (h : u.cutsOff t o) (g : Grows t v) (f : flagsWithin t.flags v.flags)
    (e : v.valves = t.valves) : u.cutsOff v o :=
  ⟨by rw [e]; exact h.1, flagged_within f _ h.2.1, filed_grows h.2.2 g⟩

theorem Flooded.start (u t : State) (hc : t.clock = u.clock) (hr : t.record = u.record) (hs : t.setup = u.setup)
    (hi : t.inputs = u.inputs) (hf : t.flood = u.flood) (hg : t.flags = u.flags) (hv : t.valves = u.valves) :
    Flooded u t (fun _ => []) [] := by
  have no (o : Output) : ¬u.cutAt (fun _ => []) o := fun ⟨_, _, m, _⟩ => absurd m (by simp [turns])
  exact
    { clock := hc
      setup := hs
      inputs := hi
      flood := fun d => by rw [hf]; rfl
      flags := fun a => by
        unfold State.flagged
        rw [hg]
        exact ⟨.inl, fun h => h.resolve_right fun ⟨_, o, c⟩ => no o c⟩
      cut := fun o c => absurd c (no o)
      stands := fun o _ => by rw [hv]
      files := ⟨[], hr, fun _ m => (nomatch m), rfl⟩ }

/-- Whatever keeps the flood states, the valves, the record and the flags keeps what has been judged. -/
theorem Flooded.keep {u t v : State} {bs : System → List Bool} {ps : List FanPhase} (h : Flooded u t bs ps)
    (hc : v.clock = t.clock) (hr : v.record = t.record) (hs : v.setup = t.setup) (hi : v.inputs = t.inputs)
    (hf : v.flood = t.flood) (hg : v.flags = t.flags) (hv : v.valves = t.valves) : Flooded u v bs ps where
  clock := hc.trans h.clock
  setup := hs.trans h.setup
  inputs := hi.trans h.inputs
  flood d := by rw [hf]; exact h.flood d
  flags a := by unfold State.flagged at *; rw [hg]; exact h.flags a
  cut o c := cutsOff_later (h.cut o c) ⟨hc, [], hr⟩ (by rw [hg]; exact flagsWithin_refl _) hv
  stands o c := by rw [hv]; exact h.stands o c
  files := by rw [hr]; exact h.files

/-- R107: a phase entered files its record. -/
theorem Flooded.enter {u t : State} {bs : System → List Bool} {ps : List FanPhase} (h : Flooded u t bs ps) (p : FanPhase)
    (value : Count) : Flooded u (t.file .fanPhase (octet p.code) value) bs (ps ++ [p]) where
  clock := h.clock
  setup := h.setup
  inputs := h.inputs
  flood := h.flood
  flags := h.flags
  cut o c := cutsOff_later (h.cut o c) ⟨rfl, [⟨.fanPhase, octet p.code, value⟩], rfl⟩ (flagsWithin_refl _) rfl
  stands := h.stands
  files := by
    obtain ⟨fs, r, from_, phases⟩ := h.files
    refine ⟨fs ++ [⟨.fanPhase, octet p.code, value⟩], ?_, fun f m => ?_, ?_⟩
    · rw [fileAll_append, ← r, ← h.clock]; rfl
    · rcases List.mem_append.mp m with m | m
      · exact from_ f m
      · rw [List.mem_singleton] at m; subst m; exact .inl rfl
    · rw [List.filter_append, List.map_append, phases, List.map_append]; rfl

theorem forceOff_overtime (now now' : Time) (confirm seconds : Nat) (feedback : Bool) (v : Valve) :
    (v.forceOff now confirm feedback).overtime now' seconds = false := rfl

theorem judgeFlood_flood (t : State) (d : System) : t.judgeFlood.flood[d] = t.inFlood d := by
  simp [State.judgeFlood]

theorem judgeFlood_valves (t : State) (o : Output) : t.judgeFlood.valves[o] =
    if t.cutByFlood (tabulate t.inFlood) o then t.valves[o].forceOff t.clock t.confirmMs (t.feedback o)
    else t.valves[o] := by
  simp only [State.judgeFlood, Fin.getElem_fin, tabulate_at]

theorem judgeFlood_grows (t : State) : Grows t t.judgeFlood := ⟨rfl, _, rfl⟩

theorem judgeFlood_flags (t : State) : flagsWithin t.flags t.judgeFlood.flags := flagsWithin_ite ..

theorem judgeFlood_filed (t : State) (o : Output) (h : t.cutByFlood (tabulate t.inFlood) o = true) :
    t.filed t.judgeFlood (cutOffFiling t.clock o t.valves[o]) ∧ t.judgeFlood.flagged .valveTrouble = true := by
  have m : o ∈ (indexes 4).filter (t.cutByFlood (tabulate t.inFlood)) := List.mem_filter.mpr ⟨mem_indexes o, h⟩
  refine ⟨filed_mem (u := t) (t := t.judgeFlood) rfl rfl (List.mem_map.mpr ⟨o, m, rfl⟩), ?_⟩
  have any : (indexes 4).any (t.cutByFlood (tabulate t.inFlood)) = true := List.any_eq_true.mpr ⟨o, mem_indexes o, h⟩
  unfold State.flagged State.judgeFlood
  simp only [any, if_true]
  exact flagged_or_mask _ .valveTrouble

theorem cutByFlood_iff (t : State) (o : Output) : t.cutByFlood (tabulate t.inFlood) o = true ↔
    (t.role o).isValve = true ∧ t.inFlood (t.valveSystem o) ≠ t.flood[t.valveSystem o] ∧
      t.valves[o].overtime t.clock (t.setup.cutOffSeconds (t.inFlood (t.valveSystem o))) = true := by
  simp only [State.cutByFlood, Bool.and_eq_true, bne_iff_ne, Fin.getElem_fin, tabulate_at, and_assoc]

theorem judgeFlood_flagged (t : State) (a : Attention) : t.judgeFlood.flagged a = true ↔
    t.flagged a = true ∨ (a = .valveTrouble ∧ ∃ o : Output, t.cutByFlood (tabulate t.inFlood) o = true) := by
  have any : (indexes 4).any (t.cutByFlood (tabulate t.inFlood)) = true ↔
      ∃ o : Output, t.cutByFlood (tabulate t.inFlood) o = true := by
    rw [List.any_eq_true]
    exact ⟨fun ⟨o, _, k⟩ => ⟨o, k⟩, fun ⟨o, k⟩ => ⟨o, mem_indexes o, k⟩⟩
  rw [← any]
  unfold State.flagged State.judgeFlood
  simp only
  split
  · rename_i k
    rw [flagged_raised, k]
    simp only [and_true]
  · rename_i k
    simp only [k, and_false, or_false, Bool.false_eq_true]

/-- One more judgement. -/
theorem Flooded.judge {u t : State} {bs : System → List Bool} {ps : List FanPhase} (h : Flooded u t bs ps) :
    Flooded u t.judgeFlood (fun d => bs d ++ [t.inFlood d]) ps := by
  have role (o : Output) : t.role o = u.role o := by unfold State.role; rw [h.setup]
  have system (o : Output) : t.valveSystem o = u.valveSystem o := by
    unfold State.valveSystem State.branchSystem; rw [role, h.setup]
  have clock := h.clock
  have snoc (o : Output) : u.cutAt (fun d => bs d ++ [t.inFlood d]) o ↔
      u.cutAt bs o ∨ ((u.role o).isValve = true ∧ t.inFlood (u.valveSystem o) ≠ t.flood[u.valveSystem o] ∧
        u.valves[o].overtime u.clock (u.setup.cutOffSeconds (t.inFlood (u.valveSystem o))) = true) := by
    unfold State.cutAt
    rw [turns_snoc, ← h.flood (u.valveSystem o)]
    constructor
    · rintro ⟨r, f, m, v⟩
      rcases List.mem_append.mp m with m | m
      · exact .inl ⟨r, f, m, v⟩
      · split at m
        · cases m
        · rename_i ne
          rw [List.mem_singleton] at m
          subst m
          exact .inr ⟨r, ne, v⟩
    · rintro (⟨r, f, m, v⟩ | ⟨r, ne, v⟩)
      · exact ⟨r, f, List.mem_append.mpr (.inl m), v⟩
      · exact ⟨r, _, List.mem_append.mpr (.inr (by rw [if_neg ne]; exact List.mem_singleton.mpr rfl)), v⟩
  have fresh (o : Output) (k : t.cutByFlood (tabulate t.inFlood) o = true) :
      t.valves[o] = u.valves[o] ∧ u.cutAt (fun d => bs d ++ [t.inFlood d]) o := by
    obtain ⟨r, ne, v⟩ := (cutByFlood_iff t o).mp k
    have old : ¬u.cutAt bs o := fun c => by
      rw [(h.cut o c).1, forceOff_overtime] at v
      cases v
    have stood := h.stands o old
    rw [role] at r
    simp only [system] at ne v
    rw [stood, clock, h.setup] at v
    exact ⟨stood, (snoc o).mpr (.inr ⟨r, ne, v⟩)⟩
  have later (o : Output) (old : ¬u.cutAt bs o) (c : u.cutAt (fun d => bs d ++ [t.inFlood d]) o) :
      t.cutByFlood (tabulate t.inFlood) o = true := by
    obtain ⟨r, ne, v⟩ := ((snoc o).mp c).resolve_left old
    rw [cutByFlood_iff, h.stands o old, clock, h.setup]
    simp only [role, system]
    exact ⟨r, ne, v⟩
  refine
    { clock := clock
      setup := h.setup
      inputs := h.inputs
      flood := fun d => by rw [judgeFlood_flood]; simp
      flags := fun a => ?_
      cut := fun o c => ?_
      stands := fun o c => ?_
      files := ?_ }
  · rw [judgeFlood_flagged, h.flags]
    constructor
    · rintro ((f | ⟨e, o, c⟩) | ⟨e, o, k⟩)
      · exact .inl f
      · exact .inr ⟨e, o, (snoc o).mpr (.inl c)⟩
      · exact .inr ⟨e, o, (fresh o k).2⟩
    · rintro (f | ⟨e, o, c⟩)
      · exact .inl (.inl f)
      · by_cases old : u.cutAt bs o
        · exact .inl (.inr ⟨e, o, old⟩)
        · exact .inr ⟨e, o, later o old c⟩
  · by_cases old : u.cutAt bs o
    · have x := h.cut o old
      refine ⟨?_, flagged_within (judgeFlood_flags t) _ x.2.1, filed_grows x.2.2 (judgeFlood_grows t)⟩
      rw [judgeFlood_valves, if_neg, x.1]
      intro k
      have k := ((cutByFlood_iff t o).mp k).2.2
      rw [x.1, forceOff_overtime] at k
      cases k
    · have stood := h.stands o old
      have k := later o old c
      have x := judgeFlood_filed t o k
      refine ⟨?_, x.2, ?_⟩
      · rw [judgeFlood_valves, if_pos k, stood, clock]
        unfold State.confirmMs State.feedback
        rw [h.setup, h.inputs]
      · have f := filed_before h.grows x.1 rfl
        rw [stood, clock] at f
        exact f
  · rw [judgeFlood_valves, if_neg fun k => c (fresh o k).2, h.stands o fun x => c ((snoc o).mpr (.inl x))]
  · obtain ⟨fs, r, from_, phases⟩ := h.files
    refine ⟨fs ++ ((indexes 4).filter (t.cutByFlood (tabulate t.inFlood))).map fun o => cutOffFiling t.clock o t.valves[o],
      ?_, fun f m => ?_, ?_⟩
    · rw [fileAll_append, ← r, ← clock]; rfl
    · rcases List.mem_append.mp m with m | m
      · exact (from_ f m).imp id fun ⟨o, c, e⟩ => ⟨o, (snoc o).mpr (.inl c), e⟩
      · obtain ⟨o, x, rfl⟩ := List.mem_map.mp m
        have k := fresh o (List.mem_filter.mp x).2
        exact .inr ⟨o, k.2, by rw [clock, k.1]⟩
    · rw [List.filter_append, List.map_append, phases]
      have none : (((indexes 4).filter (t.cutByFlood (tabulate t.inFlood))).map fun o =>
          cutOffFiling t.clock o t.valves[o]).filter (fun f => f.kind == .fanPhase) = [] :=
        List.filter_eq_nil_iff.mpr fun f m => by
          obtain ⟨o, _, rfl⟩ := List.mem_map.mp m
          exact fun h => nomatch h
      rw [none]
      simp

/-! ## What the judgements read stays the same -/

/-- What holds after consequences that read the zone picture and the choice of views, whatever the phase becomes. -/
structure Stays (s t : State) : Prop extends Keeps s t where
  zones : t.zones = s.zones
  views : t.views = s.views

theorem Consumes.stays {s t : State} (c : Consumes s t) : Stays s t := ⟨c.toKeeps, c.zones, c.views⟩

theorem Stays.trans {s t v : State} (h : Stays s t) (h' : Stays t v) : Stays s v :=
  ⟨h.toKeeps.trans h'.toKeeps, h'.zones.trans h.zones, h'.views.trans h.views⟩

/-- R95: the flood state by the source of the view. -/
theorem floodIn_eq (s : State) (d : System) (p : FanPhase) : s.floodIn d p = (match s.views[d].source with
    | none => true
    | some k =>
      if k = s.setup.number then !p.steady || s.extraction.lowFlow
      else match (s.peers[k]).viewData s.clock with
        | none => true
        | some v => !v.phase.steady || v.lowFlow) := by
  unfold State.floodIn State.inFlood State.viewData
  cases s.views[d].source with
  | none => rfl
  | some k =>
    by_cases h : k = s.setup.number
    · simp only [if_pos h]; rfl
    · simp only [if_neg h] <;> cases (s.peers[k]).viewData s.clock <;> rfl

theorem lowFlow_keeps {s t : State} (c : Stays s t) : t.extraction.lowFlow = s.extraction.lowFlow :=
  (congrArg Extraction.lowFlow c.extraction : t.extraction.apart.lowFlow = s.extraction.apart.lowFlow)

theorem floodIn_keeps {s t : State} (c : Stays s t) (d : System) (p : FanPhase) : t.floodIn d p = s.floodIn d p := by
  rw [floodIn_eq, floodIn_eq, c.views, c.setup, c.peers, c.clock, lowFlow_keeps c]

theorem inFlood_keeps {s t : State} (c : Stays s t) (d : System) : t.inFlood d = s.floodIn d t.extraction.phase :=
  floodIn_keeps c d _

theorem Keeps.hasFan {s t : State} (h : Keeps s t) : t.hasFan = s.hasFan := by
  unfold State.hasFan
  rw [h.setup]

theorem Keeps.feedbackOf {s t : State} (h : Keeps s t) (o : Option Output) : t.feedbackOf o = s.feedbackOf o := by
  unfold State.feedbackOf State.feedback
  rw [h.inputs]

theorem Keeps.gateOutput {s t : State} (h : Keeps s t) : t.gateOutput = s.gateOutput := by
  unfold State.gateOutput
  simp only [h.role]

theorem Keeps.contactorOutput {s t : State} (h : Keeps s t) : t.contactorOutput = s.contactorOutput := by
  unfold State.contactorOutput
  simp only [h.role]

theorem Stays.anyZone {s t : State} (c : Stays s t) (zs : ZoneSet) (l : Level) : t.anyZone zs l = s.anyZone zs l := by
  simp only [State.anyZone, State.zoneLevel, c.zones]

theorem samplerMode_keeps {s t : State} (c : Stays s t)
    (h : t.extraction.phase = s.extraction.phase) : t.samplerMode = s.samplerMode := by
  unfold State.samplerMode
  rw [c.setup, c.start, h, c.anyZone, c.toKeeps.hasFan]

/-! ## Conditions (R113) -/

theorem forceOff_trouble (v : Valve) (now : Time) (confirm : Nat) (feedback : Bool) :
    (v.forceOff now confirm feedback).trouble = true := by
  simp [Valve.trouble, Valve.forceOff]

/-- R97: a valve that is cut off has valve trouble, and trouble stands through consequences. -/
theorem trouble_keeps {s t : State} (c : Keeps s t) (h : s.valveTrouble = true) : t.valveTrouble = true := by
  unfold State.valveTrouble at *
  obtain ⟨o, m, h⟩ := List.any_eq_true.mp h
  refine List.any_eq_true.mpr ⟨o, m, ?_⟩
  simp only [Bool.and_eq_true, c.role] at h ⊢
  refine ⟨h.1, ?_⟩
  rcases c.valves o with e | ⟨_, now, confirm, feedback, e⟩
  · simp only [Fin.getElem_fin] at e h ⊢; rw [e]; exact h.2
  · simp only [Fin.getElem_fin] at e ⊢; rw [e]; exact forceOff_trouble ..

theorem conditions_fire {s t : State} (c : Stays s t) :
    t.conditionsNow.fire = s.conditionsNow.fire ∧ t.conditionsNow.storm = s.conditionsNow.storm := by
  unfold State.conditionsNow State.hasFan
  simp only [c.started, c.setup, c.anyZone]
  split <;> exact ⟨rfl, rfl⟩

theorem peerTrouble_keeps {s t : State} (c : Keeps s t) : t.peerTrouble = s.peerTrouble := by
  unfold State.peerTrouble
  rw [c.peers, c.setup]

theorem conditions_trouble {s t : State} (c : Stays s t) (h : s.conditionsNow.valveTrouble = true) :
    t.conditionsNow.valveTrouble = true := by
  unfold State.conditionsNow State.hasFan State.hasValve at *
  simp only [c.started, c.setup] at h ⊢
  split
  · rename_i g
    rw [if_pos g] at h
    simp only [Bool.or_eq_true, Bool.and_eq_true, peerTrouble_keeps c.toKeeps] at h ⊢
    exact h.imp (fun x => ⟨x.1, trouble_keeps c.toKeeps x.2⟩) id
  · rename_i g
    rw [if_neg g] at h
    exact h

theorem conditions_keeps {s t : State} (c : Stays s t) (h : t.valves = s.valves) :
    t.conditionsNow = s.conditionsNow := by
  unfold State.conditionsNow State.hasFan State.hasValve State.valveTrouble
  simp only [c.started, c.setup, c.anyZone, c.role, h, peerTrouble_keeps c.toKeeps]

theorem arisen_self (c : Conditions) : c.arisen c = [] := by
  cases c with
  | mk f s v => cases f <;> cases s <;> cases v <;> rfl

/-! ## The sampler (R104) -/

/-- The fields that the sampler writes. -/
def Extraction.sampler (e : Extraction) : SamplerMode × Option SampleWindow × Option Instant × Option Time :=
  (e.mode, e.window, e.lastStart, e.nextStart)

theorem nextWindow_mode (now : Time) (e : Extraction) : (e.nextWindow now).mode = e.mode := by
  unfold Extraction.nextWindow Extraction.planPeriodic Extraction.startWindow
  split
  · rfl
  · split
    · rfl
    · rfl
    · split
      · rfl
      · split <;> rfl

theorem judgeMode_mode (now : Time) (m : SamplerMode) (e : Extraction) : (e.judgeMode now m).mode = m := by
  unfold Extraction.judgeMode
  split
  · rename_i h; exact h.symm
  · exact nextWindow_mode now { e with mode := m }

/-- R104: a mode judged again is the same mode. -/
theorem judgeMode_again (now : Time) (m : SamplerMode) (e : Extraction) :
    (e.judgeMode now m).judgeMode now m = e.judgeMode now m := by
  have h := judgeMode_mode now m e
  generalize e.judgeMode now m = f at *
  unfold Extraction.judgeMode
  rw [if_pos h.symm]

/-- R104: the sampler reads and writes its own fields alone. -/
theorem judgeMode_sets (now : Time) (m : SamplerMode) (e : Extraction) : e.judgeMode now m =
    { e with
      mode := (e.judgeMode now m).mode
      window := (e.judgeMode now m).window
      lastStart := (e.judgeMode now m).lastStart
      nextStart := (e.judgeMode now m).nextStart } := by
  unfold Extraction.judgeMode Extraction.nextWindow Extraction.planPeriodic Extraction.startWindow
  split
  · rfl
  · split
    · rfl
    · split
      · rfl
      · rfl
      · split
        · rfl
        · split <;> rfl

/-- R104: what the planning of the next window comes to. -/
theorem nextWindow_governs (now : Time) (e : Extraction) : e.governs now e.mode (e.nextWindow now) where
  runsOn w h := by simp [Extraction.nextWindow, h]
  off h m := by simp [Extraction.nextWindow, h, m]
  waits i h m l lt := by
    have soon : ¬Config.samplePeriod ≤ i.elapsed now := Nat.not_le.mpr lt
    simp [Extraction.nextWindow, Extraction.planPeriodic, h, m, l, soon]
    rfl
  starts h m := by
    rcases m with m | ⟨m, old⟩
    · simp [Extraction.nextWindow, Extraction.startWindow, Instant.of, h, m]
    · cases l : e.lastStart with
      | none => simp [Extraction.nextWindow, Extraction.planPeriodic, Extraction.startWindow, Instant.of, h, m, l]
      | some i =>
        have past : Config.samplePeriod ≤ i.elapsed now := old i l
        simp [Extraction.nextWindow, Extraction.planPeriodic, Extraction.startWindow, Instant.of, h, m, l, past]

/-- R104: what the judgement of the mode comes to, in the fields that the sampler writes. -/
theorem takesMode_of_sampler {now : Time} {m : SamplerMode} {e f : Extraction}
    (h : f.sampler = (e.judgeMode now m).sampler) : e.takesMode now m f := by
  have taken : f.mode = m := (congrArg Prod.fst h).trans (judgeMode_mode ..)
  simp only [Extraction.sampler, Prod.mk.injEq] at h
  obtain ⟨-, window, last, next⟩ := h
  refine ⟨taken, fun same => ?_, fun new => ?_⟩
  · rw [window, last, next]
    unfold Extraction.judgeMode
    rw [if_pos same]
    exact ⟨rfl, rfl, rfl⟩
  · have x := nextWindow_governs now { e with mode := m }
    have g : e.judgeMode now m = { e with mode := m }.nextWindow now := by
      unfold Extraction.judgeMode; rw [if_neg new]
    rw [g] at window last next
    exact
      { runsOn := fun w h => by rw [window, last, next]; exact x.runsOn w h
        off := fun h h' => by rw [window, last, next]; exact x.off h h'
        waits := fun i h h' l lt => by rw [window, last, next]; exact x.waits i h h' l lt
        starts := fun h h' => by rw [window, last, next]; exact x.starts h h' }

theorem judgeMode_sampler (now : Time) (m : SamplerMode) (e f : Extraction) (h : f.sampler = e.sampler) :
    (f.judgeMode now m).sampler = (e.judgeMode now m).sampler := by
  simp only [Extraction.sampler, Prod.mk.injEq] at h
  unfold Extraction.judgeMode Extraction.nextWindow Extraction.planPeriodic Extraction.startWindow
  simp only [h]
  split
  · simp [Extraction.sampler, h]
  · split
    · rfl
    · split
      · rfl
      · rfl
      · split
        · rfl
        · split <;> rfl

/-! ## One change of phase (R107) -/

/-- The mismatch judgements of a state (R102). -/
def State.judgedPair (s : State) : Mismatch × Mismatch :=
  (s.judgeMismatches.extraction.contactor, s.judgeMismatches.extraction.gate)

theorem judgeMismatches_sets (s : State) : s.judgeMismatches.extraction =
    { s.extraction with contactor := s.judgedPair.1, gate := s.judgedPair.2 } := by
  unfold State.judgedPair State.judgeMismatches
  simp only
  split <;> rfl

theorem judgedPair_eq (s : State) : s.judgedPair =
    if s.operating && s.hasFan then
      (s.extraction.contactor.judge s.clock 2000 s.extraction.phase.contactorOn (s.feedbackOf s.contactorOutput),
        s.extraction.gate.judge s.clock s.setup.extraction.gateTime s.extraction.phase.gateOn (s.feedbackOf s.gateOutput))
    else (s.extraction.contactor, s.extraction.gate) := by
  unfold State.judgedPair State.judgeMismatches
  simp only
  split <;> rfl

/-- What one change of phase brings (R107), besides the flood states and the valves. -/
structure PhaseMade (s t : State) : Prop where
  consumes : Consumes s t
  filed : s.filed t ⟨.fanPhase, octet s.extraction.phase.code, phaseRecordValue s.extraction s.extraction.causes⟩
  fields : t.extraction = { s.extraction with
    contactor := s.judgedPair.1
    gate := s.judgedPair.2
    mode := t.extraction.mode
    window := t.extraction.window
    lastStart := t.extraction.lastStart
    nextStart := t.extraction.nextStart }
  sampler : t.extraction.sampler = (s.extraction.judgeMode s.clock s.samplerMode).sampler
  flooded : ∀ (u : State) (bs : System → List Bool) (ps : List FanPhase), Flooded u s bs ps →
    Flooded u t (fun d => bs d ++ [s.floodIn d s.extraction.phase]) (ps ++ [s.extraction.phase])

theorem phaseChanged_made (s : State) : PhaseMade s s.phaseChanged where
  consumes := phaseChanged_consumes s
  filed := by
    have f := file_consumes s .fanPhase (octet s.extraction.phase.code) s.extraction.phaseValue
    have later := (judgeMismatches_consumes (s.file .fanPhase (octet s.extraction.phase.code) s.extraction.phaseValue)).trans
      ((judgeSampler_consumes _).trans (judgeFlood_consumes _))
    exact filed_between (Grows.refl s) _ rfl f.clock later.toKeeps.grows
  fields := by
    have e : s.phaseChanged.extraction =
        s.judgeMismatches.extraction.judgeMode s.clock s.judgeMismatches.samplerMode := rfl
    rw [e]
    conv_lhs => rw [judgeMode_sets]
    rw [judgeMismatches_sets]
  sampler := by
    have e : s.phaseChanged.extraction =
        s.judgeMismatches.extraction.judgeMode s.clock s.judgeMismatches.samplerMode := rfl
    have m : s.judgeMismatches.samplerMode = s.samplerMode :=
      samplerMode_keeps (judgeMismatches_consumes s).stays (judgeMismatches_extraction s).2.2
    rw [e, m]
    exact judgeMode_sampler _ _ _ _ (by rw [judgeMismatches_sets]; rfl)
  flooded u bs ps h := by
    have c := (file_consumes s .fanPhase (octet s.extraction.phase.code) s.extraction.phaseValue).trans
      ((judgeMismatches_consumes _).trans (judgeSampler_consumes _))
    have k := ((h.enter s.extraction.phase s.extraction.phaseValue).keep (v := (s.file .fanPhase
      (octet s.extraction.phase.code) s.extraction.phaseValue).judgeMismatches.judgeSampler) rfl rfl rfl rfl rfl rfl rfl).judge
    have p : (s.file .fanPhase (octet s.extraction.phase.code)
        s.extraction.phaseValue).judgeMismatches.judgeSampler.extraction.phase = s.extraction.phase :=
      (judgeMode_extraction ..).2.2.trans (judgeMismatches_extraction _).2.2
    simp only [inFlood_keeps c.stays, p] at k
    exact k

/-! ## DIVERTING by causes (R110) -/

/-- What the entry to DIVERTING comes to, and to RUNDOWN at once with the gate feedback active. -/
structure DivertingMade (s t : State) : Prop where
  phase : t.extraction.phase = if s.feedbackOf s.gateOutput then .rundown else .diverting
  kept : t.extraction.causes = s.extraction.causes ∧ t.extraction.first = s.extraction.first ∧
    t.extraction.conditions = s.extraction.conditions
  diverting : s.filed t ⟨.fanPhase, 3, phaseRecordValue s.extraction s.extraction.causes⟩
  rundown : t.extraction.phase = .rundown →
    s.filed t ⟨.fanPhase, 4, phaseRecordValue s.extraction s.extraction.causes⟩
  timer : (t.extraction.phase = .diverting →
      t.extraction.timer = some (after s.clock s.setup.extraction.gateTime) ∧
        t.extraction.stopCount = s.extraction.stopCount) ∧
    (t.extraction.phase = .rundown →
      t.extraction.timer = some (after s.clock (s.setup.extraction.rundownLimit * 1000)) ∧ t.extraction.stopCount = 0)
  mismatches :
    let judged (time : Nat) (feedback : Bool) (outputs : List Bool) (m : Mismatch) : Mismatch :=
      if s.operating && s.hasFan then outputs.foldl (fun m on => m.judge s.clock time on feedback) m else m
    let outputs := if t.extraction.phase = .rundown then [true, false] else [true]
    t.extraction.contactor = judged 2000 (s.feedbackOf s.contactorOutput) outputs s.extraction.contactor ∧
      t.extraction.gate = judged s.setup.extraction.gateTime (s.feedbackOf s.gateOutput) [true] s.extraction.gate
  sampler : t.extraction.sampler = (s.extraction.judgeMode s.clock t.samplerMode).sampler
  flooded : ∀ (u : State) (bs : System → List Bool) (ps : List FanPhase), Flooded u s bs ps → Flooded u t (fun d =>
      bs d ++ s.floodIn d .diverting :: if t.extraction.phase = .rundown then [s.floodIn d .rundown] else [])
    (ps ++ .diverting :: if t.extraction.phase = .rundown then [.rundown] else [])

/-- R104: the sampler has one mode in DIVERTING and in RUNDOWN. -/
theorem samplerMode_rundown {s t : State} (c : Stays s t) (h : s.extraction.phase = .diverting)
    (h' : t.extraction.phase = .rundown) : t.samplerMode = s.samplerMode := by
  unfold State.samplerMode State.hasFan
  rw [c.setup, c.start, h, h']

theorem judge_again (now now' : Time) (time time' : Nat) (on feedback : Bool) (m : Mismatch) :
    (m.judge now time on feedback).judge now' time' on feedback = m.judge now time on feedback := by
  unfold Mismatch.judge
  by_cases h : on = feedback
  · simp [h]
  · cases hs : m.stands <;> cases ht : m.timer <;> simp [h, hs, ht]

theorem enterDiverting_made (s : State) : DivertingMade s s.enterDiverting := by
  have made := phaseChanged_made { s with extraction :=
    { s.extraction with phase := .diverting, timer := some (after s.clock s.setup.extraction.gateTime) } }
  unfold State.enterDiverting
  simp only
  generalize h1 : ({ s with extraction :=
    { s.extraction with phase := .diverting, timer := some (after s.clock s.setup.extraction.gateTime) } } : State) = s1
    at made ⊢
  have clock : s1.clock = s.clock := by rw [← h1]
  have setup : s1.setup = s.setup := by rw [← h1]
  have op : s1.operating = s.operating := by rw [← h1]; rfl
  have fan : s1.hasFan = s.hasFan := by rw [← h1]; rfl
  have fb (o : Option Output) : s1.feedbackOf o = s.feedbackOf o := by rw [← h1]; rfl
  have co : s1.contactorOutput = s.contactorOutput := by rw [← h1]; rfl
  have go : s1.gateOutput = s.gateOutput := by rw [← h1]; rfl
  have phase : s1.extraction.phase = .diverting := by rw [← h1]
  have other : s1.extraction = { s.extraction with
      phase := .diverting, timer := some (after s.clock s.setup.extraction.gateTime) } := by rw [← h1]
  have flood (d : System) (p : FanPhase) : s1.floodIn d p = s.floodIn d p := by rw [← h1, floodIn_eq, floodIn_eq]
  have grows : Grows s s1 := by rw [← h1]; exact Grows.refl s
  have start (u : State) (bs : System → List Bool) (ps : List FanPhase) (h : Flooded u s bs ps) : Flooded u s1 bs ps := by
    rw [← h1]; exact h.keep rfl rfl rfl rfl rfl rfl rfl
  clear h1
  have c := made.consumes.stays
  have f := made.fields
  have first : s.filed s1.phaseChanged ⟨.fanPhase, 3, phaseRecordValue s.extraction s.extraction.causes⟩ := by
    have x := made.filed
    rw [other] at x
    exact filed_before grows x c.clock
  have back : s1.phaseChanged.feedbackOf s1.phaseChanged.gateOutput = s.feedbackOf s.gateOutput := by
    rw [c.toKeeps.feedbackOf, c.toKeeps.gateOutput, fb, go]
  have pair := judgedPair_eq s1
  rw [op, fan, clock, setup, fb, fb, co, go, other] at pair
  have phase1 : s1.phaseChanged.extraction.phase = .diverting := by rw [f, ← phase]
  split
  · rename_i hb
    rw [back] at hb
    have made' := phaseChanged_made { s1.phaseChanged with extraction :=
      { s1.phaseChanged.extraction with
        phase := .rundown
        timer := some (after s1.phaseChanged.clock (s1.phaseChanged.setup.extraction.rundownLimit * 1000))
        stopCount := 0 } }
    unfold State.enterRundown
    have c1 : Stays s1.phaseChanged ({ s1.phaseChanged with extraction :=
        { s1.phaseChanged.extraction with
          phase := .rundown
          timer := some (after s1.phaseChanged.clock (s1.phaseChanged.setup.extraction.rundownLimit * 1000))
          stopCount := 0 } } : State) :=
      ⟨extraction_keeps _ _ rfl (causesWithin_refl _) (by rw [phase1]; exact fun h => nomatch h), rfl, rfl⟩
    have start' (u : State) (bs : System → List Bool) (ps : List FanPhase) (h : Flooded u s1.phaseChanged bs ps) :
        Flooded u ({ s1.phaseChanged with extraction :=
          { s1.phaseChanged.extraction with
            phase := .rundown
            timer := some (after s1.phaseChanged.clock (s1.phaseChanged.setup.extraction.rundownLimit * 1000))
            stopCount := 0 } } : State) bs ps :=
      h.keep rfl rfl rfl rfl rfl rfl rfl
    have other' : ({ s1.phaseChanged with extraction :=
        { s1.phaseChanged.extraction with
          phase := .rundown
          timer := some (after s1.phaseChanged.clock (s1.phaseChanged.setup.extraction.rundownLimit * 1000))
          stopCount := 0 } } : State).extraction = { s1.phaseChanged.extraction with
          phase := .rundown
          timer := some (after s.clock (s.setup.extraction.rundownLimit * 1000))
          stopCount := 0 } := by
      simp only [c.clock, clock, c.setup, setup]
    generalize ({ s1.phaseChanged with extraction :=
        { s1.phaseChanged.extraction with
          phase := .rundown
          timer := some (after s1.phaseChanged.clock (s1.phaseChanged.setup.extraction.rundownLimit * 1000))
          stopCount := 0 } } : State) = s2 at made' c1 start' other' ⊢
    have c' := made'.consumes.stays
    have f' := made'.fields
    have cc := c.trans c1
    have phase2 : s2.phaseChanged.extraction.phase = .rundown := by rw [f', other']
    have pair' := judgedPair_eq s2
    rw [cc.operating, cc.toKeeps.hasFan, cc.clock, cc.setup, cc.toKeeps.feedbackOf, cc.toKeeps.feedbackOf,
      cc.toKeeps.contactorOutput, cc.toKeeps.gateOutput, op, fan, clock, setup, fb, fb, co, go, other'] at pair'
    have second : s.filed s2.phaseChanged ⟨.fanPhase, 4, phaseRecordValue s.extraction s.extraction.causes⟩ := by
      have x := made'.filed
      rw [other', f, other] at x
      exact filed_before (grows.trans cc.toKeeps.grows) x c'.clock
    exact
      { phase := by rw [phase2, if_pos hb]
        kept := by rw [f', other', f, other]; exact ⟨rfl, rfl, rfl⟩
        diverting := filed_grows first (c1.trans c').toKeeps.grows
        rundown := fun _ => second
        timer := ⟨(fun h => nomatch phase2.symm.trans h), fun _ => by rw [f', other']; exact ⟨rfl, rfl⟩⟩
        mismatches := by
          simp only [phase2]
          rw [f']
          simp only [pair']
          rw [f]
          simp only [pair]
          split
          · refine ⟨rfl, ?_⟩
            exact judge_again ..
          · exact ⟨rfl, rfl⟩
        sampler := by
          have m : s2.phaseChanged.samplerMode = s1.samplerMode :=
            samplerMode_rundown (cc.trans c') phase phase2
          have m' : s2.samplerMode = s1.samplerMode := samplerMode_rundown cc phase (by rw [other'])
          rw [m, made'.sampler, cc.clock, m', clock]
          have again : s1.phaseChanged.extraction.sampler =
              (s.extraction.judgeMode s.clock s1.samplerMode).sampler := by
            rw [made.sampler, clock]
            exact judgeMode_sampler _ _ _ _ (by rw [other]; rfl)
          rw [judgeMode_sampler s.clock s1.samplerMode (s.extraction.judgeMode s.clock s1.samplerMode) s2.extraction
            (by rw [other', ← again]; rfl), judgeMode_again]
        flooded := fun u bs ps h => by
          have x := made'.flooded u _ _ (start' u _ _ (made.flooded u bs ps (start u bs ps h)))
          simp only [phase2]
          simp only [floodIn_keeps cc, flood, phase, show s2.extraction.phase = .rundown by rw [other']] at x
          simpa using x }
  · rename_i hb
    rw [back] at hb
    exact
      { phase := by rw [phase1, if_neg hb]
        kept := by rw [f, other]; exact ⟨rfl, rfl, rfl⟩
        diverting := first
        rundown := fun h => by rw [phase1] at h; cases h
        timer := ⟨fun _ => by rw [f, other]; exact ⟨rfl, rfl⟩, fun h => by rw [phase1] at h; cases h⟩
        mismatches := by
          simp only [phase1]
          rw [f]
          simp only [pair]
          split <;> exact ⟨rfl, rfl⟩
        sampler := by
          rw [samplerMode_keeps c (phase1.trans phase.symm), made.sampler, clock]
          exact judgeMode_sampler _ _ _ _ (by rw [other]; rfl)
        flooded := fun u bs ps h => by
          have x := made.flooded u bs ps (start u bs ps h)
          simp only [phase1]
          simp only [flood, phase] at x
          exact x }

/-! ## The whole judgement -/

theorem addCauses_append (m : BitVec 7) (cs ds : List Cause) : addCauses m (cs ++ ds) = addCauses (addCauses m cs) ds :=
  List.foldl_append ..

/-- R115: causes that lead to no change of phase. -/
theorem raiseCauses_quiet (s : State) (cs : List Cause)
    (h : ¬((s.extraction.phase = .starting ∨ s.extraction.phase = .running) ∧ cs ≠ [])) :
    s.raiseCauses cs = { s with extraction := { s.extraction with
      causes := if s.extraction.phase = .standby then s.extraction.causes else addCauses s.extraction.causes cs } } := by
  unfold State.raiseCauses
  cases cs with
  | nil => simp [addCauses]
  | cons c cs =>
    have n : s.extraction.phase ≠ .starting ∧ s.extraction.phase ≠ .running := by
      simpa only [ne_eq, not_and, not_or, reduceCtorEq, not_false_eq_true, not_true_eq_false, and_true] using h
    simp only
    split
    · rename_i e; rw [if_pos e]
    · rename_i e; exact absurd e n.1
    · rename_i e; exact absurd e n.2
    all_goals
      rename_i e
      rw [if_neg (by rw [e]; exact fun h => nomatch h)]

/-- R115: causes that lead to DIVERTING. -/
theorem raiseCauses_diverting (s : State) (c : Cause) (cs : List Cause)
    (h : s.extraction.phase = .starting ∨ s.extraction.phase = .running) : s.raiseCauses (c :: cs) =
      ({ s with extraction := { s.extraction with
        causes := addCauses s.extraction.causes (c :: cs), first := some c } } : State).enterDiverting := by
  unfold State.raiseCauses
  rcases h with h | h <;> rw [h]

/-- R113: a second judgement of the conditions that changes no phase. -/
theorem judgeCauses_again (s : State)
    (h : (s.extraction.phase = .starting ∨ s.extraction.phase = .running) → s.extraction.conditions = s.conditionsNow) :
    s.judgeCauses [] = { s with extraction := { s.extraction with
      conditions := s.conditionsNow
      causes := if s.extraction.phase = .standby then s.extraction.causes
        else addCauses s.extraction.causes (s.extraction.conditions.arisen s.conditionsNow) } } := by
  unfold State.judgeCauses
  rw [List.append_nil, raiseCauses_quiet]
  rintro ⟨p, n⟩
  exact n (by rw [h p, arisen_self])

theorem passed_still (p : FanPhase) : p.passed p = [p] := by simp [FanPhase.passed]

theorem passed_diverting (p : FanPhase) (h : p = .starting ∨ p = .running) : p.passed .diverting = [p, .diverting] := by
  rcases h with rfl | rfl <;> rfl

theorem passed_rundown (p : FanPhase) (h : p = .starting ∨ p = .running) :
    p.passed .rundown = [p, .diverting, .rundown] := by
  rcases h with rfl | rfl <;> rfl

/-- The values judged are those of the phases passed. -/
theorem Flooded.floodTurns {u t : State} {bs : System → List Bool} {ps qs : List FanPhase} {p : FanPhase}
    (h : Flooded u t bs qs) (c : Stays u t) (e : ∀ d, bs d = (ps ++ [p]).map (u.floodIn d)) (hp : t.extraction.phase = p) :
    u.floodTurns t (ps ++ [p]) := by
  have cut (o : Output) : u.floodCuts t (ps ++ [p]) o ↔ u.cutAt bs o := by
    unfold State.floodCuts State.cutAt
    rw [e, show t.floodIn (u.valveSystem o) = u.floodIn (u.valveSystem o) from funext fun q => floodIn_keeps c _ q]
  refine ⟨?_, fun o x => h.cut o ((cut o).mp x), fun o x => h.stands o fun y => x ((cut o).mpr y)⟩
  refine Vector.ext fun i hi => ?_
  have f := h.flood ⟨i, hi⟩
  rw [e] at f
  simp only [List.map_append, List.map_cons, List.map_nil, List.getLastD_concat, Fin.getElem_fin] at f
  rw [f, show (tabulate t.inFlood)[i] = t.inFlood ⟨i, hi⟩ from tabulate_at t.inFlood ⟨i, hi⟩, inFlood_keeps c, hp]

/-- The last judgement of the causes and of the sampler, when it changes no phase. -/
theorem judgedAgain (b : State)
    (h : (b.extraction.phase = .starting ∨ b.extraction.phase = .running) → b.extraction.conditions = b.conditionsNow) :
    (b.judgeCauses []).judgeSampler = { b with extraction := (b.judgeCauses []).judgeSampler.extraction } ∧
    (b.judgeCauses []).judgeSampler.extraction = { b.extraction with
      conditions := b.conditionsNow
      causes := if b.extraction.phase = .standby then b.extraction.causes
        else addCauses b.extraction.causes (b.extraction.conditions.arisen b.conditionsNow)
      mode := (b.judgeCauses []).judgeSampler.extraction.mode
      window := (b.judgeCauses []).judgeSampler.extraction.window
      lastStart := (b.judgeCauses []).judgeSampler.extraction.lastStart
      nextStart := (b.judgeCauses []).judgeSampler.extraction.nextStart } ∧
    (b.judgeCauses []).judgeSampler.extraction.sampler = (b.extraction.judgeMode b.clock b.samplerMode).sampler := by
  rw [judgeCauses_again b h]
  refine ⟨rfl, ?_, ?_⟩
  · conv_lhs => unfold State.judgeSampler; rw [judgeMode_sets]
    rfl
  · exact judgeMode_sampler _ _ _ _ rfl

/-- What the judgement of the flood states, the causes and the sampler comes to, with the records and the flags that it
brings. -/
theorem judgeExtraction_settles (u : State) (event : List Cause) : u.fanSettles (u.judgeExtraction event) event ∧
    Flooded u (u.judgeExtraction event)
      (fun d => (u.extraction.phase.passed (u.judgeExtraction event).extraction.phase).map (u.floodIn d))
      (u.extraction.phase.passed (u.judgeExtraction event).extraction.phase).tail := by
  have stays := (judgeExtraction_consumes u event).stays
  have apart := (judgeExtraction_consumes u event).extraction
  have first : Flooded u u.judgeFlood (fun d => [u.floodIn d u.extraction.phase]) [] :=
    (Flooded.start u u rfl rfl rfl rfl rfl rfl rfl).judge
  have c1 := judgeFlood_consumes u
  unfold State.judgeExtraction at stays apart ⊢
  have mid := judgeCauses_consumes u.judgeFlood event
  have eb : u.judgeFlood.judgeCauses event = State.raiseCauses { u.judgeFlood with extraction :=
    { u.extraction with conditions := u.judgeFlood.conditionsNow } }
    (u.extraction.conditions.arisen u.judgeFlood.conditionsNow ++ event) := rfl
  generalize hn : u.extraction.conditions.arisen u.judgeFlood.conditionsNow ++ event = arisen at eb
  by_cases dive : (u.extraction.phase = .starting ∨ u.extraction.phase = .running) ∧ arisen ≠ []
  · obtain ⟨running, some⟩ := dive
    obtain ⟨cause, rest, rfl⟩ := List.exists_cons_of_ne_nil some
    have eb := eb.trans (raiseCauses_diverting _ cause rest running)
    generalize hy : ({ u.judgeFlood with extraction := { u.extraction with
      conditions := u.judgeFlood.conditionsNow
      causes := addCauses u.extraction.causes (cause :: rest)
      first := Option.some cause } } : State) = y at eb
    have yx : y.extraction = { u.extraction with
      conditions := u.judgeFlood.conditionsNow
      causes := addCauses u.extraction.causes (cause :: rest)
      first := Option.some cause } := by rw [← hy]
    have yclock : y.clock = u.clock := by rw [← hy]; rfl
    have ysetup : y.setup = u.setup := by rw [← hy]; rfl
    have yop : y.operating = u.operating := by rw [← hy]; rfl
    have yfan : y.hasFan = u.hasFan := by rw [← hy]; rfl
    have yfb (o : Option Output) : y.feedbackOf o = u.feedbackOf o := by rw [← hy]; rfl
    have yco : y.contactorOutput = u.contactorOutput := by rw [← hy]; rfl
    have ygo : y.gateOutput = u.gateOutput := by rw [← hy]; rfl
    have yflood (d : System) (p : FanPhase) : y.floodIn d p = u.floodIn d p := by
      rw [← hy, floodIn_eq, floodIn_eq]; rfl
    have ygrows : Grows u y := by rw [← hy]; exact first.grows
    have start : Flooded u y (fun d => [u.floodIn d u.extraction.phase]) [] := by
      rw [← hy]; exact first.keep rfl rfl rfl rfl rfl rfl rfl
    have made := enterDiverting_made y
    rw [← eb] at made
    clear hy
    generalize u.judgeFlood.judgeCauses event = b at *
    clear eb
    have left : b.extraction.phase = .diverting ∨ b.extraction.phase = .rundown := by
      rw [made.phase]; split
      · exact .inr rfl
      · exact .inl rfl
    obtain ⟨frame, fields, sampler⟩ := judgedAgain b fun h => by
      rcases left with l | l <;> rw [l] at h <;> rcases h with h | h <;> cases h
    have phase : (b.judgeCauses []).judgeSampler.extraction.phase = b.extraction.phase := by rw [fields]
    have mode : b.samplerMode = (b.judgeCauses []).judgeSampler.samplerMode :=
      (samplerMode_keeps ((judgeCauses_consumes _ _).trans (judgeSampler_consumes _)).stays phase).symm
    have now : b.conditionsNow = (b.judgeCauses []).judgeSampler.conditionsNow := by rw [frame]; rfl
    have flooded := (made.flooded u _ _ start).keep (v := (b.judgeCauses []).judgeSampler)
      (by rw [frame]) (by rw [frame]) (by rw [frame]) (by rw [frame]) (by rw [frame]) (by rw [frame]) (by rw [frame])
    have grown : Grows b (b.judgeCauses []).judgeSampler := by rw [frame]; exact Grows.refl _
    have cs := (c1.trans mid).stays
    rw [cs.clock, mode] at sampler
    rw [now] at fields
    generalize (b.judgeCauses []).judgeSampler = t at *
    have moved : t.extraction.phase ≠ u.extraction.phase := by
      rw [phase]
      rcases left with l | l <;> rcases running with r | r <;> rw [l, r] <;> exact fun h => nomatch h
    have same : t.conditionsNow.fire = u.judgeFlood.conditionsNow.fire ∧
        t.conditionsNow.storm = u.judgeFlood.conditionsNow.storm :=
      ⟨(conditions_fire stays).1.trans (conditions_fire c1.stays).1.symm,
        (conditions_fire stays).2.trans (conditions_fire c1.stays).2.symm⟩
    have more (h : u.judgeFlood.conditionsNow.valveTrouble = true) : t.conditionsNow.valveTrouble = true := by
      rw [← now]; exact conditions_trouble mid.stays h
    have conditions : t.extraction.conditions = t.conditionsNow := by rw [fields]
    have value : phaseRecordValue y.extraction y.extraction.causes =
        phaseRecordValue t.extraction (addCauses u.extraction.causes (cause :: rest)) := by
      have gate : t.extraction.gateFail = u.extraction.gateFail :=
        (congrArg Extraction.gateFail apart : t.extraction.apart.gateFail = u.extraction.apart.gateFail)
      have slow : t.extraction.rundownSlow = u.extraction.rundownSlow :=
        (congrArg Extraction.rundownSlow apart : t.extraction.apart.rundownSlow = u.extraction.apart.rundownSlow)
      have one : t.extraction.first = Option.some cause := by rw [fields]; exact made.kept.2.1.trans (by rw [yx])
      unfold phaseRecordValue
      rw [gate, slow, one, yx]
    have clock : b.clock = y.clock := cs.clock.trans yclock.symm
    have next : t.extraction.phase = if u.feedbackOf u.gateOutput then .rundown else .diverting := by
      rw [phase, made.phase, yfb, ygo]
    have sampler' := sampler.trans ((judgeMode_sampler u.clock t.samplerMode (y.extraction.judgeMode u.clock t.samplerMode)
      b.extraction (by rw [made.sampler, yclock, mode])).trans (by rw [judgeMode_again]))
    have sampler' := sampler'.trans (judgeMode_sampler u.clock t.samplerMode u.extraction _ (by rw [yx]; rfl))
    have timer := made.timer
    have pair := made.mismatches
    rw [yclock, ysetup, yx] at timer
    rw [yclock, ysetup, yop, yfan, yfb, yfb, yco, ygo, yx, ← phase] at pair
    refine ⟨?_, ?_⟩
    rotate_left
    · rcases left with l | l
      · rw [phase, l, passed_diverting _ running]
        simp only [l, yflood] at flooded
        exact flooded
      · rw [phase, l, passed_rundown _ running]
        simp only [l, yflood] at flooded
        exact flooded
    exact
      { flood := by
          rcases left with l | l
          · rw [phase, l, passed_diverting _ running]
            refine flooded.floodTurns (ps := [u.extraction.phase]) stays (fun d => ?_) (phase.trans l)
            simp only [l, yflood]
            rfl
          · rw [phase, l, passed_rundown _ running]
            refine flooded.floodTurns (ps := [u.extraction.phase, .diverting]) stays (fun d => ?_) (phase.trans l)
            simp only [l, yflood]
            rfl
        apart := apart
        conditions := conditions
        causes := by
          refine ⟨u.judgeFlood.conditionsNow, ?_, ?_, ?_, fun h => absurd h moved, ?_⟩
          · rw [conditions]; exact same.1.symm
          · rw [conditions]; exact same.2.symm
          · rw [conditions]; exact more
          · rw [hn]
            refine ⟨?_, ?_, fun _ => ⟨?_, ?_, fun h => ?_⟩⟩
            · have e : t.extraction.causes = if b.extraction.phase = .standby then b.extraction.causes
                  else addCauses b.extraction.causes (b.extraction.conditions.arisen t.conditionsNow) := by rw [fields]
              rw [e, if_neg, if_neg, conditions, addCauses_append, made.kept.1, made.kept.2.2, yx]
              · rcases running with r | r <;> rw [r] <;> exact fun h => nomatch h
              · rcases left with l | l <;> rw [l] <;> exact fun h => nomatch h
            · rw [if_pos ⟨running, some⟩, next]
            · rw [fields]; exact made.kept.2.1.trans (by rw [yx]; rfl)
            · rw [← value]
              exact filed_grows (filed_before ygrows made.diverting clock) grown
            · rw [← value]
              exact filed_grows (filed_before ygrows (made.rundown (phase ▸ h)) clock) grown
        still := fun h => absurd h moved
        timer := fun _ => by rw [fields]; exact timer
        mismatches := fun _ => by
          have contactor : t.extraction.contactor = b.extraction.contactor := by rw [fields]
          have gate : t.extraction.gate = b.extraction.gate := by rw [fields]
          rw [contactor, gate]
          exact pair
        sampler := takesMode_of_sampler sampler' }
  · have eb := eb.trans (raiseCauses_quiet _ _ dive)
    have same : (u.judgeFlood.judgeCauses event).conditionsNow = u.judgeFlood.conditionsNow := by rw [eb]; rfl
    obtain ⟨frame, fields, sampler⟩ := judgedAgain (u.judgeFlood.judgeCauses event) fun _ => by rw [same, eb]
    have later := first.keep (v := u.judgeFlood.judgeCauses event) (by rw [eb]) (by rw [eb]) (by rw [eb]) (by rw [eb])
      (by rw [eb]) (by rw [eb]) (by rw [eb])
    have fields' : (u.judgeFlood.judgeCauses event).extraction = { u.extraction with
        conditions := u.judgeFlood.conditionsNow
        causes := if u.extraction.phase = .standby then u.extraction.causes
          else addCauses u.extraction.causes arisen } := by rw [eb]
    have now : (u.judgeFlood.judgeCauses event).conditionsNow =
        ((u.judgeFlood.judgeCauses event).judgeCauses []).judgeSampler.conditionsNow := by rw [frame]; rfl
    have clock := (c1.trans mid).clock
    have mode : (u.judgeFlood.judgeCauses event).samplerMode =
        ((u.judgeFlood.judgeCauses event).judgeCauses []).judgeSampler.samplerMode := by
      refine (samplerMode_keeps ((judgeCauses_consumes _ _).trans (judgeSampler_consumes _)).stays ?_).symm
      rw [fields]
    rw [same] at fields now
    have flooded := later.keep (v := ((u.judgeFlood.judgeCauses event).judgeCauses []).judgeSampler)
      (by rw [frame]) (by rw [frame]) (by rw [frame]) (by rw [frame]) (by rw [frame]) (by rw [frame]) (by rw [frame])
    rw [fields', clock, mode] at sampler
    rw [fields', arisen_self] at fields
    clear eb same frame later mid fields'
    generalize ((u.judgeFlood.judgeCauses event).judgeCauses []).judgeSampler = t at *
    have phase : t.extraction.phase = u.extraction.phase := by rw [fields]
    have sampler' := sampler.trans (judgeMode_sampler u.clock t.samplerMode u.extraction _ rfl)
    refine ⟨?_, by rw [phase, passed_still]; exact flooded⟩
    exact
      { flood := by
          rw [phase, passed_still]
          exact flooded.floodTurns (ps := []) stays (fun d => rfl) phase
        apart := apart
        conditions := by rw [fields, ← now]
        causes := by
          refine ⟨t.extraction.conditions, rfl, rfl, id, fun _ => rfl, ?_⟩
          have c : t.extraction.conditions = u.judgeFlood.conditionsNow := by rw [fields]
          simp only [c, hn, arisen_self, List.append_nil]
          refine ⟨?_, ?_, fun h => absurd phase h⟩
          · rw [fields]
            simp only
            split <;> rfl
          · rw [if_neg dive, phase]
        still := fun _ => by rw [fields]; exact ⟨rfl, rfl, rfl, rfl, rfl⟩
        timer := fun h => absurd phase h
        mismatches := fun h => absurd phase h
        sampler := takesMode_of_sampler sampler' }

/-- R107: a change of phase writes the extraction controller, the flood states, the valves, the record and the flags. -/
theorem phaseChanged_frame (s : State) : s.phaseChanged = { s with
    extraction := s.phaseChanged.extraction
    flood := s.phaseChanged.flood, valves := s.phaseChanged.valves
    record := s.phaseChanged.record, flags := s.phaseChanged.flags } := by
  have flood (t : State) : t.judgeFlood = { t with
      flood := t.judgeFlood.flood, valves := t.judgeFlood.valves
      record := t.judgeFlood.record, flags := t.judgeFlood.flags } := by unfold State.judgeFlood; rfl
  have before : (s.file .fanPhase (octet s.extraction.phase.code) s.extraction.phaseValue).judgeMismatches.judgeSampler =
      { s with
        extraction := s.phaseChanged.extraction
        record := s.record.file s.clock ⟨.fanPhase, octet s.extraction.phase.code, s.extraction.phaseValue⟩ } := by
    unfold State.judgeSampler
    rfl
  conv_lhs => unfold State.phaseChanged; rw [flood]
  conv_lhs => rw [before]
  rfl

/-- R107: a change of phase brings all that State.phaseEntered lists. -/
theorem phaseChanged_phaseEntered (s : State) : s.phaseEntered s.phaseChanged := by
  have made := phaseChanged_made s
  have pair := judgedPair_eq s
  have flooded := made.flooded s _ _ (.start s s rfl rfl rfl rfl rfl rfl rfl)
  have phase : s.phaseChanged.extraction.phase = s.extraction.phase := by rw [made.fields]
  have cuts (o : Output) : s.floodCuts s.phaseChanged [s.extraction.phase] o ↔
      s.cutAt (fun d => [] ++ [s.floodIn d s.extraction.phase]) o := by
    unfold State.floodCuts State.cutAt
    rw [show s.phaseChanged.floodIn (s.valveSystem o) = s.floodIn (s.valveSystem o) from
      funext fun q => floodIn_keeps made.consumes.stays _ q]
    rfl
  exact
    { frame := by
        conv_lhs => rw [phaseChanged_frame]
        rw [made.fields]
      record := by
        have c := ((file_consumes s .fanPhase (octet s.extraction.phase.code) s.extraction.phaseValue).trans
          ((judgeMismatches_consumes _).trans (judgeSampler_consumes _))).stays
        have p : (s.file .fanPhase (octet s.extraction.phase.code)
            s.extraction.phaseValue).judgeMismatches.judgeSampler.extraction.phase = s.extraction.phase :=
          (judgeMode_extraction ..).2.2.trans (judgeMismatches_extraction _).2.2
        obtain ⟨fs, r, from_, none⟩ := (Flooded.start _ (s.file .fanPhase (octet s.extraction.phase.code)
          s.extraction.phaseValue).judgeMismatches.judgeSampler rfl rfl rfl rfl rfl rfl rfl).judge.files
        refine ⟨fs, fun f m => ?_, r⟩
        rcases from_ f m with k | ⟨o, x, e⟩
        · have y := List.mem_filter (p := fun f : Filing => f.kind == .fanPhase) |>.mpr ⟨m, by rw [k]; rfl⟩
          rw [List.map_eq_nil_iff.mp none] at y
          cases y
        · refine ⟨o, (cuts o).mpr ?_, e⟩
          simp only [inFlood_keeps c, p] at x
          exact x
      contactor := by
        rw [made.fields, pair]
        simp only
        split <;> rfl
      gate := by
        rw [made.fields, pair]
        simp only
        split <;> rfl
      sampler := takesMode_of_sampler made.sampler
      flood := flooded.floodTurns (ps := []) made.consumes.stays (fun _ => rfl) phase
      flags := fun a => by
        rw [flooded.flags]
        simp only [cuts] }

end Sys2Proof.Machine
end

