-- ==== Sys2Proof/Laws/Closing.lean ====
section
/-! SUPPORT. The barriers and the closing queue after an event, in one lemma: judgeBarriers does all that
State.barriersSettle lists (R124, R125, R127 to R131). -/

namespace Sys2Proof.Machine

/-! ## Releases (R124, R125, R127) -/

/-- R124: a barrier is due for release. -/
def State.due (s : State) (o : Output) : Bool :=
  s.operating && (s.role o).isBarrier && (s.barrier o).state == .held && s.releaseHolds o

/-- What a released barrier becomes. -/
def State.releasedBarrier (s : State) (o : Output) : Barrier :=
  let b := { s.barrier o with released := some (.of s.clock) }
  if s.feedback o then b.close
  else if (s.role o).isMotor then b.enqueue
  else { b with state := .closing, travelTimer := some (after s.clock (s.role o).travelMs) }

/-- A released barrier joins the closing queue. -/
def State.joins (s : State) (o : Output) : Bool := !s.feedback o && (s.role o).isMotor

theorem releaseBarrier_barriers (s : State) (o : Output) : (s.releaseBarrier o).barriers =
    { s.barriers with
      units := put s.barriers.units o (s.releasedBarrier o)
      queue := if s.joins o then s.enterQueue o s.barriers.queue else s.barriers.queue } := by
  unfold State.releaseBarrier State.releasedBarrier State.joins
  simp only
  split
  · rename_i h; simp only [h]; rfl
  · rename_i h
    split
    · rename_i m; simp only [h, m]; rfl
    · rename_i m; simp only [h, m]; rfl

theorem releaseBarrier_filed (s : State) (o : Output) (h : s.feedback o = true) :
    (s.releaseBarrier o).record = s.record.file s.clock ⟨.barrierClosed, octet o.val, 0⟩ := by
  unfold State.releaseBarrier
  simp only [h, if_true]
  rfl

theorem releaseBarrier_unfiled (s : State) (o : Output) (h : s.feedback o = false) :
    (s.releaseBarrier o).record = s.record := by
  unfold State.releaseBarrier
  simp only [h, Bool.false_eq_true, if_false]
  split <;> rfl

theorem releaseBarrier_flags (s : State) (o : Output) : (s.releaseBarrier o).flags = s.flags := by
  unfold State.releaseBarrier
  simp only
  split
  · rfl
  · split <;> rfl

/-- What the releases of a list of outputs come to. -/
structure Released (os : List Output) (s t : State) : Prop where
  consumes : Consumes s t
  others : ∀ p, (p ∈ os → s.due p = false) → t.barrier p = s.barrier p
  released : ∀ p ∈ os, s.due p = true → t.barrier p = s.releasedBarrier p
  queue : ∀ p, p ∈ t.barriers.queue ↔ p ∈ s.barriers.queue ∨ (p ∈ os ∧ s.due p = true ∧ s.joins p = true)
  running : t.barriers.running = s.barriers.running
  filed : ∀ p ∈ os, s.due p = true → s.feedback p = true → s.filed t ⟨.barrierClosed, octet p.val, 0⟩
  files : ∃ fs, t.record = s.record.fileAll s.clock fs ∧
    ∀ f ∈ fs, ∃ p ∈ os, s.due p = true ∧ s.feedback p = true ∧ f = ⟨.barrierClosed, octet p.val, 0⟩
  flags : t.flags = s.flags
  joined : t.barriers.queue.Perm (s.barriers.queue ++ os.filter fun p => s.due p && s.joins p)
  stays : s.barriers.queue.Sublist t.barriers.queue

theorem Consumes.releaseHolds {s t : State} (h : Consumes s t) (o : Output) : t.releaseHolds o = s.releaseHolds o := by
  simp only [State.releaseHolds, State.anyZone, State.zoneLevel, h.role, h.zones]

theorem due_same {s t : State} (c : Consumes s t) (o : Output) (h : t.barrier o = s.barrier o) : t.due o = s.due o := by
  unfold State.due
  rw [c.operating, c.role, c.releaseHolds, h]

theorem releasedBarrier_same {s t : State} (c : Consumes s t) (o : Output) (h : t.barrier o = s.barrier o) :
    t.releasedBarrier o = s.releasedBarrier o := by
  unfold State.releasedBarrier State.feedback
  rw [c.clock, c.role, c.inputs, h]

theorem joins_same {s t : State} (c : Consumes s t) (o : Output) : t.joins o = s.joins o := by
  unfold State.joins State.feedback
  rw [c.role, c.inputs]

theorem released_one (s : State) (o : Output) : Released [o] s (s.releaseIfDue o) := by
  have c := releaseIfDue_consumes s o
  have cases : (s.due o = true ∧ s.releaseIfDue o = s.releaseBarrier o) ∨
      (s.due o = false ∧ s.releaseIfDue o = s) := by
    unfold State.releaseIfDue
    split
    · rename_i h; exact .inl ⟨h, rfl⟩
    · rename_i h; exact .inr ⟨by simpa [State.due] using h, rfl⟩
  rcases cases with ⟨d, e⟩ | ⟨d, e⟩
  · rw [e] at c ⊢
    have b := releaseBarrier_barriers s o
    have at_ (p : Output) : (s.releaseBarrier o).barrier p =
        if p = o then s.releasedBarrier o else s.barrier p := by
      simp only [State.barrier, b, Fin.getElem_fin]
      split
      · rename_i h; subst h; exact put_same ..
      · rename_i h; exact put_other _ _ _ _ h
    refine ⟨c, fun p h => ?_, fun p m _ => ?_, fun p => ?_, by rw [b], fun p m _ f => ?_, ?_, ?_, ?_, ?_⟩
    · rw [at_, if_neg]
      rintro rfl
      have := h (List.mem_singleton.mpr rfl)
      rw [d] at this; cases this
    · rw [List.mem_singleton.mp m, at_, if_pos rfl]
    · rw [b]
      simp only
      split
      · rename_i j
        rw [mem_enterQueue]
        constructor
        · rintro (rfl | h)
          · exact .inr ⟨List.mem_singleton.mpr rfl, d, j⟩
          · exact .inl h
        · rintro (h | ⟨m, _⟩)
          · exact .inr h
          · exact .inl (List.mem_singleton.mp m)
      · rename_i j
        constructor
        · exact .inl
        · rintro (h | ⟨m, _, k⟩)
          · exact h
          · rw [List.mem_singleton.mp m] at k; exact absurd k j
    · rw [List.mem_singleton.mp m] at f ⊢
      exact filed_between (Grows.refl s) _ (releaseBarrier_filed s o f) c.clock (Grows.refl _)
    · cases f : s.feedback o with
      | true =>
        refine ⟨[⟨.barrierClosed, octet o.val, 0⟩], releaseBarrier_filed s o f, fun x m => ?_⟩
        exact ⟨o, List.mem_singleton.mpr rfl, d, f, List.mem_singleton.mp m⟩
      | false => exact ⟨[], releaseBarrier_unfiled s o f, fun _ m => (nomatch m)⟩
    · exact releaseBarrier_flags s o
    · rw [b]
      simp only [List.filter_cons, List.filter_nil, d, Bool.true_and]
      cases s.joins o with
      | true =>
        simp only [if_true]
        exact (perm_enterQueue s o _).trans (List.perm_append_comm (l₁ := [o]))
      | false => simp
    · rw [b]
      simp only
      split
      · exact sublist_enterQueue ..
      · exact List.Sublist.refl _
  · rw [e]
    refine ⟨Consumes.refl s, fun _ _ => rfl, fun p m h => ?_, fun p => ?_, rfl, fun p m h => ?_,
      ⟨[], rfl, fun _ m => (nomatch m)⟩, rfl, by simp [d], List.Sublist.refl _⟩
    · rw [List.mem_singleton.mp m, d] at h; cases h
    · constructor
      · exact .inl
      · rintro (h | ⟨m, k, _⟩)
        · exact h
        · rw [List.mem_singleton.mp m, d] at k; cases k
    · rw [List.mem_singleton.mp m, d] at h; cases h

theorem Released.cons {o : Output} {os : List Output} {s t v : State} (hn : o ∉ os) (h : Released [o] s t)
    (h' : Released os t v) : Released (o :: os) s v := by
  have one (p : Output) (m : p ∈ os) : t.barrier p = s.barrier p :=
    h.others p fun k => absurd (List.mem_singleton.mp k ▸ m) hn
  have same (p : Output) (m : p ∈ os) : t.due p = s.due p := due_same h.consumes p (one p m)
  refine ⟨h.consumes.trans h'.consumes, fun p d => ?_, fun p m d => ?_, fun p => ?_, h'.running.trans h.running,
    fun p m d f => ?_, ?_, h'.flags.trans h.flags, ?_, h.stays.trans h'.stays⟩
  · rw [h'.others p fun m => by rw [same p m]; exact d (List.mem_cons_of_mem _ m),
      h.others p fun m => d (List.mem_singleton.mp m ▸ List.mem_cons_self)]
  · rcases List.mem_cons.mp m with rfl | m
    · rw [h'.others p fun k => absurd k hn, h.released p (List.mem_singleton.mpr rfl) d]
    · rw [h'.released p m ((same p m).trans d), releasedBarrier_same h.consumes p (one p m)]
  · rw [h'.queue, h.queue]
    constructor
    · rintro ((q | ⟨m, d, j⟩) | ⟨m, d, j⟩)
      · exact .inl q
      · exact .inr ⟨List.mem_singleton.mp m ▸ List.mem_cons_self, d, j⟩
      · exact .inr ⟨List.mem_cons_of_mem _ m, (same p m).symm.trans d, (joins_same h.consumes p).symm.trans j⟩
    · rintro (q | ⟨m, d, j⟩)
      · exact .inl (.inl q)
      · rcases List.mem_cons.mp m with rfl | m
        · exact .inl (.inr ⟨List.mem_singleton.mpr rfl, d, j⟩)
        · exact .inr ⟨m, (same p m).trans d, (joins_same h.consumes p).trans j⟩
  · rcases List.mem_cons.mp m with rfl | m
    · exact filed_grows (h.filed p (List.mem_singleton.mpr rfl) d f) h'.consumes.toKeeps.grows
    · have f' : t.feedback p = true := by unfold State.feedback; rw [h.consumes.inputs]; exact f
      exact filed_before h.consumes.toKeeps.grows (h'.filed p m ((same p m).trans d) f') h'.consumes.clock
  · obtain ⟨fs, r, x⟩ := h.files
    obtain ⟨gs, r', x'⟩ := h'.files
    refine ⟨fs ++ gs, by rw [r', r, h.consumes.clock, fileAll_append], fun f m => ?_⟩
    rcases List.mem_append.mp m with m | m
    · obtain ⟨p, i, y⟩ := x f m
      exact ⟨p, List.mem_cons.mpr (.inl (List.mem_singleton.mp i)), y⟩
    · obtain ⟨p, i, d, k, y⟩ := x' f m
      refine ⟨p, List.mem_cons_of_mem _ i, (same p i).symm.trans d, ?_, y⟩
      unfold State.feedback at *
      rw [← h.consumes.inputs]; exact k
  · have e : os.filter (fun p => t.due p && t.joins p) = os.filter fun p => s.due p && s.joins p :=
      List.filter_congr fun p m => by rw [same p m, joins_same h.consumes]
    have x := h'.joined
    rw [e] at x
    refine x.trans ((h.joined.append_right _).trans (List.Perm.of_eq ?_))
    rw [List.append_assoc, ← List.filter_append]
    rfl

theorem released_all (os : List Output) (h : os.Nodup) (s : State) :
    Released os s (os.foldl (fun s o => s.releaseIfDue o) s) := by
  induction os generalizing s with
  | nil =>
    exact ⟨Consumes.refl s, fun _ _ => rfl, fun _ m => (nomatch m), fun p => by simp, rfl, fun _ m => (nomatch m),
      ⟨[], rfl, fun _ m => (nomatch m)⟩, rfl, by simp, List.Sublist.refl _⟩
  | cons o os ih =>
    rw [List.nodup_cons] at h
    exact (released_one s o).cons h.1 (ih h.2 _)

/-- R124: what the releases at one instant come to. -/
theorem releaseBarriers_released (s : State) : Released (indexes 4) s s.releaseBarriers :=
  released_all _ (by decide) s

/-! ## Waits and runs (R129, R131) -/

/-- What the judgement of the waits comes to. -/
structure Waited (s t : State) : Prop where
  consumes : Consumes s t
  queue : t.barriers.queue = s.barriers.queue
  running : t.barriers.running = s.barriers.running
  wait : ∀ p, t.barrier p = { s.barrier p with wait := (t.barrier p).wait }
  others : ∀ p, p ∉ s.barriers.queue → t.barrier p = s.barrier p

theorem Waited.refl (s : State) : Waited s s := ⟨Consumes.refl s, rfl, rfl, fun _ => rfl, fun _ _ => rfl⟩

theorem Waited.trans {s t v : State} (h : Waited s t) (h' : Waited t v) : Waited s v where
  consumes := h.consumes.trans h'.consumes
  queue := h'.queue.trans h.queue
  running := h'.running.trans h.running
  wait p := by rw [h'.wait p, h.wait p]
  others p m := (h'.others p (by rw [h.queue]; exact m)).trans (h.others p m)

theorem startWait_waited (s : State) (o : Output) (m : o ∈ s.barriers.queue) : Waited s (s.startWait o) where
  consumes := startWait_consumes s o
  queue := rfl
  running := rfl
  wait p := by
    by_cases e : p = o
    · subst e
      have x : (s.startWait p).barrier p = _ := barrier_put s p _ s.barriers.queue s.barriers.running
      rw [x]
    · have x : (s.startWait o).barrier p = s.barrier p :=
        barrier_put_other s o p _ s.barriers.queue s.barriers.running e
      rw [x]
  others p n := barrier_put_other s o p _ s.barriers.queue s.barriers.running fun e => n (e ▸ m)

theorem judgeWaits_waited (n : Nat) (s : State) : Waited s (s.judgeWaits n) := by
  induction n generalizing s with
  | zero => exact Waited.refl s
  | succ n ih =>
    simp only [State.judgeWaits]
    split
    · exact Waited.refl s
    · rename_i o e
      split
      · exact (startWait_waited s o (List.mem_of_find?_eq_some e)).trans (ih _)
      · exact Waited.refl s

/-- What considering a run comes to: nothing, or the start of one entry of the queue. -/
inductive Considered (s t : State) : Prop where
  | none (same : t = s) (why : s.operating = false ∨ s.barriers.running.isSome = true ∨ s.supply.low = true ∨
      ∀ o ∈ s.barriers.queue, s.mayRun o = false)
  | run (o : Output) (member : o ∈ s.barriers.queue) (operating : s.operating = true) (idle : s.barriers.running = none)
      (supply : s.supply.low = false) (running : t.barriers.running = some o)
      (queue : t.barriers.queue = leaveQueue o s.barriers.queue) (others : ∀ p, p ≠ o → t.barrier p = s.barrier p)
      (state : (t.barrier o).state = .closing) (released : (t.barrier o).released = (s.barrier o).released)

theorem considerRun_considered (s : State) : Considered s s.considerRun := by
  unfold State.considerRun
  split
  · rename_i h
    simp only [Bool.and_eq_true, Bool.not_eq_true', Option.isNone_iff_eq_none] at h
    split
    · rename_i o e
      have at_ : (s.startRun o).barrier o = _ := barrier_put s o _ (leaveQueue o s.barriers.queue) (some o)
      exact .run o (List.mem_of_find?_eq_some e) h.1.1 h.1.2 h.2 rfl rfl
        (fun p n => barrier_put_other s o p _ _ _ n) (by rw [at_]) (by rw [at_])
    · rename_i e
      refine .none rfl (.inr (.inr (.inr fun o m => ?_)))
      have := List.find?_eq_none.mp e o m
      simpa using this
  · rename_i h
    refine .none rfl ?_
    cases a : s.operating <;> cases b : s.barriers.running <;> cases c : s.supply.low <;> simp_all

/-! ## The queue considered (R129, R131) -/

theorem judgeWaits_frame (n : Nat) (s : State) : s.judgeWaits n = { s with barriers := (s.judgeWaits n).barriers } := by
  induction n generalizing s with
  | zero => rfl
  | succ n ih =>
    simp only [State.judgeWaits]
    split
    · rfl
    · split
      · exact ih (s.startWait _)
      · rfl

theorem considerRun_frame (s : State) : s.considerRun = { s with barriers := s.considerRun.barriers } := by
  unfold State.considerRun
  split
  · split <;> rfl
  · rfl

/-- R129, R131: considering the queue changes the barrier controller alone. -/
theorem considerQueue_frame (s : State) : s.considerQueue = { s with barriers := s.considerQueue.barriers } := by
  unfold State.considerQueue
  have frame := considerRun_frame (s.judgeWaits 4)
  generalize (s.judgeWaits 4).considerRun = t at frame ⊢
  rw [frame, judgeWaits_frame 4 s]

/-- R130: permission reads of the barriers only whether the entry's wait has expired. -/
theorem mayRun_wait (s : State) (b : Barriers) (o : Output)
    (h : (b.units[o].wait == .expired) = ((s.barrier o).wait == .expired)) :
    ({ s with barriers := b } : State).mayRun o = s.mayRun o := by
  unfold State.mayRun
  have e : ((({ s with barriers := b } : State).barrier o).wait == .expired) = ((s.barrier o).wait == .expired) := h
  simp only [e]
  rfl

/-- R130: an entry that may not run has no expired wait, and may run once it has. -/
theorem mayRun_expired (s : State) (o : Output) (h : (s.barrier o).wait = .expired) : s.mayRun o = true := by
  unfold State.mayRun
  split
  · rw [h]; simp
  · rfl

theorem startWait_at (s : State) (o p : Output) : (s.startWait o).barrier p =
    if p = o then { s.barrier o with
      wait := if s.setup.damperWait = 0 then .expired else .running (after s.clock (s.setup.damperWait * 1000)) }
    else s.barrier p := by
  split
  · rename_i e; subst e; exact barrier_put s p _ s.barriers.queue s.barriers.running
  · rename_i e; exact barrier_put_other s o p _ s.barriers.queue s.barriers.running e

theorem startWait_mayRun (s : State) (o p : Output) (e : p ≠ o) : (s.startWait o).mayRun p = s.mayRun p :=
  mayRun_wait s _ p (congrArg (fun b : Barrier => b.wait == .expired) ((startWait_at s o p).trans (if_neg e)))

/-- R131: the first entry that is not permitted. -/
theorem firstHeld_iff (s : State) (o : Output) : (s.barriers.queue.find? fun p => !s.mayRun p) = some o ↔
    s.mayRun o = false ∧ ∃ before behind, s.barriers.queue = before ++ o :: behind ∧ ∀ p ∈ before, s.mayRun p = true := by
  rw [List.find?_eq_some_iff_append]
  simp only [Bool.not_eq_true', Bool.not_not]

/-- R131: with a wait that lasts, one wait at most starts. -/
theorem judgeWaits_runs (n : Nat) (s : State) (hd : s.setup.damperWait ≠ 0) (o : Output) :
    (s.waitStarts s.barriers o →
      ((s.judgeWaits (n + 1)).barrier o).wait = .running (after s.clock (s.setup.damperWait * 1000))) ∧
    (¬s.waitStarts s.barriers o → ((s.judgeWaits (n + 1)).barrier o).wait = (s.barrier o).wait) := by
  have starts : s.waitStarts s.barriers o ↔
      (s.barriers.queue.find? fun p => !s.mayRun p) = some o ∧ (s.barrier o).wait = .idle := by
    rw [firstHeld_iff]
    constructor
    · rintro ⟨before, behind, q, m, w, b⟩
      exact ⟨⟨m, before, behind, q, fun p i => (b p i).resolve_right fun x => hd x.1⟩, w⟩
    · rintro ⟨⟨m, before, behind, q, b⟩, w⟩
      exact ⟨before, behind, q, m, w, fun p i => .inl (b p i)⟩
  rw [starts]
  simp only [State.judgeWaits]
  split
  · rename_i none
    exact ⟨fun x => absurd (none.symm.trans x.1) (fun h => nomatch h), fun _ => rfl⟩
  · rename_i p first
    split
    · rename_i idle
      have stop : (s.startWait p).judgeWaits n = s.startWait p := by
        cases n with
        | zero => rfl
        | succ n =>
          have same (x : Output) : (s.startWait p).mayRun x = s.mayRun x := by
            by_cases e : x = p
            · subst e
              refine mayRun_wait s _ x ?_
              refine (congrArg (fun b : Barrier => b.wait == .expired) ((startWait_at s x x).trans (if_pos rfl))).trans ?_
              rw [idle, if_neg hd]
              rfl
            · exact startWait_mayRun s p x e
          have first' : ((s.startWait p).barriers.queue.find? fun x => !(s.startWait p).mayRun x) = some p := by
            simp only [same]; exact first
          simp only [State.judgeWaits, first']
          rw [if_neg]
          rw [startWait_at, if_pos rfl, if_neg hd]
          exact fun h => nomatch h
      rw [stop, startWait_at]
      constructor
      · rintro ⟨x, _⟩
        rw [first] at x
        obtain rfl := Option.some.inj x
        rw [if_pos rfl, if_neg hd]
      · intro x
        rw [if_neg]
        rintro rfl
        exact x ⟨first, idle⟩
    · rename_i busy
      refine ⟨fun x => ?_, fun _ => rfl⟩
      rw [first] at x
      obtain ⟨e, w⟩ := x
      obtain rfl := Option.some.inj e
      exact absurd w busy

/-- R131: waits of 0 start and expire one after the other; xs are the entries permitted so far. -/
theorem judgeWaits_expires (n : Nat) (s : State) (hd : s.setup.damperWait = 0) (xs : List Output) (nodup : xs.Nodup)
    (count : xs.length + n = 4) (permitted : ∀ p ∈ xs, s.mayRun p = true) (o : Output) :
    (s.waitStarts s.barriers o → ((s.judgeWaits n).barrier o).wait = .expired) ∧
    (¬s.waitStarts s.barriers o → ((s.judgeWaits n).barrier o).wait = (s.barrier o).wait) := by
  induction n generalizing s xs with
  | zero =>
    refine ⟨fun x => ?_, fun _ => rfl⟩
    obtain ⟨_, _, _, m, _⟩ := x
    have all : xs.toFinset = Finset.univ :=
      Finset.eq_univ_of_card _ (by rw [List.toFinset_card_of_nodup nodup]; simpa using count)
    have m' : s.mayRun o = true := permitted o (List.mem_toFinset.mp (all ▸ Finset.mem_univ o))
    rw [show s.mayRunIn s.barriers o = s.mayRun o from rfl, m'] at m
    cases m
  | succ n ih =>
    simp only [State.judgeWaits]
    split
    · rename_i none
      refine ⟨fun x => ?_, fun _ => rfl⟩
      obtain ⟨before, behind, q, m, _⟩ := x
      have i : o ∈ s.barriers.queue := by rw [q]; simp
      have k := List.find?_eq_none.mp none o i
      rw [show s.mayRunIn s.barriers o = s.mayRun o from rfl] at m
      rw [m] at k
      exact absurd rfl k
    · rename_i p first
      obtain ⟨mp, before, behind, q, open_⟩ := (firstHeld_iff s p).mp first
      split
      · rename_i idle
        have new : (s.startWait p).mayRun p = true :=
          mayRun_expired _ _ (by rw [startWait_at, if_pos rfl, if_pos hd])
        have old (x : Output) (e : x ≠ p) := startWait_mayRun s p x e
        have fresh : p ∉ xs := fun i => by rw [permitted p i] at mp; cases mp
        have next := ih (s.startWait p) hd (p :: xs) (List.nodup_cons.mpr ⟨fresh, nodup⟩)
          (by simp only [List.length_cons]; omega) fun x i => by
            rcases List.mem_cons.mp i with rfl | i
            · exact new
            · rw [old x fun e => fresh (e ▸ i)]; exact permitted x i
        by_cases e : o = p
        · subst e
          have self : s.waitStarts s.barriers o := ⟨before, behind, q, mp, idle, fun x i => .inl (open_ x i)⟩
          have no : ¬(s.startWait o).waitStarts (s.startWait o).barriers o := fun ⟨_, _, _, m, _⟩ => by
            rw [show (s.startWait o).mayRunIn (s.startWait o).barriers o = (s.startWait o).mayRun o from rfl, new] at m
            cases m
          refine ⟨fun _ => ?_, fun x => absurd self x⟩
          rw [next.2 no, startWait_at, if_pos rfl, if_pos hd]
        · have at_ : (s.startWait p).barrier o = s.barrier o := (startWait_at s p o).trans (if_neg e)
          have same : (s.startWait p).waitStarts (s.startWait p).barriers o ↔ s.waitStarts s.barriers o := by
            have may (x : Output) : (s.startWait p).mayRunIn (s.startWait p).barriers x = (s.startWait p).mayRun x := rfl
            have may' (x : Output) : s.mayRunIn s.barriers x = s.mayRun x := rfl
            have wait (x : Output) (e : x ≠ p) : (s.startWait p).barriers.units[x].wait = s.barriers.units[x].wait :=
              congrArg Barrier.wait ((startWait_at s p x).trans (if_neg e))
            unfold State.waitStarts
            simp only [may, may', old o e, wait o e]
            refine exists_congr fun xs => exists_congr fun ys => and_congr_right fun _ => and_congr_right fun _ =>
              and_congr_right fun _ => forall₂_congr fun x _ => ?_
            by_cases k : x = p
            · subst k
              exact ⟨fun _ => .inr ⟨hd, idle⟩, fun _ => .inl new⟩
            · rw [old x k, wait x k]; rfl
          rw [same, at_] at next
          exact next
      · rename_i busy
        refine ⟨fun x => ?_, fun _ => rfl⟩
        obtain ⟨xs', ys', q', m, w, b⟩ := x
        have ne : o ≠ p := fun e => busy (e ▸ w)
        have i : p ∈ xs' := by
          by_contra i
          rw [q] at q'
          rcases List.append_eq_append_iff.mp q' with ⟨as, rfl, e⟩ | ⟨bs, rfl, e⟩
          · cases as with
            | nil =>
              simp only [List.nil_append, List.cons.injEq] at e
              exact ne e.1.symm
            | cons a as =>
              simp only [List.cons_append, List.cons.injEq] at e
              exact i (by rw [e.1]; simp)
          · cases bs with
            | nil =>
              simp only [List.nil_append, List.cons.injEq] at e
              exact ne e.1
            | cons a bs =>
              simp only [List.cons_append, List.cons.injEq] at e
              have y := open_ o (by rw [e.1]; simp)
              rw [show s.mayRunIn s.barriers o = s.mayRun o from rfl, y] at m
              cases m
        rcases b p i with k | ⟨_, k⟩
        · rw [show s.mayRunIn s.barriers p = s.mayRun p from rfl, mp] at k
          cases k
        · exact absurd k busy

/-- R131: which waits start, and what they become. -/
theorem judgeWaits_waits (s : State) (o : Output) :
    (s.waitStarts s.barriers o → ((s.judgeWaits 4).barrier o).wait =
      if s.setup.damperWait = 0 then .expired else .running (after s.clock (s.setup.damperWait * 1000))) ∧
    (¬s.waitStarts s.barriers o → ((s.judgeWaits 4).barrier o).wait = (s.barrier o).wait) := by
  by_cases hd : s.setup.damperWait = 0
  · rw [if_pos hd]
    exact judgeWaits_expires 4 s hd [] List.nodup_nil rfl (fun _ m => (nomatch m)) o
  · rw [if_neg hd]
    exact judgeWaits_runs 3 s hd o

theorem startRun_at (s : State) (o p : Output) : (s.startRun o).barrier p =
    if p = o then { s.barrier o with
      state := .closing
      run := some (s.clock, after s.clock ((s.barrier o).kept.getD (s.role o).travelMs))
      kept := none
      attempts := if (s.barrier o).kept.isSome then (s.barrier o).attempts else (s.barrier o).attempts + 1 }
    else s.barrier p := by
  split
  · rename_i e; subst e
    refine (barrier_put s p _ (leaveQueue p s.barriers.queue) (some p)).trans ?_
    cases (s.barrier p).kept <;> rfl
  · rename_i e; exact barrier_put_other s o p _ _ _ e

/-- R129: a run considered leaves every wait, and so every permission, as it stands. -/
theorem considerRun_mayRun (s : State) (o : Output) : (s.considerRun.barrier o).wait = (s.barrier o).wait ∧
    s.considerRun.mayRun o = s.mayRun o := by
  have wait : (s.considerRun.barrier o).wait = (s.barrier o).wait := by
    unfold State.considerRun
    split
    · split
      · rw [startRun_at]
        split
        · rename_i e; subst e; rfl
        · rfl
      · rfl
    · rfl
  refine ⟨wait, ?_⟩
  rw [considerRun_frame]
  exact mayRun_wait s _ o (congrArg (· == DamperWait.expired) wait)

/-- R129, R131: what considering the queue comes to, whole. -/
theorem considerQueue_considers (s : State) : s.considerQueue.considers s.barriers := by
  have frame := considerQueue_frame s
  have starts (o : Output) : s.considerQueue.waitStarts s.barriers o ↔ s.waitStarts s.barriers o := by
    rw [frame]; exact Iff.rfl
  have wait (o : Output) := judgeWaits_waits s o
  have waited := judgeWaits_waited 4 s
  have may (o : Output) := considerRun_mayRun (s.judgeWaits 4) o
  have e : s.considerQueue = (s.judgeWaits 4).considerRun := rfl
  have still (o : Output) : (s.judgeWaits 4).barrier o =
      { s.barriers.units[o] with wait := ((s.judgeWaits 4).barrier o).wait } := waited.wait o
  refine ⟨fun o h => ?_, fun o h => ?_, fun before behind o op idle low q no yes => ?_, fun why => ?_⟩
  · rw [e, (may o).1, (wait o).1 ((starts o).mp h), ← e, frame]
  · rw [e, (may o).1, (wait o).2 fun x => h ((starts o).mpr x)]
    rfl
  · have op' : (s.judgeWaits 4).operating = true := by rw [frame] at op; rw [judgeWaits_frame]; exact op
    have low' : (s.judgeWaits 4).supply.low = false := by rw [frame] at low; rw [judgeWaits_frame]; exact low
    have go : (s.judgeWaits 4).barriers.queue.find? (s.judgeWaits 4).mayRun = some o := by
      rw [waited.queue, List.find?_eq_some_iff_append]
      refine ⟨by rw [← (may o).2]; exact yes, before, behind, q, fun p m => ?_⟩
      rw [← (may p).2, ← e, no p m]
      rfl
    have run : s.considerQueue = (s.judgeWaits 4).startRun o := by
      rw [e]
      unfold State.considerRun
      rw [op', waited.running, idle, low', go]
      rfl
    have at_ (p : Output) := startRun_at (s.judgeWaits 4) o p
    rw [run]
    refine ⟨rfl, ?_, ?_, fun p n => ?_⟩
    · show leaveQueue o (s.judgeWaits 4).barriers.queue = _
      rw [waited.queue]
      rfl
    · rw [at_ o, if_pos rfl, still o]
      rw [judgeWaits_frame]
      rfl
    · rw [at_ p, if_neg n]
      exact still p
  · have same : s.considerQueue = s.judgeWaits 4 := by
      have find : (s.judgeWaits 4).operating = true → (s.judgeWaits 4).barriers.running = none →
          (s.judgeWaits 4).supply.low = false → (s.judgeWaits 4).barriers.queue.find? (s.judgeWaits 4).mayRun = none := by
        intro op idle low
        rw [waited.running] at idle
        rw [List.find?_eq_none, waited.queue]
        intro o m
        rcases why with h | h | h | h
        · rw [frame] at h; rw [judgeWaits_frame] at op; exact absurd (op.symm.trans h) (by decide)
        · exact absurd idle h
        · rw [frame] at h; rw [judgeWaits_frame] at low; exact absurd (low.symm.trans h) (by decide)
        · rw [← (may o).2, ← e, h o m]; decide
      rw [e]
      unfold State.considerRun
      split
      · rename_i h
        simp only [Bool.and_eq_true, Bool.not_eq_true', Option.isNone_iff_eq_none] at h
        rw [find h.1.1 h.1.2 h.2]
      · rfl
    rw [same]
    exact ⟨waited.running, waited.queue, still⟩

/-- What the barriers and the closing queue come to after an event. -/
theorem judgeBarriers_barriersSettle (s : State) : s.barriersSettle s.judgeBarriers := by
  have all := judgeBarriers_consumes s
  have a := releaseBarriers_released s
  have b := judgeWaits_waited 4 s.releaseBarriers
  have c := considerRun_considered (s.releaseBarriers.judgeWaits 4)
  have e : s.judgeBarriers = (s.releaseBarriers.judgeWaits 4).considerRun := rfl
  have last := considerRun_consumes (s.releaseBarriers.judgeWaits 4)
  have considered := considerQueue_considers s.releaseBarriers
  unfold State.considerQueue at considered
  rw [e] at all ⊢
  generalize s.releaseBarriers = r at a b c last all considered ⊢
  generalize r.judgeWaits 4 = w at b c last all considered ⊢
  generalize w.considerRun = t at c last all considered ⊢
  have due (o : Output) : s.due o = (t.operating && (t.role o).isBarrier && (s.barrier o).state == .held && t.releaseHolds o) := by
    unfold State.due
    rw [all.operating, all.role, all.releaseHolds]
  have kept (o : Output) (m : o ∉ w.barriers.queue) : t.barrier o = w.barrier o := by
    cases c with
    | none same => rw [same]
    | run p member _ _ _ _ _ others => exact others o fun h => m (h ▸ member)
  have queued (o : Output) (m : o ∈ w.barriers.queue) : o ∈ t.barriers.queue ∨ t.barriers.running = some o := by
    cases c with
    | none same => rw [same]; exact .inl m
    | run p member _ _ _ running queue others =>
      by_cases h : o = p
      · rw [running, h]; exact .inr rfl
      · rw [queue]; exact .inl ((mem_leaveQueue ..).mpr ⟨m, h⟩)
  have stays (o : Output) (m : o ∈ t.barriers.queue) : o ∈ w.barriers.queue ∧ t.barrier o = w.barrier o := by
    cases c with
    | none same => rw [same] at m ⊢; exact ⟨m, rfl⟩
    | run p member _ _ _ running queue others =>
      rw [queue, mem_leaveQueue] at m
      exact ⟨m.1, others o m.2⟩
  have plain (o : Output) (n : o ∉ s.barriers.queue) (d : s.due o = false ∨ s.joins o = false) :
      t.barrier o = r.barrier o := by
    have m : o ∉ r.barriers.queue := by
      rw [a.queue]
      rintro (h | ⟨_, h, k⟩)
      · exact n h
      · rcases d with d | d
        · rw [d] at h; cases h
        · rw [d] at k; cases k
    rw [kept o (by rw [b.queue]; exact m), b.others o m]
  refine
    { stand := fun o n why => ?_
      release := fun o n op br held holds => ?_
      queue := fun o m => queued o (by rw [b.queue, a.queue]; exact .inl m)
      fresh := fun o m => ?_
      waiting := fun o m n => ?_
      running := fun o h => ?_
      started := fun h => ?_
      turn := fun op run low o m => ?_
      released := fun op o br held => ?_
      whole := ?_ }
  · have d : s.due o = false := by
      rw [due]
      rcases why with h | h | h | h <;> simp [h]
    rw [plain o n (.inl d), a.others o fun _ => d]
  · have d : s.due o = true := by rw [due]; simp [op, br, held, holds]
    have rel := a.released o (mem_indexes o) d
    refine ⟨fun f => ⟨?_, ?_⟩, fun f m => ?_, fun f m => ?_⟩
    · rw [plain o n (.inr (by simp [State.joins, f])), rel]
      unfold State.releasedBarrier
      rw [if_pos f]
      rfl
    · exact filed_grows (a.filed o (mem_indexes o) d f) (b.consumes.trans last).toKeeps.grows
    · rw [all.role] at m
      rw [plain o n (.inr (by simp [State.joins, m])), rel, all.role]
      unfold State.releasedBarrier
      rw [if_neg (by rw [f]; exact Bool.false_ne_true), if_neg (by rw [m]; exact Bool.false_ne_true)]
      rfl
    · rw [all.role] at m
      have j : o ∈ w.barriers.queue := by
        rw [b.queue, a.queue]
        exact .inr ⟨mem_indexes o, d, by simp [State.joins, f, m]⟩
      have was : w.barrier o = { ({ s.barrier o with released := some (.of s.clock) } : Barrier).enqueue with
          wait := (w.barrier o).wait } := by
        rw [b.wait o, rel]
        unfold State.releasedBarrier
        rw [if_neg (by rw [f]; exact Bool.false_ne_true), if_pos m]
      cases c with
      | none same =>
        rw [same]
        exact ⟨by rw [was]; rfl, .inl ⟨by rw [was]; rfl, j⟩⟩
      | run p member _ _ _ running queue others state released =>
        by_cases h : o = p
        · subst h
          exact ⟨by rw [released, was]; rfl, .inr ⟨state, running⟩⟩
        · rw [others o h, queue, mem_leaveQueue]
          exact ⟨by rw [was]; rfl, .inl ⟨by rw [was]; rfl, j, h⟩⟩
  · have x := (stays o m).1
    rw [b.queue, a.queue] at x
    refine x.imp id fun y => ?_
    have d := y.2.1
    unfold State.due at d
    simp only [Bool.and_eq_true, beq_iff_eq] at d
    exact d.1.2
  · have d : s.due o = false := by
      unfold State.due
      simp [n]
    rw [(stays o m).2, b.wait o, a.others o fun _ => d]
  · cases c with
    | none same => rw [same, b.running, a.running, h]
    | run p _ _ idle => rw [b.running, a.running, h] at idle; cases idle
  · cases c with
    | none same => rw [same, b.running, a.running] at h; exact absurd rfl h
    | run p _ op _ low =>
      refine ⟨last.operating.trans op, ?_⟩
      have e : t.supply = w.supply := (congrArg State.supply last.apart : t.apart.supply = w.apart.supply)
      rw [e]; exact low
  · cases c with
    | none same why =>
      rw [same] at op run low m ⊢
      rcases why with h | h | h | h
      · rw [op] at h; cases h
      · rw [run] at h; cases h
      · rw [low] at h; cases h
      · exact h o m
    | run p _ _ _ _ running => rw [running] at run; cases run
  · cases holds : t.releaseHolds o with
    | false => rfl
    | true =>
      exfalso
      have still : (w.barrier o).state = .held := by
        cases c with
        | none same => rw [same] at held; exact held
        | run p member _ _ _ running queue others state =>
          by_cases h : o = p
          · subst h; rw [state] at held; cases held
          · rw [others o h] at held; exact held
      have still : (r.barrier o).state = .held := by rw [b.wait o] at still; exact still
      cases d : s.due o with
      | false =>
        rw [a.others o fun _ => d] at still
        rw [due, op, br, still, holds] at d
        cases d
      | true =>
        rw [a.released o (mem_indexes o) d] at still
        unfold State.releasedBarrier at still
        simp only at still
        split at still
        · cases still
        · split at still <;> cases still
  · have role : t.role = s.role := funext all.role
    have rel (o : Output) : s.releaseDue t o = s.due o := (due o).symm
    refine ⟨r.barriers, ⟨fun o => ?_, a.running, ?_, a.stays, fun m => ?_⟩, considered⟩
    · rw [rel]
      split
      · rename_i d
        rw [show r.barriers.units[o] = r.barrier o from rfl, a.released o (mem_indexes o) d, role]
        unfold State.releasedBarrier
        split
        · rfl
        · split <;> rfl
      · rename_i d
        exact a.others o fun _ => Bool.eq_false_iff.mpr d
    · refine a.joined.trans (List.Perm.of_eq (congrArg _ (List.filter_congr fun o _ => ?_)))
      rw [rel, role]
      unfold State.joins
      rw [Bool.and_assoc]
    · have order := (a.consumes.motors m).order
      unfold State.queueInOrder at order ⊢
      rw [role, ← show r.role = s.role from funext a.consumes.role]
      exact order

end Sys2Proof.Machine
end

