-- ==== Sys2Proof/Laws/PerInstr.lean ====
section
/-! SUPPORT. Statements about every command, one lemma for each constructor of Instr. -/

namespace Sys2Proof.Laws.Timing

/-- A command names the clock reading at which it is taken, and POWER_ON alone, which starts the clock, does not. -/
def Statement (c : Instr) : Prop := c.clockOf = none ↔ c = .powerOn

theorem powerOn : Statement .powerOn := ⟨fun _ => rfl, fun _ => rfl⟩
theorem imageReadFailed (now : Time) : Statement (.imageReadFailed now) :=
  ⟨fun h => (nomatch h), fun h => (nomatch h)⟩
theorem imageReadRetry (now : Time) : Statement (.imageReadRetry now) :=
  ⟨fun h => (nomatch h), fun h => (nomatch h)⟩
theorem imageReadComplete (now : Time) (image : List Byte) : Statement (.imageReadComplete now image) :=
  ⟨fun h => (nomatch h), fun h => (nomatch h)⟩
theorem listenEnd (now : Time) : Statement (.listenEnd now) :=
  ⟨fun h => (nomatch h), fun h => (nomatch h)⟩
theorem settleEnd (now : Time) : Statement (.settleEnd now) :=
  ⟨fun h => (nomatch h), fun h => (nomatch h)⟩
theorem attemptStart (now : Time) (line : Line) : Statement (.attemptStart now line) :=
  ⟨fun h => (nomatch h), fun h => (nomatch h)⟩
theorem contentionLost (now : Time) (line : Line) : Statement (.contentionLost now line) :=
  ⟨fun h => (nomatch h), fun h => (nomatch h)⟩
theorem txError (now : Time) (place : LineBit) : Statement (.txError now place) :=
  ⟨fun h => (nomatch h), fun h => (nomatch h)⟩
theorem attemptSuccess (now : Time) (line : Line) : Statement (.attemptSuccess now line) :=
  ⟨fun h => (nomatch h), fun h => (nomatch h)⟩
theorem probeTimerExpiry (now : Time) (line : Line) : Statement (.probeTimerExpiry now line) :=
  ⟨fun h => (nomatch h), fun h => (nomatch h)⟩
theorem stateRoundHoldClear (now : Time) (line : Line) : Statement (.stateRoundHoldClear now line) :=
  ⟨fun h => (nomatch h), fun h => (nomatch h)⟩
theorem stateIntervalExpiry (now : Time) : Statement (.stateIntervalExpiry now) :=
  ⟨fun h => (nomatch h), fun h => (nomatch h)⟩
theorem receiveFramingError (now : Time) (line : Line) : Statement (.receiveFramingError now line) :=
  ⟨fun h => (nomatch h), fun h => (nomatch h)⟩
theorem noticeLengthError (now : Time) (line : Line) (length : Byte) : Statement (.noticeLengthError now line length) :=
  ⟨fun h => (nomatch h), fun h => (nomatch h)⟩
theorem callNotice (now : Time) (line : Line) (rx : Received) : Statement (.callNotice now line rx) :=
  ⟨fun h => (nomatch h), fun h => (nomatch h)⟩
theorem sparkNotice (now : Time) (line : Line) (rx : Received) : Statement (.sparkNotice now line rx) :=
  ⟨fun h => (nomatch h), fun h => (nomatch h)⟩
theorem keyNotice (now : Time) (line : Line) (rx : Received) : Statement (.keyNotice now line rx) :=
  ⟨fun h => (nomatch h), fun h => (nomatch h)⟩
theorem stateNotice (now : Time) (line : Line) (rx : Received) : Statement (.stateNotice now line rx) :=
  ⟨fun h => (nomatch h), fun h => (nomatch h)⟩
theorem lineQuiet (now : Time) (line : Line) : Statement (.lineQuiet now line) :=
  ⟨fun h => (nomatch h), fun h => (nomatch h)⟩
theorem peerLost (now : Time) (peer : Station) : Statement (.peerLost now peer) :=
  ⟨fun h => (nomatch h), fun h => (nomatch h)⟩
theorem singleLine (now : Time) (peer : Station) : Statement (.singleLine now peer) :=
  ⟨fun h => (nomatch h), fun h => (nomatch h)⟩
theorem callPress (now : Time) : Statement (.callPress now) :=
  ⟨fun h => (nomatch h), fun h => (nomatch h)⟩
theorem callRelease (now : Time) : Statement (.callRelease now) :=
  ⟨fun h => (nomatch h), fun h => (nomatch h)⟩
theorem heatInputChange (now : Time) (active : Bool) : Statement (.heatInputChange now active) :=
  ⟨fun h => (nomatch h), fun h => (nomatch h)⟩
theorem silencePress (now : Time) : Statement (.silencePress now) :=
  ⟨fun h => (nomatch h), fun h => (nomatch h)⟩
theorem resetPress (now : Time) : Statement (.resetPress now) :=
  ⟨fun h => (nomatch h), fun h => (nomatch h)⟩
theorem startPress (now : Time) : Statement (.startPress now) :=
  ⟨fun h => (nomatch h), fun h => (nomatch h)⟩
theorem stopPress (now : Time) : Statement (.stopPress now) :=
  ⟨fun h => (nomatch h), fun h => (nomatch h)⟩
theorem sensorPulseStart (now : Time) (channel : Channel) : Statement (.sensorPulseStart now channel) :=
  ⟨fun h => (nomatch h), fun h => (nomatch h)⟩
theorem sensorPulseEnd (now : Time) (channel : Channel) (width : Nat) : Statement (.sensorPulseEnd now channel width) :=
  ⟨fun h => (nomatch h), fun h => (nomatch h)⟩
theorem blinded (now : Time) (channel : Channel) : Statement (.blinded now channel) :=
  ⟨fun h => (nomatch h), fun h => (nomatch h)⟩
theorem blindedClear (now : Time) (channel : Channel) : Statement (.blindedClear now channel) :=
  ⟨fun h => (nomatch h), fun h => (nomatch h)⟩
theorem bucketBoundary (now : Time) : Statement (.bucketBoundary now) :=
  ⟨fun h => (nomatch h), fun h => (nomatch h)⟩
theorem escalated (now : Time) : Statement (.escalated now) :=
  ⟨fun h => (nomatch h), fun h => (nomatch h)⟩
theorem watchHoldExpiry (now : Time) : Statement (.watchHoldExpiry now) :=
  ⟨fun h => (nomatch h), fun h => (nomatch h)⟩
theorem silent (now : Time) (channel : Channel) : Statement (.silent now channel) :=
  ⟨fun h => (nomatch h), fun h => (nomatch h)⟩
theorem windowOpen (now : Time) (output : Output) : Statement (.windowOpen now output) :=
  ⟨fun h => (nomatch h), fun h => (nomatch h)⟩
theorem windowClose (now : Time) (output : Output) : Statement (.windowClose now output) :=
  ⟨fun h => (nomatch h), fun h => (nomatch h)⟩
theorem flowSwitchChange (now : Time) (output : Output) (active : Bool) :
    Statement (.flowSwitchChange now output active) :=
  ⟨fun h => (nomatch h), fun h => (nomatch h)⟩
theorem confirmTimerExpiry (now : Time) (output : Output) : Statement (.confirmTimerExpiry now output) :=
  ⟨fun h => (nomatch h), fun h => (nomatch h)⟩
theorem cutOff (now : Time) (output : Output) : Statement (.cutOff now output) :=
  ⟨fun h => (nomatch h), fun h => (nomatch h)⟩
theorem valveStuck (now : Time) (output : Output) : Statement (.valveStuck now output) :=
  ⟨fun h => (nomatch h), fun h => (nomatch h)⟩
theorem flowPulse (now : Time) : Statement (.flowPulse now) :=
  ⟨fun h => (nomatch h), fun h => (nomatch h)⟩
theorem sampleComplete (now : Time) : Statement (.sampleComplete now) :=
  ⟨fun h => (nomatch h), fun h => (nomatch h)⟩
theorem periodicWindowStart (now : Time) : Statement (.periodicWindowStart now) :=
  ⟨fun h => (nomatch h), fun h => (nomatch h)⟩
theorem startGraceExpiry (now : Time) : Statement (.startGraceExpiry now) :=
  ⟨fun h => (nomatch h), fun h => (nomatch h)⟩
theorem gateFeedbackChange (now : Time) (active : Bool) : Statement (.gateFeedbackChange now active) :=
  ⟨fun h => (nomatch h), fun h => (nomatch h)⟩
theorem gateTimerExpiry (now : Time) : Statement (.gateTimerExpiry now) :=
  ⟨fun h => (nomatch h), fun h => (nomatch h)⟩
theorem rundownLimitExpiry (now : Time) : Statement (.rundownLimitExpiry now) :=
  ⟨fun h => (nomatch h), fun h => (nomatch h)⟩
theorem runningContactChange (now : Time) (active : Bool) : Statement (.runningContactChange now active) :=
  ⟨fun h => (nomatch h), fun h => (nomatch h)⟩
theorem contactorMismatch (now : Time) : Statement (.contactorMismatch now) :=
  ⟨fun h => (nomatch h), fun h => (nomatch h)⟩
theorem gateMismatch (now : Time) : Statement (.gateMismatch now) :=
  ⟨fun h => (nomatch h), fun h => (nomatch h)⟩
theorem barrierFeedbackChange (now : Time) (output : Output) (active : Bool) :
    Statement (.barrierFeedbackChange now output active) :=
  ⟨fun h => (nomatch h), fun h => (nomatch h)⟩
theorem travelTimerExpiry (now : Time) (output : Output) : Statement (.travelTimerExpiry now output) :=
  ⟨fun h => (nomatch h), fun h => (nomatch h)⟩
theorem travelExhausted (now : Time) (output : Output) : Statement (.travelExhausted now output) :=
  ⟨fun h => (nomatch h), fun h => (nomatch h)⟩
theorem damperWaitExpiry (now : Time) (output : Output) : Statement (.damperWaitExpiry now output) :=
  ⟨fun h => (nomatch h), fun h => (nomatch h)⟩
theorem sirenFeedbackChange (now : Time) (output : Output) (active : Bool) :
    Statement (.sirenFeedbackChange now output active) :=
  ⟨fun h => (nomatch h), fun h => (nomatch h)⟩
theorem sirenFault (now : Time) (output : Output) : Statement (.sirenFault now output) :=
  ⟨fun h => (nomatch h), fun h => (nomatch h)⟩
theorem cadenceLevelChange (now : Time) : Statement (.cadenceLevelChange now) :=
  ⟨fun h => (nomatch h), fun h => (nomatch h)⟩
theorem resoundTimerExpiry (now : Time) : Statement (.resoundTimerExpiry now) :=
  ⟨fun h => (nomatch h), fun h => (nomatch h)⟩
theorem allClearEnd (now : Time) (output : Output) : Statement (.allClearEnd now output) :=
  ⟨fun h => (nomatch h), fun h => (nomatch h)⟩
theorem supplySample (now : Time) (millivolts : Nat) : Statement (.supplySample now millivolts) :=
  ⟨fun h => (nomatch h), fun h => (nomatch h)⟩
theorem status (now : Time) (argument : Byte) : Statement (.status now argument) :=
  ⟨fun h => (nomatch h), fun h => (nomatch h)⟩
theorem zones (now : Time) (argument : Byte) : Statement (.zones now argument) :=
  ⟨fun h => (nomatch h), fun h => (nomatch h)⟩
theorem peer (now : Time) (argument : Byte) : Statement (.peer now argument) :=
  ⟨fun h => (nomatch h), fun h => (nomatch h)⟩
theorem valve (now : Time) (argument : Byte) : Statement (.valve now argument) :=
  ⟨fun h => (nomatch h), fun h => (nomatch h)⟩
theorem barriers (now : Time) (argument : Byte) : Statement (.barriers now argument) :=
  ⟨fun h => (nomatch h), fun h => (nomatch h)⟩
theorem sirens (now : Time) (argument : Byte) : Statement (.sirens now argument) :=
  ⟨fun h => (nomatch h), fun h => (nomatch h)⟩
theorem fan (now : Time) (argument : Byte) : Statement (.fan now argument) :=
  ⟨fun h => (nomatch h), fun h => (nomatch h)⟩
theorem counters (now : Time) (argument : Byte) : Statement (.counters now argument) :=
  ⟨fun h => (nomatch h), fun h => (nomatch h)⟩
theorem takeRecord (now : Time) (argument : Byte) : Statement (.takeRecord now argument) :=
  ⟨fun h => (nomatch h), fun h => (nomatch h)⟩
theorem takeRecordComplete (now : Time) : Statement (.takeRecordComplete now) :=
  ⟨fun h => (nomatch h), fun h => (nomatch h)⟩
theorem unknown (now : Time) (request : Byte) (argument : Byte) : Statement (.unknown now request argument) :=
  ⟨fun h => (nomatch h), fun h => (nomatch h)⟩
theorem lineIdle (now : Time) (line : Line) : Statement (.lineIdle now line) :=
  ⟨fun h => (nomatch h), fun h => (nomatch h)⟩
theorem checkError (now : Time) (line : Line) (class_ : BitVec 3) (rx : Received) :
    Statement (.checkError now line class_ rx) :=
  ⟨fun h => (nomatch h), fun h => (nomatch h)⟩
theorem instantAged (now : Time) : Statement (.instantAged now) :=
  ⟨fun h => (nomatch h), fun h => (nomatch h)⟩

end Sys2Proof.Laws.Timing
end

