-- ==== Sys2Proof/Laws/Sounding.lean ====
section
/-! SUPPORT. The siren outputs after an event: the claims follow the zones (R140, R141), and a choice of patterns sets the
patterns, the levels, the phases and the leaders (R139, R142, R146, R147). -/

namespace Sys2Proof.Machine

/-! ## Claims (R140, R141) -/

theorem mem_insertClaim (c d : Claim) (cs : List Claim) : d ∈ insertClaim c cs ↔ d = c ∨ d ∈ cs := by
  induction cs with
  | nil => simp [insertClaim]
  | cons e es ih =>
    simp only [insertClaim]
    split <;> simp_all; tauto

/-- R140: the order of the list holds the same claims. -/
theorem mem_orderClaims (d : Claim) (cs : List Claim) : d ∈ orderClaims cs ↔ d ∈ cs := by
  have h (acc : List Claim) : d ∈ cs.foldl (fun acc c => insertClaim c acc) acc ↔ d ∈ acc ∨ d ∈ cs := by
    induction cs generalizing acc with
    | nil => simp
    | cons e es ih => rw [List.foldl_cons, ih, mem_insertClaim, List.mem_cons]; tauto
  unfold orderClaims
  simpa using h []

theorem mem_claimsFor (s : State) (o : Output) (c : Claim) : c ∈ s.claimsFor o ↔
    ∃ z : Zone, hasZone (s.role o).covered z = true ∧
      claimAt s.clock z (s.zoneLevel z) (s.sirens.units[o].claims.find? fun d => d.zone = z) = some c := by
  unfold State.claimsFor
  rw [mem_orderClaims, List.mem_filterMap]
  constructor
  · rintro ⟨z, _, h⟩
    split at h
    · rename_i hz; exact ⟨z, hz, h⟩
    · cases h
  · rintro ⟨z, hz, h⟩
    exact ⟨z, mem_indexes z, by rw [if_pos hz]; exact h⟩

/-- R141: what the claim of a zone is. -/
theorem claimAt_some {now : Time} {z : Zone} {level : Level} {old : Option Claim} {c : Claim}
    (ho : ∀ d, old = some d → d.zone = z) (h : claimAt now z level old = some c) :
    level.atLeast .storm = true ∧ c.zone = z ∧ c.level = level ∧
      (old = none → c.since = ⟨now, none⟩ ∧ c.silenced = false) ∧
      ∀ d, old = some d → c.since = (if d.level.code < c.level.code then ⟨now, none⟩ else d.since) ∧
        c.silenced = (d.silenced && !decide (d.level.code < c.level.code)) := by
  unfold claimAt at h
  split at h
  · cases h
  · rename_i hl
    have hl : level.atLeast .storm = true := by simpa using hl
    cases old with
    | none =>
      cases h
      exact ⟨hl, rfl, rfl, fun _ => ⟨rfl, rfl⟩, fun _ h => nomatch h⟩
    | some d =>
      simp only at h
      have hz := ho d rfl
      split at h
      · rename_i lt
        cases h
        refine ⟨hl, hz, rfl, (fun h => nomatch h), fun e h => ?_⟩
        cases h
        exact ⟨by rw [if_pos lt]; rfl, by simp [lt]⟩
      · rename_i lt
        cases h
        refine ⟨hl, hz, rfl, (fun h => nomatch h), fun e h => ?_⟩
        cases h
        exact ⟨by rw [if_neg lt], by simp [lt]⟩

theorem found_zone {cs : List Claim} {z : Zone} (d : Claim) (h : cs.find? (fun d => d.zone = z) = some d) : d.zone = z := by
  simpa using List.find?_some h

/-- R140, R141: the claims list of an output whose claims have followed the zones. -/
theorem claimsFor_follow (s : State) (o : Output) :
    (∀ c ∈ s.claimsFor o,
      hasZone (s.role o).covered c.zone = true ∧ c.level = s.zoneLevel c.zone ∧ c.level.atLeast .storm = true) ∧
    (∀ z : Zone, hasZone (s.role o).covered z = true → (s.zoneLevel z).atLeast .storm = true →
      ∃ c ∈ s.claimsFor o, c.zone = z) ∧
    ∀ c ∈ s.claimsFor o, match s.sirens.units[o].claims.find? fun d => d.zone = c.zone with
      | none => c.since = ⟨s.clock, none⟩ ∧ c.silenced = false
      | some d => c.since = (if d.level.code < c.level.code then ⟨s.clock, none⟩ else d.since) ∧
        c.silenced = (d.silenced && !decide (d.level.code < c.level.code)) := by
  refine ⟨fun c m => ?_, fun z hz hl => ?_, fun c m => ?_⟩
  · obtain ⟨z, hz, e⟩ := (mem_claimsFor ..).mp m
    have x := claimAt_some (fun d h => found_zone d h) e
    rw [x.2.1, x.2.2.1]
    exact ⟨hz, rfl, x.1⟩
  · have some : ∃ c, claimAt s.clock z (s.zoneLevel z) (s.sirens.units[o].claims.find? fun d => d.zone = z) = some c := by
      unfold claimAt
      rw [if_neg (by simpa using hl)]
      split
      · exact ⟨_, rfl⟩
      · split <;> exact ⟨_, rfl⟩
    obtain ⟨c, e⟩ := some
    exact ⟨c, (mem_claimsFor ..).mpr ⟨z, hz, e⟩, (claimAt_some (fun d h => found_zone d h) e).2.1⟩
  · obtain ⟨z, hz, e⟩ := (mem_claimsFor ..).mp m
    have x := claimAt_some (fun d h => found_zone d h) e
    rw [x.2.1]
    split
    · rename_i h; exact x.2.2.2.1 h
    · rename_i d h; exact x.2.2.2.2 d h

/-! ## Patterns (R139, R142, R146, R147) -/

/-- R139: the level of a pattern is the one that the output takes. -/
theorem levelOf_patternLevel (s : State) (o : Output) (p : Pattern) :
    Sirens.levelOf s.clock s.sirens.slow s.sirens.fast s.sirens.units[o] p = s.patternLevel o p := by
  cases p with
  | none => rfl
  | steady => rfl
  | slow => simp only [Sirens.levelOf, State.patternLevel]; cases s.sirens.slow <;> rfl
  | fast => simp only [Sirens.levelOf, State.patternLevel]; cases s.sirens.fast <;> rfl
  | allClear =>
    simp only [Sirens.levelOf, State.patternLevel]
    cases s.sirens.units[o].allClear with
    | none => rfl
    | some i =>
      refine Bool.eq_iff_iff.mpr ?_
      simp only [Option.any_some, allClearOn, Bool.and_eq_true, decide_eq_true_iff]
      rfl

theorem startPhase_beginsAt (s : State) (leader : Option Station) (cycle : Nat) :
    s.startPhase leader cycle = s.beginsAt leader cycle := by
  cases leader with
  | none => rfl
  | some k =>
    simp only [State.startPhase, State.beginsAt]
    split
    · rfl
    · unfold Peer.projected
      cases (s.peers[k]).content <;> cases (s.peers[k]).received <;> rfl

/-- R147: the phase at which a pattern begins is read from the peers and the clock. -/
theorem beginsAt_same {s t : State} (hs : t.setup = s.setup) (hp : t.peers = s.peers) (hc : t.clock = s.clock) :
    t.beginsAt = s.beginsAt := by
  funext leader cycle
  unfold State.beginsAt
  rw [hs, hp, hc]

/-- R139, R142: what a choice of patterns does to one siren output. -/
theorem choosePatterns_unit (s : State) (o : Output) : s.choosePatterns.sirens.units[o] =
    if s.operating && (s.role o).isSiren then
      s.sirens.units[o].drive s.clock s.sirens.units[o].chosen
        (Sirens.levelOf s.clock s.choosePatterns.sirens.slow s.choosePatterns.sirens.fast s.sirens.units[o]
          s.sirens.units[o].chosen) (s.feedback o)
    else s.sirens.units[o] := by
  have e : s.choosePatterns.sirens.units = tabulate fun o =>
      if s.operating && (s.role o).isSiren then
        s.sirens.units[o].drive s.clock (s.chosenPattern o)
          (Sirens.levelOf s.clock s.choosePatterns.sirens.slow s.choosePatterns.sirens.fast s.sirens.units[o]
            (s.chosenPattern o)) (s.feedback o)
      else s.sirens.units[o] := rfl
  simp only [e, Fin.getElem_fin, tabulate_at]
  split
  · rename_i h
    simp only [State.chosenPattern, h, if_true, Fin.getElem_fin]
  · rfl

theorem drive_chosen (now : Time) (p : Pattern) (level feedback : Bool) (u : Siren) :
    (u.drive now p level feedback).chosen = u.chosen := rfl

/-- R138: what a drive does to the absence count. -/
theorem drive_counts (now : Time) (p : Pattern) (level feedback : Bool) (u : Siren) :
    u.counts now feedback (u.drive now p level feedback) := by
  have grown : u.absenceAt now = u.counted now := by
    unfold Siren.absenceAt Siren.counted
    cases u.absenceFrom <;> rfl
  refine ⟨?_, ?_, ?_⟩ <;>
    simp only [Siren.drive, Bool.or_eq_true, beq_iff_eq, Bool.and_eq_true, Bool.not_eq_true', Bool.or_eq_false_iff,
      beq_eq_false_iff_ne, grown]
  · by_cases h : p = .none ∨ feedback = true
    · rw [if_pos h]
      rcases h with h | h <;> simp [h]
    · rw [if_neg h]
      rw [not_or] at h
      simp [h]
  · refine if_congr ?_ rfl rfl
    by_cases h : p = .none <;> cases feedback <;> cases level <;> cases u.absenceTaken <;> simp [h]

/-- R138: the absence count is read from three fields of the output before. -/
theorem counts_from {now : Time} {feedback : Bool} {s u t : Siren} (h : s.counts now feedback t)
    (ha : s.absence = u.absence) (hf : s.absenceFrom = u.absenceFrom) (ht : s.absenceTaken = u.absenceTaken) :
    u.counts now feedback t := by
  have e : s.counted now = u.counted now := by unfold Siren.counted; rw [ha, hf]
  exact ⟨e ▸ h.count, ht ▸ h.taken, ht ▸ h.grows⟩

/-- R139: an output sounds a pattern after a choice exactly when that pattern is chosen. -/
theorem choosePatterns_sounds (s : State) (p : Pattern) (h : p ≠ .none) :
    s.choosePatterns.sounds p = (indexes 4).any fun o => s.chosenPattern o == p := by
  unfold State.sounds
  refine congrArg (fun f => (indexes 4).any f) (funext fun o => ?_)
  rw [choosePatterns_unit]
  show (s.operating && (s.role o).isSiren && _) = _
  unfold State.chosenPattern
  by_cases g : (s.operating && (s.role o).isSiren) = true
  · rw [if_pos g, if_pos g, g, Bool.true_and]; rfl
  · rw [if_neg g, if_neg g]
    have g : (s.operating && (s.role o).isSiren) = false := by simpa using g
    rw [g, Bool.false_and]
    cases p <;> first | rfl | exact absurd rfl h

/-- R139, R142, R146, R147: what a choice of patterns comes to. -/
theorem choosePatterns_chosen (s : State) : s.patternsChosen s.choosePatterns where
  pattern ho o hr := by
    have e := choosePatterns_unit s o
    have g : (s.operating && (s.role o).isSiren) = true := Bool.and_eq_true_iff.mpr ⟨ho, hr⟩
    rw [if_pos g] at e
    refine ⟨by rw [e]; rfl, ?_⟩
    rw [← levelOf_patternLevel, e]
    unfold Siren.drive Sirens.levelOf
    rfl
  counts ho o hr := by
    have g : (s.operating && (s.role o).isSiren) = true := Bool.and_eq_true_iff.mpr ⟨ho, hr⟩
    rw [choosePatterns_unit s o, if_pos g]
    exact drive_counts ..
  slow := by
    unfold State.phaseAfter
    rw [choosePatterns_sounds s .slow (fun h => nomatch h), ← startPhase_beginsAt]
    show s.cadenceWith _ _ _ _ = _
    unfold State.cadenceWith
    cases (indexes 4).any fun o => s.chosenPattern o == .slow
    · rfl
    · cases s.sirens.slow <;> rfl
  fast := by
    unfold State.phaseAfter
    rw [choosePatterns_sounds s .fast (fun h => nomatch h), ← startPhase_beginsAt]
    show s.cadenceWith _ _ _ _ = _
    unfold State.cadenceWith
    cases (indexes 4).any fun o => s.chosenPattern o == .fast
    · rfl
    · cases s.sirens.fast <;> rfl
  leaders := ⟨rfl, rfl⟩

/-- A choice of patterns as seen from an earlier state with the same phases, leaders, peers, clock and absence counts. -/
theorem patternsChosen_from {u s t : State} (h : s.patternsChosen t) (hc : s.clock = u.clock) (hs : s.setup = u.setup)
    (hp : s.peers = u.peers) (hslow : s.sirens.slow = u.sirens.slow) (hfast : s.sirens.fast = u.sirens.fast)
    (hl : s.sirens.slowLeader = u.sirens.slowLeader) (hl' : s.sirens.fastLeader = u.sirens.fastLeader)
    (hu : ∀ o : Output, s.sirens.units[o].absence = u.sirens.units[o].absence ∧
      s.sirens.units[o].absenceFrom = u.sirens.units[o].absenceFrom ∧
      s.sirens.units[o].absenceTaken = u.sirens.units[o].absenceTaken) :
    u.patternsChosen t where
  pattern := h.pattern
  counts ho o hr := counts_from (h.counts ho o hr) (hu o).1 (hu o).2.1 (hu o).2.2
  slow := by
    have x := h.slow
    unfold State.phaseAfter at x ⊢
    rw [beginsAt_same hs hp hc, hc, hslow, hl] at x
    exact x
  fast := by
    have x := h.fast
    unfold State.phaseAfter at x ⊢
    rw [beginsAt_same hs hp hc, hc, hfast, hl'] at x
    exact x
  leaders := h.leaders

/-! ## The siren outputs after an event -/

theorem followZones_unit (s : State) (o : Output) : s.followZones.sirens.units[o] =
    if s.operating && (s.role o).isSiren then
      { s.sirens.units[o] with
        claims := s.claimsFor o
        allClear := if (s.claimsFor o).isEmpty then s.sirens.units[o].allClear else none }
    else s.sirens.units[o] := by
  simp only [State.followZones, Fin.getElem_fin, tabulate_at]

/-- What the siren controller comes to after an event: v is before it acts, with the fire-seen flags as the recompute of
the zone picture has set them. -/
theorem judgeSirens_sirensSettle (u v : State) (hc : v.clock = u.clock) (hs : v.setup = u.setup) (hp : v.peers = u.peers)
    (ho : v.start = u.start) (hx : v.sirens = { u.sirens with units := v.sirens.units })
    (hu : ∀ o : Output, v.sirens.units[o] = { u.sirens.units[o] with
      fireSeen := u.sirens.units[o].fireSeen ||
        (u.operating && (u.role o).isSiren && anyRisen (u.role o).covered u.zones.latched v.zones.latched) }) :
    u.sirensSettle v.judgeSirens := by
  have op : v.operating = u.operating := by unfold State.operating; rw [ho]
  have role (o : Output) : v.role o = u.role o := by unfold State.role; rw [hs]
  have unit (o : Output) : v.judgeSirens.sirens.units[o] =
      if v.operating && (v.role o).isSiren then
        v.followZones.sirens.units[o].drive v.clock v.followZones.sirens.units[o].chosen
          (Sirens.levelOf v.clock v.judgeSirens.sirens.slow v.judgeSirens.sirens.fast v.followZones.sirens.units[o]
            v.followZones.sirens.units[o].chosen) (v.feedback o)
      else v.followZones.sirens.units[o] := choosePatterns_unit v.followZones o
  have on (o : Output) (h : v.operating = true) (h' : (v.role o).isSiren = true) :
      ∃ p l, v.judgeSirens.sirens.units[o] = Siren.drive v.clock p l (v.feedback o)
        { v.sirens.units[o] with
          claims := v.claimsFor o
          allClear := if (v.claimsFor o).isEmpty then v.sirens.units[o].allClear else none } := by
    have g : (v.operating && (v.role o).isSiren) = true := Bool.and_eq_true_iff.mpr ⟨h, h'⟩
    have x := unit o
    rw [if_pos g, followZones_unit, if_pos g] at x
    exact ⟨_, _, x⟩
  have old (o : Output) : v.sirens.units[o].claims = u.sirens.units[o].claims ∧
      v.sirens.units[o].allClear = u.sirens.units[o].allClear ∧ v.sirens.units[o].fault = u.sirens.units[o].fault := by
    rw [hu o]; exact ⟨rfl, rfl, rfl⟩
  have claims (o : Output) (h : v.operating = true) (h' : (v.role o).isSiren = true) :
      v.judgeSirens.sirens.units[o].claims = v.claimsFor o := by
    obtain ⟨p, l, e⟩ := on o h h'
    rw [e]; rfl
  have allClear (o : Output) (h : v.operating = true) (h' : (v.role o).isSiren = true) :
      v.judgeSirens.sirens.units[o].allClear = if (v.claimsFor o).isEmpty then v.sirens.units[o].allClear else none := by
    obtain ⟨p, l, e⟩ := on o h h'
    rw [e]; rfl
  have follow := claimsFor_follow v
  exact
    { claims := fun h o h' => by
        have f := follow o
        rw [(old o).1, hc] at f
        refine ⟨?_, ?_, fun c m => ?_, fun n => ?_⟩
        · rw [claims o h h']; exact f.1
        · rw [claims o h h']; exact f.2.1
        · rw [claims o h h'] at m
          have x := f.2.2 c m
          generalize u.sirens.units[o].claims.find? (fun d => d.zone = c.zone) = found at x ⊢
          cases found <;> exact x.1
        · rw [allClear o h h', if_neg]
          rw [claims o h h'] at n
          simpa using n
      silenced := fun h o h' c m => by
        have f := follow o
        rw [(old o).1] at f
        rw [claims o h h'] at m
        have x := f.2.2 c m
        generalize u.sirens.units[o].claims.find? (fun d => d.zone = c.zone) = found at x ⊢
        cases found <;> exact x.2
      allClear := fun h o h' e => by
        rw [claims o h h'] at e
        rw [allClear o h h', e, (old o).2.1]
        rfl
      seen := fun h o h' => by
        have hs : (u.operating && (u.role o).isSiren) = true := by
          rw [← op, ← role]; exact Bool.and_eq_true_iff.mpr ⟨h, h'⟩
        obtain ⟨p, l, e⟩ := on o h h'
        have x : v.judgeSirens.sirens.units[o].fireSeen = v.sirens.units[o].fireSeen := by rw [e]; rfl
        have y := congrArg Siren.fireSeen (hu o)
        rw [hs, Bool.true_and] at y
        have y : v.sirens.units[o].fireSeen = (u.sirens.units[o].fireSeen ||
          anyRisen (u.role o).covered u.zones.latched v.zones.latched) := y
        rw [x, y, Bool.or_eq_true]
        refine or_congr Iff.rfl ?_
        unfold anyRisen
        rw [List.any_eq_true]
        constructor
        · rintro ⟨z, _, k⟩
          simp only [Bool.and_eq_true, decide_eq_true_eq] at k
          exact ⟨z, by rw [← role] at k; exact k.1, k.2⟩
        · rintro ⟨z, k, k'⟩
          refine ⟨z, mem_indexes z, ?_⟩
          simp only [Bool.and_eq_true, decide_eq_true_eq]
          exact ⟨by rw [← role]; exact k, k'⟩
      chosen := patternsChosen_from (choosePatterns_chosen v.followZones) hc hs hp (by
          show v.sirens.slow = _; rw [hx]) (by show v.sirens.fast = _; rw [hx]) (by
          show v.sirens.slowLeader = _; rw [hx]) (by show v.sirens.fastLeader = _; rw [hx]) (fun o => by
          rw [followZones_unit]
          split <;> rw [hu o] <;> exact ⟨rfl, rfl, rfl⟩)
      stand := fun o h => by
        have g : (v.operating && (v.role o).isSiren) = false := by
          rcases h with h | h
          · have h : v.operating = false := h
            rw [h, Bool.false_and]
          · have h : (v.role o).isSiren = false := h
            rw [h, Bool.and_false]
        have n : ¬(v.operating && (v.role o).isSiren) = true := by rw [g]; exact Bool.false_ne_true
        rw [unit o, if_neg n, followZones_unit, if_neg n, hu o, ← op, ← role, g, Bool.false_and, Bool.or_false]
      faults := fun o => by
        rw [← (old o).2.2]
        exact (judgeSirens_consumes v).sirens.2 o
      resound := by
        rw [(judgeSirens_consumes v).sirens.1, hx] }

end Sys2Proof.Machine
end

