-- ==== Sys2Proof/Laws/Settled.lean ====
section
/-! SUPPORT. The settling of an event in one lemma, settleWith_settledFrom: every clause of State.settledFrom. A claim about
a command whose event has consequences rewrites the command's meaning to settleWith and cites it. -/

namespace Sys2Proof.Machine

/-! ## Reads that the consequences leave alone -/

theorem Keeps.composedLevel {s t : State} (h : Keeps s t) : t.composedLevel = s.composedLevel := by
  unfold State.composedLevel State.anyStorm
  rw [h.started, h.inputs, h.escalation, h.watchHold, h.sensing]

theorem Consumes.liveLevels {s t : State} (h : Consumes s t) : t.liveLevels = s.liveLevels := by
  unfold State.liveLevels State.contributions
  rw [h.setup, h.own, h.peers]

theorem Keeps.chosenView {s t : State} (h : Keeps s t) : t.chosenView = s.chosenView := by
  funext d
  have e : t.candidate d = s.candidate d := by
    funext k
    unfold State.candidate
    rw [h.setup, h.started, h.hasFan, h.peers]
  unfold State.chosenView State.candidates
  rw [e]

/-! ## Reports (R17) -/

theorem fillIf_reported (s : State) (go : Bool) : (s.fillIf go).reported = s.reported := rfl

theorem fillOnChange_reportStands (s : State) : s.fillOnChange.reportStands := by
  intro hp
  have e : s.fillOnChange.assembler.last = if s.reportChanged then some s.reported else s.assembler.last := rfl
  have r : s.fillOnChange.reported = s.reported := fillIf_reported s _
  rw [e, r]
  split
  · rfl
  · rename_i h
    have hp' : s.permitted = true := hp
    simp only [State.reportChanged, hp', Bool.true_and, bne_iff_ne, ne_eq, Decidable.not_not] at h
    exact h

/-- R17: what a fill on a change comes to. -/
theorem fillOnChange_refills (s : State) : s.refills s.fillOnChange := by
  have changed : s.reportChanged = true ↔ s.permitted = true ∧ s.assembler.last ≠ some s.reported := by
    simp only [State.reportChanged, Bool.and_eq_true, bne_iff_ne]
  have permitted : s.fillOnChange.permitted = s.permitted := rfl
  have reported : s.fillOnChange.reported = s.reported := fillIf_reported s _
  refine ⟨fun l => ?_, ?_⟩
  · rw [permitted, reported]
    unfold State.fillOnChange State.fillIf
    cases l <;> simp only [State.line, LineInterface.fillStateIf, changed]
  · rw [permitted, reported]
    unfold State.fillOnChange State.fillIf
    simp only [changed]
    split <;> rfl

/-! ## What each controller leaves alone -/

/-- Two states with the same lines and STATE assembler. -/
def SameSlots (s t : State) : Prop := t.lineA = s.lineA ∧ t.lineB = s.lineB ∧ t.assembler = s.assembler

theorem SameSlots.refl (s : State) : SameSlots s s := ⟨rfl, rfl, rfl⟩
theorem SameSlots.trans {s t u : State} (h : SameSlots s t) (h' : SameSlots t u) : SameSlots s u :=
  ⟨h'.1.trans h.1, h'.2.1.trans h.2.1, h'.2.2.trans h.2.2⟩

/-- A fill is seen from any state with the same slots and clock. -/
theorem refills_back {u v t : State} (h : v.refills t) (same : SameSlots u v) (clock : v.clock = u.clock) : u.refills t := by
  have line (l : Line) : v.line l = u.line l := by
    cases l
    · exact same.1
    · exact same.2.1
  exact ⟨fun l => by rw [← line, ← same.2.2]; exact h.slots l, by rw [← clock, ← same.2.2]; exact h.assembler⟩

/-- Two states with the same barriers, sirens and slots. -/
def SameOutputs (s t : State) : Prop := t.barriers = s.barriers ∧ t.sirens = s.sirens ∧ SameSlots s t

theorem SameOutputs.refl (s : State) : SameOutputs s s := ⟨rfl, rfl, SameSlots.refl s⟩
theorem SameOutputs.trans {s t u : State} (h : SameOutputs s t) (h' : SameOutputs t u) : SameOutputs s u :=
  ⟨h'.1.trans h.1, h'.2.1.trans h.2.1, h.2.2.trans h'.2.2⟩

theorem extraction_same (s : State) (e : Extraction) : SameOutputs s { s with extraction := e } := ⟨rfl, rfl, rfl, rfl, rfl⟩
theorem judgeFlood_same (s : State) : SameOutputs s s.judgeFlood := ⟨rfl, rfl, rfl, rfl, rfl⟩
theorem judgeSampler_same (s : State) : SameOutputs s s.judgeSampler := ⟨rfl, rfl, rfl, rfl, rfl⟩
theorem judgeMismatches_same (s : State) : SameOutputs s s.judgeMismatches := ⟨rfl, rfl, rfl, rfl, rfl⟩
theorem file_same (s : State) (k : RecordKind) (b : Byte) (v : Count) : SameOutputs s (s.file k b v) :=
  ⟨rfl, rfl, rfl, rfl, rfl⟩

theorem phaseChanged_same (s : State) : SameOutputs s s.phaseChanged :=
  ((file_same ..).trans (judgeMismatches_same _)).trans ((judgeSampler_same _).trans (judgeFlood_same _))

theorem enterDiverting_same (s : State) : SameOutputs s s.enterDiverting := by
  unfold State.enterDiverting
  simp only
  split
  · exact ((extraction_same s _).trans (phaseChanged_same _)).trans ((extraction_same _ _).trans (phaseChanged_same _))
  · exact (extraction_same s _).trans (phaseChanged_same _)

theorem raiseCauses_same (s : State) (cs : List Cause) : SameOutputs s (s.raiseCauses cs) := by
  unfold State.raiseCauses
  split
  · exact SameOutputs.refl s
  · split
    · exact SameOutputs.refl s
    · exact (extraction_same s _).trans (enterDiverting_same _)
    · exact (extraction_same s _).trans (enterDiverting_same _)
    · exact extraction_same s _
    · exact extraction_same s _
    · exact extraction_same s _

theorem judgeCauses_same (s : State) (event : List Cause) : SameOutputs s (s.judgeCauses event) :=
  (extraction_same s _).trans (raiseCauses_same _ _)

theorem judgeExtraction_same (s : State) (event : List Cause) : SameOutputs s (s.judgeExtraction event) :=
  (judgeFlood_same s).trans ((judgeCauses_same _ event).trans ((judgeCauses_same _ []).trans (judgeSampler_same _)))

/-- Two states with the same flood states, valves, extraction controller, sirens, flags and slots. -/
def SameFan (s t : State) : Prop :=
  t.flood = s.flood ∧ t.valves = s.valves ∧ t.extraction = s.extraction ∧ t.sirens = s.sirens ∧ t.flags = s.flags ∧
    SameSlots s t

theorem SameFan.refl (s : State) : SameFan s s := ⟨rfl, rfl, rfl, rfl, rfl, SameSlots.refl s⟩
theorem SameFan.trans {s t u : State} (h : SameFan s t) (h' : SameFan t u) : SameFan s u :=
  ⟨h'.1.trans h.1, h'.2.1.trans h.2.1, h'.2.2.1.trans h.2.2.1, h'.2.2.2.1.trans h.2.2.2.1, h'.2.2.2.2.1.trans h.2.2.2.2.1,
    h.2.2.2.2.2.trans h'.2.2.2.2.2⟩

theorem releaseBarrier_sameFan (s : State) (o : Output) : SameFan s (s.releaseBarrier o) := by
  unfold State.releaseBarrier
  simp only
  split
  · exact SameFan.refl s
  · split <;> exact SameFan.refl s

theorem releaseIfDue_sameFan (s : State) (o : Output) : SameFan s (s.releaseIfDue o) := by
  unfold State.releaseIfDue
  split
  · exact releaseBarrier_sameFan s o
  · exact SameFan.refl s

theorem foldl_sameFan {α : Type} (f : State → α → State) (hf : ∀ s a, SameFan s (f s a)) (as : List α) (s : State) :
    SameFan s (as.foldl f s) := by
  induction as generalizing s with
  | nil => exact SameFan.refl s
  | cons a as ih => exact (hf s a).trans (ih _)

theorem judgeWaits_sameFan (n : Nat) (s : State) : SameFan s (s.judgeWaits n) := by
  induction n generalizing s with
  | zero => exact SameFan.refl s
  | succ n ih =>
    simp only [State.judgeWaits]
    split
    · exact SameFan.refl s
    · split
      · exact SameFan.trans ⟨rfl, rfl, rfl, rfl, rfl, rfl, rfl, rfl⟩ (ih _)
      · exact SameFan.refl s

theorem considerRun_sameFan (s : State) : SameFan s s.considerRun := by
  unfold State.considerRun
  split
  · split <;> exact SameFan.refl s
  · exact SameFan.refl s

theorem judgeBarriers_sameFan (s : State) : SameFan s s.judgeBarriers :=
  (foldl_sameFan _ releaseIfDue_sameFan _ _).trans ((judgeWaits_sameFan 4 _).trans (considerRun_sameFan _))

/-! ## Transport -/

/-- What the fan comes to stands while the barriers, the sirens and the fill follow. -/
theorem fanSettles_forth {u w t : State} {event : List Cause} (h : u.fanSettles w event) (c : Stays w t)
    (flood : t.flood = w.flood) (valves : t.valves = w.valves) (extraction : t.extraction = w.extraction) :
    u.fanSettles t event := by
  have later {f : Filing} (x : u.filed w f) : u.filed t f := filed_grows x c.toKeeps.grows
  have mode : t.samplerMode = w.samplerMode := samplerMode_keeps c (by rw [extraction])
  have cond : t.conditionsNow = w.conditionsNow := conditions_keeps c valves
  have floodIn : t.floodIn = w.floodIn := funext fun d => funext fun p => floodIn_keeps c d p
  have inFlood : t.inFlood = w.inFlood := by
    funext d
    show t.floodIn d t.extraction.phase = w.floodIn d w.extraction.phase
    rw [floodIn, extraction]
  exact
    { flood :=
        { flood := by rw [flood, inFlood]; exact h.flood.flood
          cut := fun o x => by
            rw [extraction] at x
            unfold State.floodCuts at x
            rw [floodIn] at x
            have y := h.flood.cut o x
            exact ⟨by rw [valves]; exact y.1, flagged_within c.flags _ y.2.1, later y.2.2⟩
          stands := fun o x => by
            rw [extraction] at x
            unfold State.floodCuts at x
            rw [floodIn] at x
            rw [valves]
            exact h.flood.stands o x }
      apart := by rw [extraction]; exact h.apart
      conditions := by rw [extraction, cond]; exact h.conditions
      causes := by
        obtain ⟨x, fire, storm, trouble, still, cs, p, moved⟩ := h.causes
        rw [← extraction] at fire storm trouble still cs p moved
        exact ⟨x, fire, storm, trouble, still, cs, p, fun n =>
          ⟨(moved n).1, later (moved n).2.1, fun r => later ((moved n).2.2 r)⟩⟩
      still := by rw [extraction]; exact h.still
      timer := by rw [extraction]; exact h.timer
      mismatches := by
        have x := h.mismatches
        rw [← extraction] at x
        exact x
      sampler := by
        have x := h.sampler
        rw [← extraction, ← mode] at x
        exact x }

/-- u with what the fan does not read as v has it. -/
def State.besideFan (u v : State) : State :=
  { u with
    own := v.own, zones := v.zones, views := v.views, sirens := v.sirens, record := v.record, flags := v.flags }

/-- What the fan comes to is seen from any state that differs in what the fan does not read. -/
theorem fanSettles_back {u v t : State} {event : List Cause} (h : (u.besideFan v).fanSettles t event)
    (grows : Grows u (u.besideFan v)) (clock : t.clock = u.clock) : u.fanSettles t event := by
  have back {f : Filing} (x : (u.besideFan v).filed t f) : u.filed t f := filed_before grows x clock
  exact
    { flood := ⟨h.flood.flood, fun o x => (h.flood.cut o x).imp id fun y => y.imp id back, h.flood.stands⟩
      apart := h.apart
      conditions := h.conditions
      causes := by
        obtain ⟨x, fire, storm, trouble, still, cs, p, moved⟩ := h.causes
        exact ⟨x, fire, storm, trouble, still, cs, p, fun n =>
          ⟨(moved n).1, back (moved n).2.1, fun r => back ((moved n).2.2 r)⟩⟩
      still := h.still
      timer := h.timer
      mismatches := h.mismatches
      sampler := h.sampler }

/-- What the barriers come to stands while the sirens and the fill follow. -/
theorem barriersSettle_forth {u w t : State} (h : u.barriersSettle w) (c : Consumes w t) (barriers : t.barriers = w.barriers)
    (extraction : t.extraction = w.extraction) (supply : t.supply = w.supply) : u.barriersSettle t := by
  have at_ : t.barrier = w.barrier := by unfold State.barrier; rw [barriers]
  have later {f : Filing} (x : u.filed w f) : u.filed t f := filed_grows x c.toKeeps.grows
  have may (o : Output) : t.mayRun o = w.mayRun o := by
    unfold State.mayRun State.viewPermits State.viewData State.ownViewData State.sampleAge State.zoneLevel
    rw [c.role, c.views, c.setup, c.peers, c.clock, c.zones, at_, extraction]
  have role : t.role = w.role := funext fun o => c.role o
  have holds : t.releaseHolds = w.releaseHolds := funext fun o => c.releaseHolds o
  have mayIn (b : Barriers) (o : Output) : t.mayRunIn b o = w.mayRunIn b o := by
    unfold State.mayRunIn State.mayRun State.viewPermits State.viewData State.ownViewData State.sampleAge State.zoneLevel
      State.barrier State.role
    simp only [c.views, c.setup, c.peers, c.clock, c.zones, extraction]
  exact
    { stand := by rw [c.operating, role, holds, at_]; exact h.stand
      release := fun o n op br held due => by
        have x := h.release o n (c.operating ▸ op) (role ▸ br) held (holds ▸ due)
        rw [at_, role, barriers]
        exact ⟨fun f => (x.1 f).imp id later, x.2⟩
      queue := by rw [barriers]; exact h.queue
      fresh := by rw [barriers]; exact h.fresh
      waiting := by rw [barriers, at_]; exact h.waiting
      running := by rw [barriers]; exact h.running
      started := by rw [barriers, c.operating, supply]; exact h.started
      turn := by simp only [barriers, c.operating, supply, may]; exact h.turn
      released := by
        unfold State.barriersFollow
        rw [c.operating, role, holds, at_]
        exact h.released
      whole := by
        obtain ⟨b, rel, con⟩ := h.whole
        have due (o : Output) : u.releaseDue t o = u.releaseDue w o := by
          unfold State.releaseDue
          rw [c.operating, role, holds]
        have starts (o : Output) : t.waitStarts b o ↔ w.waitStarts b o := by
          unfold State.waitStarts
          simp only [mayIn, c.setup]
        refine ⟨b, ⟨?_, rel.running, ?_, rel.stays, ?_⟩, ⟨?_, ?_, ?_, ?_⟩⟩
        · simp only [due, role]; exact rel.units
        · simp only [due, role]; exact rel.joined
        · unfold State.queueInOrder; rw [role]; exact rel.order
        · simp only [starts, at_, c.setup, c.clock]; exact con.starts
        · simp only [starts, at_]; exact con.waits
        · simp only [c.operating, supply, may, barriers, at_, role, c.clock]; exact con.run
        · simp only [c.operating, supply, may, barriers, at_]; exact con.rest }

/-- What the barriers come to is seen from any state with the same barriers, inputs and clock. -/
theorem barriersSettle_back {u v t : State} (h : v.barriersSettle t) (barriers : v.barriers = u.barriers)
    (inputs : v.inputs = u.inputs) (motors : u.motorsInTurn → v.motorsInTurn) (grows : Grows u v)
    (clock : t.clock = v.clock) : u.barriersSettle t := by
  have at_ : v.barrier = u.barrier := by unfold State.barrier; rw [barriers]
  have feedback : v.feedback = u.feedback := by unfold State.feedback; rw [inputs]
  exact
    { stand := by rw [← at_, ← barriers]; exact h.stand
      release := fun o n op br held due => by
        have x := h.release o (barriers ▸ n) op br (at_ ▸ held) due
        rw [at_, feedback, grows.1] at x
        exact ⟨fun f => (x.1 f).imp id fun y => filed_before grows y clock, x.2⟩
      queue := by rw [← barriers]; exact h.queue
      fresh := by rw [← at_, ← barriers]; exact h.fresh
      waiting := by rw [← at_]; exact h.waiting
      running := by rw [← barriers]; exact h.running
      started := by rw [← barriers]; exact h.started
      turn := h.turn
      released := h.released
      whole := by
        obtain ⟨b, rel, con⟩ := h.whole
        have due (o : Output) : v.releaseDue t o = u.releaseDue t o := by unfold State.releaseDue; rw [at_]
        refine ⟨b, ⟨?_, by rw [← barriers]; exact rel.running, ?_, by rw [← barriers]; exact rel.stays,
          fun m => rel.order (motors m)⟩, con⟩
        · simp only [← due, ← feedback, ← at_, ← grows.1]; exact rel.units
        · simp only [← due, ← feedback, ← barriers]; exact rel.joined }

theorem reportedPattern_same {w t : State} (c : Consumes w t) (sirens : t.sirens = w.sirens) :
    t.reportedPattern = w.reportedPattern := by
  unfold State.reportedPattern
  rw [sirens, show t.role = w.role from funext fun o => c.role o]

theorem chosenLeader_same {w t : State} (c : Consumes w t) (sirens : t.sirens = w.sirens) :
    t.chosenLeader = w.chosenLeader := by
  unfold State.chosenLeader State.leads
  rw [c.started, c.setup, c.peers, reportedPattern_same c sirens]

theorem patternsChosen_forth {u w t : State} (h : u.patternsChosen w) (c : Consumes w t) (sirens : t.sirens = w.sirens) :
    u.patternsChosen t := by
  have sounds : t.sounds = w.sounds := by
    unfold State.sounds
    rw [c.operating, sirens, show t.role = w.role from funext fun o => c.role o]
  have level : t.patternLevel = w.patternLevel := by
    funext o p
    unfold State.patternLevel
    rw [sirens, c.clock]
  exact
    { pattern := by rw [c.operating, sirens, show t.role = w.role from funext fun o => c.role o, level]; exact h.pattern
      counts := by
        rw [c.operating, sirens, show t.role = w.role from funext fun o => c.role o, c.clock,
          show t.feedback = w.feedback from funext fun o => by unfold State.feedback; rw [c.inputs]]
        exact h.counts
      slow := by unfold State.phaseAfter; rw [sirens, sounds]; exact h.slow
      fast := by unfold State.phaseAfter; rw [sirens, sounds]; exact h.fast
      leaders := by rw [sirens, chosenLeader_same c sirens]; exact h.leaders }

/-- What the sirens come to stands while the STATE slots are filled. -/
theorem sirensSettle_forth {u w t : State} (h : u.sirensSettle w) (c : Consumes w t) (sirens : t.sirens = w.sirens) :
    u.sirensSettle t := by
  have role : t.role = w.role := funext fun o => c.role o
  have level : t.zoneLevel = w.zoneLevel := by unfold State.zoneLevel; rw [c.zones]
  exact
    { claims := fun op o r => by
        have x := h.claims (c.operating ▸ op) o (role ▸ r)
        exact ⟨by rw [sirens, role, level]; exact x.1, by rw [sirens, role, level]; exact x.2, by rw [sirens]; exact x.3,
          by rw [sirens]; exact x.4⟩
      silenced := by rw [c.operating, role, sirens]; exact h.silenced
      allClear := by rw [c.operating, role, sirens]; exact h.allClear
      seen := by rw [c.operating, role, sirens, c.zones]; exact h.seen
      chosen := patternsChosen_forth h.chosen c sirens
      stand := by rw [c.operating, role, sirens]; exact h.stand
      faults := by rw [sirens]; exact h.faults
      resound := by rw [sirens]; exact h.resound }

/-- The siren controller changes the sirens alone. -/
theorem judgeSirens_frame (s : State) : s.judgeSirens = { s with sirens := s.judgeSirens.sirens } := by
  have choose (t : State) : t.choosePatterns = { t with sirens := t.choosePatterns.sirens } := by
    unfold State.choosePatterns State.chooseLeaders
    rfl
  unfold State.judgeSirens
  rw [choose]
  unfold State.followZones
  rfl

/-- R17: a fill changes the STATE slots and the assembler alone. -/
theorem fillOnChange_frame (s : State) : s.fillOnChange =
    { s with lineA := s.fillOnChange.lineA, lineB := s.fillOnChange.lineB, assembler := s.fillOnChange.assembler } := by
  unfold State.fillOnChange State.fillIf
  rfl

/-! ## The whole settling -/

theorem settleWith_report (s : State) (event : List Cause) : (s.settleWith event).reportStands := by
  unfold State.settleWith State.judgeConsumers
  exact fillOnChange_reportStands _

/-- The own level, the zone picture and the fan views after an event, before anything acts on them. -/
def State.front (s : State) : State := s.recomposeOwn.recomputeZones.chooseViews

theorem front_follows (s : State) : Follows s s.front :=
  (recomposeOwn_follows s).trans ((recomputeZones_follows _).trans (chooseViews_follows _))

theorem front_beside (s : State) : s.front = s.besideFan s.front := by
  simp only [State.front, State.chooseViews, State.recomputeZones, State.recomposeOwn, State.besideFan]

theorem front_barriers (s : State) : s.front.barriers = s.barriers := by
  simp only [State.front, State.chooseViews, State.recomputeZones, State.recomposeOwn]

theorem settleWith_front (s : State) (event : List Cause) : s.settleWith event =
    (s.front.judgeExtraction event).judgeBarriers.judgeSirens.fillOnChange := by
  unfold State.settleWith State.judgeConsumers State.front
  rfl

theorem settleWith_fanSettles (s : State) (event : List Cause) : s.fanSettles (s.settleWith event) event := by
  have clock := (settleWith_follows s event).clock
  rw [settleWith_front] at clock ⊢
  have grows := (front_follows s).toKeeps.grows
  have beside := front_beside s
  generalize s.front = v at clock grows beside ⊢
  have first := (judgeExtraction_settles v event).1
  generalize v.judgeExtraction event = w at clock first ⊢
  have last := (judgeBarriers_consumes w).trans ((judgeSirens_consumes _).trans (fillOnChange_consumes _))
  have same := judgeBarriers_sameFan w
  generalize hb : w.judgeBarriers = b at clock last same ⊢
  have frame := judgeSirens_frame b
  have whole := fanSettles_forth (t := b.judgeSirens.fillOnChange) first last.stays
    (by rw [fillOnChange_frame, frame]; exact same.1) (by rw [fillOnChange_frame, frame]; exact same.2.1)
    (by rw [fillOnChange_frame, frame]; exact same.2.2.1)
  rw [beside] at grows
  refine fanSettles_back (v := v) ?_ grows clock
  rw [← beside]
  exact whole

theorem settleWith_barriersSettle (s : State) (event : List Cause) : s.barriersSettle (s.settleWith event) := by
  have clock := (settleWith_follows s event).clock
  rw [settleWith_front] at clock ⊢
  have grows := (front_follows s).toKeeps.grows
  have inputs := (front_follows s).inputs
  have motors := (front_follows s).motors
  have barriers := front_barriers s
  generalize s.front = v at clock grows inputs motors barriers ⊢
  have extraction := judgeExtraction_consumes v event
  have same := (judgeExtraction_same v event).1
  generalize v.judgeExtraction event = w at clock extraction same ⊢
  have first := judgeBarriers_barriersSettle w
  generalize w.judgeBarriers = b at clock first ⊢
  have last := (judgeSirens_consumes b).trans (fillOnChange_consumes _)
  have frame := judgeSirens_frame b
  have whole := barriersSettle_forth first last (by rw [fillOnChange_frame, frame])
    (by rw [fillOnChange_frame, frame]) (by rw [fillOnChange_frame, frame])
  exact barriersSettle_back whole (same.trans barriers) (extraction.inputs.trans inputs)
    (extraction.motors ∘ motors) (grows.trans extraction.toKeeps.grows)
    (clock.trans (extraction.clock.trans grows.1).symm)

theorem front_unit (s : State) (o : Output) : s.front.sirens.units[o] = { s.sirens.units[o] with
    fireSeen := s.sirens.units[o].fireSeen ||
      (s.operating && (s.role o).isSiren && anyRisen (s.role o).covered s.zones.latched s.front.zones.latched) } := by
  simp only [State.front, State.chooseViews, State.recomputeZones, State.seeFire, Fin.getElem_fin, tabulate_at]
  rfl

theorem settleWith_sirensSettle (s : State) (event : List Cause) : s.sirensSettle (s.settleWith event) := by
  rw [settleWith_front]
  have front := front_follows s
  have units := front_unit s
  have sirens : s.front.sirens = { s.sirens with units := s.front.sirens.units } := rfl
  generalize s.front = v at front units sirens ⊢
  have c := (judgeExtraction_consumes v event).trans (judgeBarriers_consumes _)
  have same := (judgeBarriers_sameFan (v.judgeExtraction event)).2.2.2.1.trans (judgeExtraction_same v event).2.1
  generalize (v.judgeExtraction event).judgeBarriers = w at c same ⊢
  have h := judgeSirens_sirensSettle s w (c.clock.trans front.clock) (c.setup.trans front.setup) (c.peers.trans front.peers)
    (c.start.trans front.start) (by rw [same, sirens]) fun o => by rw [same, c.zones]; exact units o
  exact sirensSettle_forth h (fillOnChange_consumes _) (by rw [fillOnChange_frame])

/-- R38: FAN_FAULT rises with a view that comes to carry a clash mark, and no other flag rises. -/
theorem chooseViews_flagged (s : State) (a : Attention) : s.chooseViews.flagged a = true ↔ s.flagged a = true ∨
    (a = .fanFault ∧ ∃ d : System, s.chooseViews.views[d].clash = true ∧ s.views[d].clash = false) := by
  have any : ((indexes 4).any fun d => s.chooseViews.views[d].clash && !s.views[d].clash) = true ↔
      ∃ d : System, s.chooseViews.views[d].clash = true ∧ s.views[d].clash = false := by
    simp only [List.any_eq_true, mem_indexes, true_and, Bool.and_eq_true, Bool.not_eq_true']
  have flags : s.chooseViews.flags = if (indexes 4).any fun d => s.chooseViews.views[d].clash && !s.views[d].clash then
      s.flags ||| Attention.fanFault.mask else s.flags := rfl
  rw [← any]
  unfold State.flagged
  rw [flags]
  split
  · rename_i k
    rw [flagged_raised, k]
    simp only [and_true]
  · rename_i k
    simp only [k, and_false, or_false, Bool.false_eq_true]

/-- R33, R38: the records and the flags that the zone picture and the views bring. -/
theorem front_files (s : State) : s.front.record = s.record.fileAll s.clock (s.latchRecords s.front) ∧
    ∀ a : Attention, s.front.flagged a = true ↔ s.flagged a = true ∨
      (a = .fanFault ∧ ∃ d : System, s.front.views[d].clash = true ∧ s.views[d].clash = false) :=
  ⟨rfl, chooseViews_flagged s.recomposeOwn.recomputeZones⟩

theorem judgeSirens_slots (s : State) : SameSlots s s.judgeSirens := by
  rw [judgeSirens_frame]
  generalize s.judgeSirens.sirens = x
  exact ⟨rfl, rfl, rfl⟩

theorem front_slots (s : State) : SameSlots s s.front := by
  rw [front_beside]
  generalize s.front = v
  exact ⟨rfl, rfl, rfl⟩

theorem settleWith_refills (s : State) (event : List Cause) : s.refills (s.settleWith event) := by
  rw [settleWith_front]
  have slots := front_slots s
  have clock := (front_follows s).clock
  generalize s.front = v at slots clock ⊢
  have c0 := judgeExtraction_consumes v event
  have same0 : SameSlots v (v.judgeExtraction event) := (judgeExtraction_same v event).2.2
  generalize v.judgeExtraction event = w at c0 same0 ⊢
  have c1 := judgeBarriers_consumes w
  have same1 : SameSlots w w.judgeBarriers := (judgeBarriers_sameFan w).2.2.2.2.2
  generalize w.judgeBarriers = b at c1 same1 ⊢
  have c2 := judgeSirens_consumes b
  have same2 := judgeSirens_slots b
  generalize b.judgeSirens = x at c2 same2 ⊢
  exact refills_back (fillOnChange_refills x) (slots.trans (same0.trans (same1.trans same2)))
    ((c0.trans (c1.trans c2)).clock.trans clock)

/-- The records and the flags that an event's consequences bring, each with its cause. -/
theorem settleWith_files (s : State) (event : List Cause) :
    (∀ a : Attention, (s.settleWith event).flagged a = true ↔ s.flagged a = true ∨ s.bringsFlag (s.settleWith event) a) ∧
    ∃ fs, (s.settleWith event).record =
        s.record.fileAll s.clock (s.latchRecords (s.settleWith event) ++ fs) ∧
      (∀ f ∈ fs, s.bringsRecord (s.settleWith event) f) ∧ s.phaseRecords (s.settleWith event) fs := by
  rw [settleWith_front]
  have front := front_follows s
  have files := front_files s
  have beside := front_beside s
  have barriers := front_barriers s
  generalize s.front = v at front files beside barriers ⊢
  have flooded := (judgeExtraction_settles v event).2
  have c0 := judgeExtraction_consumes v event
  have same0 := (judgeExtraction_same v event).1
  generalize v.judgeExtraction event = w at flooded c0 same0 ⊢
  have rel := releaseBarriers_released w
  have queue := considerQueue_frame w.releaseBarriers
  have e : w.judgeBarriers = w.releaseBarriers.considerQueue := rfl
  have same := judgeBarriers_sameFan w
  have sirens := judgeSirens_frame w.judgeBarriers
  have fill := fillOnChange_frame w.judgeBarriers.judgeSirens
  have c1 := (judgeBarriers_consumes w).trans ((judgeSirens_consumes _).trans (fillOnChange_consumes _))
  have phase : w.judgeBarriers.judgeSirens.fillOnChange.extraction = w.extraction := by
    rw [fill, sirens]; exact same.2.2.1
  have flags : w.judgeBarriers.judgeSirens.fillOnChange.flags = w.flags := by
    rw [fill, sirens]; exact same.2.2.2.2.1
  have record : w.judgeBarriers.judgeSirens.fillOnChange.record = w.releaseBarriers.record := by
    rw [fill, sirens, e, queue]
  generalize w.judgeBarriers.judgeSirens.fillOnChange = t at c1 phase flags record ⊢
  clear e queue same sirens fill
  have c := c0.trans c1
  have start : v.extraction.phase = s.extraction.phase := by rw [beside]; rfl
  have cuts (o : Output) : s.floodCuts t (s.extraction.phase.passed t.extraction.phase) o ↔
      v.cutAt (fun d => (v.extraction.phase.passed w.extraction.phase).map (v.floodIn d)) o := by
    have system : v.valveSystem o = s.valveSystem o := by rw [beside]; rfl
    have flood : v.flood = s.flood := by rw [beside]; rfl
    have valves : v.valves = s.valves := by rw [beside]; rfl
    unfold State.floodCuts State.cutAt
    simp only [system, flood, valves, front.role, front.setup, front.clock, start, phase,
      show t.floodIn (s.valveSystem o) = v.floodIn (s.valveSystem o) from funext fun q => floodIn_keeps c.stays _ q]
  have filing (o : Output) : cutOffFiling v.clock o v.valves[o] =
      ⟨.cutOff, octet o.val, sat16 (s.valves[o].openTime s.clock / 1000)⟩ := by
    have valves : v.valves = s.valves := by rw [beside]; rfl
    rw [front.clock, valves]
    rfl
  have due (o : Output) : w.due o = s.releaseDue t o := by
    unfold State.due State.releaseDue State.barrier
    rw [c1.operating, c1.role, c1.releaseHolds, same0, barriers]
  have feedback (o : Output) : w.feedback o = s.feedback o := by
    unfold State.feedback
    rw [c0.inputs, front.inputs]
  refine ⟨fun a => ?_, ?_⟩
  · have k := flooded.flags a
    unfold State.flagged at k ⊢
    rw [flags, k]
    have k := files.2 a
    unfold State.flagged at k
    rw [k]
    unfold State.bringsFlag
    simp only [cuts, c.views, or_assoc]
  · obtain ⟨fs, r, from_, phases⟩ := flooded.files
    obtain ⟨gs, r', from'⟩ := rel.files
    have latch : s.latchRecords t = s.latchRecords v := by unfold State.latchRecords; rw [c.zones]
    have none : (gs.filter fun f => f.kind == .fanPhase) = [] := List.filter_eq_nil_iff.mpr fun f m => by
      obtain ⟨p, _, _, _, rfl⟩ := from' f m
      exact fun h => nomatch h
    refine ⟨fs ++ gs, ?_, fun f m => ?_, ?_⟩
    · rw [record, r', r, files.1, c0.clock, front.clock, latch, ← fileAll_append, ← fileAll_append]
    · rcases List.mem_append.mp m with m | m
      · rcases from_ f m with k | ⟨o, x, k⟩
        · refine .inl ⟨k, fun h => ?_⟩
          have y := List.mem_filter (p := fun f : Filing => f.kind == .fanPhase) |>.mpr ⟨m, by rw [k]; rfl⟩
          rw [start, ← phase, h, passed_still] at phases
          rw [List.map_eq_nil_iff.mp phases] at y
          cases y
        · exact .inr (.inl ⟨o, (cuts o).mpr x, by rw [k, filing]⟩)
      · obtain ⟨p, _, d, f', k⟩ := from' f m
        exact .inr (.inr ⟨p, by rw [← due]; exact d, by rw [← feedback]; exact f', k⟩)
    · unfold State.phaseRecords
      rw [List.filter_append, none, List.append_nil, phases, start, phase]

/-- What settling an event comes to, whole. -/
theorem settleWith_settledFrom (s : State) (event : List Cause) : s.settledFrom (s.settleWith event) event := by
  have f := settleWith_follows s event
  have c := judgeConsumers_consumes s.recomposeOwn.recomputeZones.chooseViews event
  have z := settleWith_zones s event
  have p := (recomposeOwn_follows s).trans (recomputeZones_follows _)
  have own : (s.settleWith event).own = s.recomposeOwn.own := c.own
  have live : (s.settleWith event).liveLevels = s.recomposeOwn.liveLevels := by
    unfold State.liveLevels State.contributions
    rw [own, f.setup, f.peers]
    rfl
  exact
    { apart := f.apart
      own := (settleWith_own s event).trans f.composedLevel.symm
      live := by rw [z, live]; rfl
      latched := fun w => by
        rw [z]
        simp only [State.recomputeZones, Fin.getElem_fin, tabulate_at]
        rfl
      views := by rw [settleWith_views, f.chosenView, p.chosenView]
      flags := (settleWith_files s event).1
      record := (settleWith_files s event).2
      fan := settleWith_fanSettles s event
      barriers := settleWith_barriersSettle s event
      sirens := settleWith_sirensSettle s event
      refills := settleWith_refills s event
      report := settleWith_report s event }

theorem settle_settledFrom (s : State) : s.settledFrom s.settle := settleWith_settledFrom s []

end Sys2Proof.Machine
end

