-- ==== Sys2Proof/Tests/Slice0.lean ====
section
/-! SUPPORT. The author's tests: ill-formed commands that the check refuses, the spec's worked figures, one-step tests, and
for each statement of Obligations.lean states and operands that meet its hypotheses. -/

namespace Sys2Proof.Tests

open Sys2Proof Sys2Proof.Machine

-- One theorem at a time: each waiting elaboration thread takes a large stack.
set_option Elab.async false

/-! ## Ill-formed commands -/

def shortNotice : Received := ⟨0, 1, [0x20], 0⟩
def longNotice : Received := ⟨0, 1, List.replicate 25 0, 0⟩

theorem test_image_of_255_octets_refused : (Instr.imageReadComplete 0 (List.replicate 255 0)).wellFormed = false := by
  decide +kernel
theorem test_length_octet_24_refused : (Instr.noticeLengthError 0 .a 24).wellFormed = false := by decide
theorem test_call_payload_25_refused : (Instr.callNotice 0 .a longNotice).wellFormed = false := by decide
theorem test_spark_payload_25_refused : (Instr.sparkNotice 0 .a longNotice).wellFormed = false := by decide
theorem test_key_payload_25_refused : (Instr.keyNotice 0 .a longNotice).wellFormed = false := by decide
theorem test_state_payload_25_refused : (Instr.stateNotice 0 .a longNotice).wellFormed = false := by decide
theorem test_check_payload_25_refused : (Instr.checkError 0 .a 5 longNotice).wellFormed = false := by decide
theorem test_peer_zero_refused : (Instr.peerLost 0 0).wellFormed = false := by decide
theorem test_single_zero_refused : (Instr.singleLine 0 0).wellFormed = false := by decide
theorem test_bit_180_refused : (Instr.txError 0 ⟨.a, 180⟩).wellFormed = false := by decide
theorem test_assigned_request_refused : (Instr.unknown 0 9 0).wellFormed = false := by decide
theorem test_boundary_off_the_second_refused : (Instr.bucketBoundary 1500).wellFormed = false := by decide
theorem test_call_payload_1_accepted : (Instr.callNotice 0 .a shortNotice).wellFormed = true := by decide

/-! ## Small states -/

def open2 : BranchEntry := ⟨0, none, 0, 3000, 64⟩
def feeder : BranchEntry := ⟨0, some 0, 150, 400, 48⟩

/-- Station 11: a valve, a magnet, a damper and a siren, and an enabled channel 2, with the branches of Table 4.6. -/
def plant : Setup :=
  { Setup.blank with
    number := 11, zone := 4, system := 0
    roles := ⟨true, true, true, true, false⟩
    outputs := #v[.valve 0 270 600, .magnet 16 20, .damper 16 1 20 0, .siren 16]
    channels := Vector.replicate 4 ⟨true, 2, 316, 0⟩
    branches := put (put Setup.blank.branches 0 open2) 2 feeder
    timing := ⟨20, 150, 200, 80, 5000⟩
    valves := ⟨400, 60, 300, 250⟩
    sensing := ⟨3600, 10, 2, 15⟩
    damperWait := 40, resound := 300, supplyLow := 5, supplyResume := 6 }

/-- Station 3: a fan station with its contactor, its gate, a shutter and a siren. -/
def fanPlant : Setup :=
  { Setup.blank with
    number := 3, zone := 5, system := 0
    roles := ⟨false, false, true, true, true⟩
    outputs := #v[.fanContactor, .abortGate, .shutter 96 1 20, .siren 96]
    extraction := ⟨40, 120, 30, 30, 1500, 120, 20, 96⟩
    resound := 300, supplyLow := 5, supplyResume := 6 }

/-- A station in a start phase at a clock reading, everything else as at power-on. -/
def station (u : Setup) (p : StartPhase) (now : Time) : State :=
  { State.reset with
    clock := now
    setup := u
    start := { Start.powerOn with phase := p, readBegan := none, listenStart := some ⟨0, none⟩ } }

def fan (p : FanPhase) (now : Time) : State :=
  { station fanPlant .operating now with extraction := { Extraction.powerOn with phase := p } }

/-- A station whose line A is idle and may receive. -/
def listening (u : Setup) (p : StartPhase) (now : Time) : State :=
  { station u p now with lineA := { LineInterface.powerOn with stage := .idle } }

/-- A station whose pulse on channel 2 began at 100. -/
def pulsing (width : Time) : State :=
  let s := station plant .operating (100 + width)
  s.withChannel 2 { SparkChannel.powerOn with pulse := some 100 }

/-- What a command leaves; a command that did not answer a next state would leave the power-on state. -/
def result (c : Instr) (s : State) : State :=
  match exec c s with
  | .next t => t
  | .fault _ | .refused _ => State.reset

/-- A notice whose check is right. -/
def sent (c : BitVec 3) (sender : BitVec 5) (start : Time) (payload : List Byte) : Received :=
  ⟨start, sender, payload, crc (covered c sender payload)⟩

def quietState : StateContent :=
  ⟨⟨true, true, false, false, false⟩, 4, 0, .quiet, false, false, false, false, false, false, .standby, 0, 0, 0, 0, 0, .none,
    0⟩

/-- A PRESENT, state-known peer last heard on line A at an instant. -/
def heardPeer (at_ : Time) (c : StateContent) : Peer :=
  { Peer.powerOn with
    presence := .present, heardA := some ⟨at_, none⟩, since := some ⟨at_, none⟩, known := true, content := some c
    received := some ⟨at_, none⟩ }

/-! ## The spec's worked figures -/

/-- Table 1.7: the precedence octets of stations 12 (STATE) and 20 (SPARK). -/
theorem test_precedence_of_table_1_7 : precedence classState 12 = 108 ∧ precedence classSpark 20 = 52 := by decide

/-- Table 1.7: station 12's STATE loses to station 20's SPARK in data bit 6, the second after the start bit. -/
theorem test_contention_of_table_1_7 :
    let state : Notice := .state quietState
    let spark : Notice := .spark 0 ⟨⟨0, none⟩, 0, 1, false, false, 2, 316⟩ 0
    state.heardAs 12 (List.zipWith (fun x y => wired [x, y]) (lineBits (state.octets 12)) (lineBits (spark.octets 20))) =
      .contentionLost 2 ∧ spark.bitTimes 20 = 110 ∧ state.bitTimes 12 = 180 := by decide +kernel

/-- R18: a stop bit that is dominant, and a next start bit that is recessive, are framing errors. -/
theorem test_framing :
    receive (List.replicate 10 false) = .framingError ∧ receive (octetBits 0x14 ++ [true]) = .framingError ∧
    receive (lineBits [0x14, 25]) = .lengthError 25 := by decide +kernel

/-- Case 1 (4.9.1): the report timed through the feeder and the trunk gets the window [100617, 101372]. -/
def case1 : Report := ⟨.lineA, 20, 2, 316, 99963, 0, false⟩

theorem test_case_1 :
    plant.compute 100005 (some ⟨.running, 240, 400, false, 0⟩) case1 0 270 600 = .timed 100617 101372 false false := by
  decide
/-- Case 1, the other line's copy: the same open, and the close 15 ms later. -/
theorem test_case_1_copy :
    plant.compute 100007 (some ⟨.running, 240, 400, false, 0⟩) { case1 with span := 15 } 0 270 600 =
      .timed 100617 101387 false false := by decide
/-- Case 2 (4.9.2): the fan has slowed. -/
theorem test_case_2 :
    plant.compute 100005 (some ⟨.running, 90, 400, false, 0⟩) case1 0 270 600 = .flood 100005 105005 .belowFloor := by
  decide
/-- Case 2: the fan has entered RUNDOWN. -/
theorem test_case_2_rundown :
    plant.compute 100005 (some ⟨.rundown, 90, 400, false, 0⟩) case1 0 270 600 = .flood 100005 105005 .fanPhase := by
  decide
/-- Case 3 (4.9.3): a report that waited for the line. -/
theorem test_case_3 :
    plant.compute 101605 (some ⟨.running, 240, 400, false, 0⟩) { case1 with t0 := 101400 } 0 270 600 =
      .timed 102054 102809 false false := by decide
/-- Case 4 (4.9.4): a short path with no hold is MISSED by 52 ms. -/
theorem test_case_4 :
    { plant with timing := ⟨20, 150, 0, 80, 5000⟩ }.compute 200005 (some ⟨.running, 240, 400, false, 0⟩)
      ⟨.lineA, 20, 0, 500, 199900, 0, false⟩ 0 510 600 = .missed 52 := by decide

/-- 8.6.1: the three corrections of the worked example. -/
theorem test_cadence_of_8_6_1 :
    correctedPhase 2000 1709 1620 = 1670 ∧ correctedPhase 2000 1820 1781 = 1820 ∧ correctedPhase 2000 100 1900 = 1950 := by
  decide

/-- R155: 20.4 V is level 4 and 21.0 V is level 6. -/
theorem test_supply_levels : supplyLevel 20400 = 4 ∧ supplyLevel 21000 = 6 ∧ supplyLevel 17999 = 0 := by decide

/-- Table 6.4: 24 pulses in 250 ms at 40 sixteenths are 240 dm/s, and 3 are 30. -/
theorem test_velocities_of_table_6_4 : fanPlant.sampleVelocity 24 = 240 ∧ fanPlant.sampleVelocity 3 = 30 := by decide

/-- R4: its three steps worked for one zero octet take the register from FFFF to E1F0. -/
theorem test_check_of_zero_octet : crc [0] = 0xE1F0 := by decide

/-! ## One step each -/

/-- Table 9.4: an active call point makes the own level EVACUATE and latches the zone. -/
theorem test_call_press :
    (result (.callPress 88) (station plant .listen 87)).zoneLevel 4 = .evacuate := by decide +kernel
/-- R142: the siren that covers the zone sounds STEADY at once. -/
theorem test_call_press_steady :
    ((result (.callPress 88) (station plant .operating 87)).siren 3).pattern = .steady := by decide +kernel
/-- R18: a first start bit that reads back recessive has begun no notice, and the line is idle. -/
theorem test_error_at_first_start_bit :
    ((result (.txError 9001 ⟨.a, 0⟩)
      { listening plant .operating 9000 with
        lineA := { LineInterface.powerOn with
          stage := .assembling 8990, place := some ⟨.state quietState, false, 8990⟩ } }).line .a).stage = .idle := by
  decide +kernel
/-- Tables 6.4 and 6.5: START accepted at 950000 runs its grace to 970000. -/
theorem test_start_accepted :
    (result (.startPress 950000) (fan .standby 949999)).extraction.timer = some 970000 := by decide +kernel
/-- Table 6.5: the start grace expires, and the gate timer runs to 971500. -/
theorem test_start_grace :
    let s := fan .starting 969999
    (result (.startGraceExpiry 970000) { s with extraction := { s.extraction with timer := some 970000 } }).extraction.timer =
      some 971500 := by decide +kernel
/-- R110: STOP with the gate feedback already active passes through DIVERTING to RUNDOWN. -/
theorem test_stop_with_gate_active :
    (result (.stopPress 20) ((fan .running 10).setFeedback 1 true)).extraction.phase = .rundown := by decide +kernel
/-- R116: a START press in STOPPED with the condition FIRE standing is refused, and counted. -/
theorem test_start_refused :
    let s := fan .stopped 10
    (result (.startPress 20)
      { s with extraction := { s.extraction with conditions := ⟨true, false, false⟩ } }).extraction.refusals = 1 := by
  decide +kernel
/-- R49, R59: a spark of 1 ms on channel 2 fills the slot of each line. -/
theorem test_spark_fills_slot :
    ((result (.sensorPulseEnd 101 2 100) (pulsing 1)).lineB.slots.spark[(2 : Channel)]).map SparkReport.count = some 1 := by
  decide +kernel
/-- Table 3.4: a pulse of exactly 8 ms is noise. -/
theorem test_pulse_of_8_ms_is_noise :
    ((result (.sensorPulseEnd 108 2 800) (pulsing 8)).channel 2).noise = 1 := by decide +kernel
/-- R69, R78: with no fan view the spark floods the valve, whose window opens at once. -/
theorem test_local_spark_floods :
    ((result (.sensorPulseEnd 101 2 100) (pulsing 1)).valve 0).state = .opening := by decide +kernel
/-- R25: the first notice from station 20 makes its entry PRESENT. -/
theorem test_first_notice :
    ((result (.stateNotice 60 .a (sent classState 20 50 quietState.payload)) (listening plant .listen 59)).peers[20]).presence =
      .present := by decide +kernel
/-- R160: a TAKE_RECORD with no entry held answers EMPTY. -/
theorem test_take_record_empty : (result (.takeRecord 5 0) State.reset).port.response = [3] := by decide +kernel
/-- R158: a request octet that is none of the nine is UNKNOWN. -/
theorem test_unknown_request : (result (.unknown 5 0 0) State.reset).port.response = [1] := by decide +kernel
/-- R149: with an empty queue a millisecond passes. -/
theorem test_tick_advances : (match step State.reset with
    | .next t => t.clock
    | .fault _ | .refused _ => 0) = 1 := by decide +kernel

/-! ## States and operands that meet the hypotheses of the statements -/

/-- The octets of an image of station 1 before its check octets; the usable image, and one with wrong check octets. -/
def imageBody : List Byte := [0x2C, 1] ++ List.replicate 252 0
def goodImage : List Byte := imageBody ++ be16 (crc imageBody).toNat
def badImage : List Byte := imageBody ++ be16 ((crc imageBody).toNat + 1)

theorem checkOctets (n : Nat) : image16 (imageBody ++ be16 n) 254 = n % 65536 := by
  have h : imageBody.length = 254 := by decide +kernel
  simp [image16, image8, h, be16, octet]
  omega

theorem checkedOctets (n : Nat) : (imageBody ++ be16 n).take 254 = imageBody :=
  List.take_left' (by decide +kernel)

theorem good_check : checkFault goodImage = none := by
  have h := (crc imageBody).isLt
  simp only [checkFault, goodImage, checkedOctets, checkOctets]
  rw [if_pos (by omega)]

theorem bad_check : checkFault badImage = some 254 := by
  have h := (crc imageBody).isLt
  simp only [checkFault, badImage, checkedOctets, checkOctets]
  rw [if_neg (by omega)]

/-- Table 9.2, MOTOR_BARRIERS: outputs 0 and 2 are motor barriers of the same rank, and the second offends. R153: a resume
level of 4 beside a low level of 5. -/
theorem test_image_tests :
    motorFault ([0x2C, 1, 0, 0] ++ [5, 0, 0, 1, 9, 0, 0, 0] ++ List.replicate 8 0 ++ [6, 0, 0, 1, 9, 0, 0, 0]) = some 20 ∧
    (supplyResumeItem (List.replicate 199 0 ++ [5, 4])).used = 6 ∧
    ⟨.configClamped, 200, 4⟩ ∈ clampFilings (List.replicate 199 0 ++ [5, 4]) := by decide +kernel

def timed (s : State) (deadline : Time) : State := { s with start := { s.start with phaseTimer := some deadline } }

theorem witness_StepTakesFrontCommand :
    { State.reset with pending := [.callPress 1, .callRelease 2] }.pending = .callPress 1 :: [.callRelease 2] ∧
      State.reset.pending = [] := by decide +kernel

theorem witness_ImageReadFails :
    (State.reset.start.phase = .load ∧ State.reset.start.readBegan = some 0 ∧ State.reset.start.reads < 3) ∧
    ( let s := { State.reset with start := { Start.powerOn with reads := 3, readBegan := some 220 } }
      s.start.phase = .load ∧ s.start.readBegan = some 220 ∧ 3 ≤ s.start.reads) ∧
    ( let s := { State.reset with start := { Start.powerOn with readBegan := none, retry := some 110 } }
      s.start.phase = .load ∧ s.start.retry = some 110 ∧ reached 110 110 = true) := by decide +kernel

/-- R150: a memory that does not answer its bus address, one that refuses the internal address, a read under way, one that
stands after 100 ms, and one whose last octet comes in time. -/
theorem witness_ImageReadFails_bus :
    let ack (n : Nat) : List BusAnswer := List.replicate n ⟨true, 7⟩
    (readWith [] imageRead (⟨false, 0⟩ :: ack 1)).command? 0 1 = some (.imageReadFailed 1) ∧
    (readWith [] imageRead (⟨true, 0⟩ :: ⟨false, 0⟩ :: ack 1)).command? 0 1 = some (.imageReadFailed 1) ∧
    (readWith [] imageRead (ack 257)).command? 0 99 = none ∧
    (readWith [] imageRead (ack 257)).command? 0 100 = some (.imageReadFailed 100) ∧
    (readWith [] imageRead (ack 258)).command? 0 100 = some (.imageReadComplete 100 (List.replicate 256 7)) ∧
    (readWith [] imageRead (ack 258)).command? 0 101 = some (.imageReadFailed 101) := by decide +kernel

theorem witness_ImageReadCompletes :
    (State.reset.start.phase = .load ∧ State.reset.start.readBegan = some 0 ∧ ((100 : Time) - 0).toNat ≤ 100) ∧
    (goodImage.length = 256 ∧ structuralError goodImage = none) ∧
    (badImage.length = 256 ∧ structuralError badImage = some (.check, 254)) := by
  refine ⟨by decide +kernel, ⟨by decide +kernel, ?_⟩, by decide +kernel, by simp [structuralError, bad_check]⟩
  simp only [structuralError, good_check]
  decide +kernel

theorem witness_ListenEnds :
    let s := timed (station fanPlant .listen 2037) 2038
    s.start.phase = .listen ∧ s.start.phaseTimer = some 2038 ∧ reached 2038 2038 = true ∧ s.setup.roles.fan = true ∧
      s.extraction.mode = .off ∧ s.extraction.window = none := by decide +kernel

/-- Zone 4, which every output of plant watches or covers, has latched FIRE. -/
def burning (s : State) : State := { s with zones := ⟨s.zones.live, put s.zones.latched 4 .fire⟩ }

theorem witness_SettleEnds :
    let s := (burning (timed (station plant .settle 5037) 5038)).setFeedback 0 true
    (s.start.phase = .settle ∧ s.start.phaseTimer = some 5038 ∧ reached 5438 5038 = true ∧ s.barriers.queue = []) ∧
    ((s.role 0).isValve = true ∧ (s.takeAt 5438).stuckAtEntry 0 = true) ∧
    ((s.role 1).isBarrier = true ∧ (result (.settleEnd 5438) s).releaseHolds 1 = true) ∧
    ((s.role 3).isSiren = true ∧ hasZone (s.role 3).covered 4 = true ∧ (s.zones.latched[4]).atLeast .fire = true) := by
  decide +kernel

theorem witness_SettleEnds_quiet_and_fan :
    let s := timed (station fanPlant .settle 5037) 5038
    let s := { s with extraction := { s.extraction with mode := .continuous } }
    (s.start.phase = .settle ∧ s.start.phaseTimer = some 5038 ∧ reached 5038 5038 = true ∧ s.barriers.queue = []) ∧
    ((s.role 2).isBarrier = true ∧ (result (.settleEnd 5038) s).releaseHolds 2 = false) ∧
    (s.hasFan = true ∧ s.extraction.phase = .standby ∧ s.extraction.mode ≠ .off) := by decide +kernel

/-- A valve whose first window has opened, and a contactor feedback that has stood for 2000 ms with the contactor off. -/
theorem witness_SettleEnds_judged :
    ( let s := timed (station plant .settle 5037) 5038
      let s := s.withValve 0 { Valve.powerOn with schedule := [⟨⟨5000, none⟩, ⟨9000, none⟩, ⟨false, false, false⟩⟩] }
      ((result (.settleEnd 5038) s).valve 0).state = .opening ∧
        ((result (.settleEnd 5038) s).valve 0).confirmTimer = some 5438) ∧
    ( let s := timed (station fanPlant .settle 5037) 5038
      let s := { s with inputs := { s.inputs with
        feedback := put s.inputs.feedback 0 ⟨⟨true, true, none⟩, some ⟨3038, none⟩⟩ } }
      (result (.settleEnd 5038) s).extraction.contactor = ⟨none, true⟩) := by decide +kernel

/-- A station with a content of its slots on line A, which is idle and has sent its first STATE. -/
def sending (slots : Slots) : State :=
  { station plant .operating 9000 with
    lineA := { LineInterface.powerOn with stage := .idle, firstState := true, slots := slots } }

def noSlots : Slots := LineInterface.powerOn.slots
def report20 : SparkReport := ⟨⟨8000, none⟩, 15, 2, false, true, 2, 316⟩

theorem witness_AttemptBegins :
    ((sending { noSlots with call := some 4 }).permitted = true ∧
      ((sending { noSlots with call := some 4 }).line .a).stage = .idle ∧
      ((sending { noSlots with call := some 4 }).line .a).place = none ∧
      ((sending { noSlots with call := some 4 }).line .a).dueSlot = some .call ∧
      ((sending { noSlots with call := some 4 }).line .a).slots.call = some 4) ∧
    (((sending { noSlots with state := some quietState }).line .a).dueSlot = some .state ∧
      ((sending { noSlots with state := some quietState }).line .a).slots.state = some quietState) ∧
    (((sending { noSlots with silence := some 255 }).line .a).dueSlot = some .silence) ∧
    (((sending { noSlots with reset := some 0 }).line .a).dueSlot = some .reset) ∧
    (((sending { noSlots with spark := put noSlots.spark 3 (some report20) }).line .a).dueSlot = some (.spark 3) ∧
      ((sending { noSlots with spark := put noSlots.spark 3 (some report20) }).line .a).slots.spark[(3 : Channel)] =
        some report20) := by decide +kernel

theorem witness_SendQueueChooses :
    ( let x := { LineInterface.powerOn with slots := { noSlots with state := some quietState } }
      x.txState = .ok ∧ x.firstState = false) ∧
    ( let x := { LineInterface.powerOn with firstState := true, slots := { noSlots with call := some 4, silence := some 1 } }
      x.txState = .ok ∧ x.firstState = true ∧ x.slots.call.isSome = true) ∧
    ( let x := { LineInterface.powerOn with
        firstState := true, slots := { noSlots with spark := put noSlots.spark 2 (some report20) } }
      x.slots.call = none ∧ x.slots.spark[(2 : Channel)].isSome = true ∧
        ∀ d : Channel, d < 2 → x.slots.spark[d] = none) ∧
    ( let x := { LineInterface.powerOn with firstState := true, slots := { noSlots with silence := some 1, reset := some 1 } }
      (∀ c : Channel, x.slots.spark[c] = none) ∧ x.slots.silence.isSome = true) ∧
    ( let x := { LineInterface.powerOn with firstState := true, slots := { noSlots with reset := some 1 } }
      x.slots.silence = none ∧ x.slots.reset.isSome = true) ∧
    ( let x := { LineInterface.powerOn with firstState := true, slots := noSlots }
      x.slots.silence = none ∧ x.slots.reset = none) ∧
    ({ LineInterface.powerOn with txState := .failed, probeDue := true }.txState = .failed) := by decide +kernel

def attempting (x : LineInterface) : State :=
  { station plant .operating 9000 with
    lineA := { x with stage := .assembling 8990, place := some ⟨.state quietState, false, 8990⟩ } }

theorem witness_AttemptEnds :
    ( let s := attempting { LineInterface.powerOn with consecutive := 14 }
      (s.line .a).place = some ⟨.state quietState, false, 8990⟩ ∧ (s.line .a).consecutive < 15) ∧
    ( let s := attempting { LineInterface.powerOn with consecutive := 15 }
      (s.line .a).place = some ⟨.state quietState, false, 8990⟩ ∧ (s.line .a).txState = .ok ∧
        15 ≤ (s.line .a).consecutive) ∧
    ( let s := attempting { LineInterface.powerOn with consecutive := 16, txState := .failed }
      (s.line .a).place = some ⟨.state quietState, false, 8990⟩ ∧ (s.line .a).txState = .failed) := by decide +kernel

theorem witness_ReturnedNoticeCombines :
    noSlots.spark[(0 : Channel)] = none ∧
    (put noSlots.spark 1 (some report20))[(1 : Channel)] = some report20 ∧
    (265 : Nat) = min 4095 ((⟨7750, none⟩ : Instant).elapsed (report20.first.reading + BitVec.ofNat 32 report20.span)) := by
  decide +kernel

theorem witness_LineTimers :
    ( let s := { station plant .operating 9000 with
        lineA := { LineInterface.powerOn with txState := .failed, probeTimer := some 9001 } }
      (s.line .a).txState = .failed ∧ (s.line .a).probeTimer = some 9001 ∧ reached 9001 9001 = true) ∧
    ((station plant .operating 9000).line .b).stage = .busy ∧ ((station plant .operating 9000).line .b).place = none ∧
    ((listening plant .operating 9000).line .a).stage = .idle ∧
    ( let s := { station plant .operating 9000 with assembler := ⟨some 9001, none⟩ }
      s.assembler.interval = some 9001 ∧ reached 9001 9001 = true) := by decide +kernel

/-- R13: the hold clears with an attempt in the place, as the line was recessive for 40 bit times before it. -/
theorem test_round_hold_clears_under_attempt :
    let s := attempting { LineInterface.powerOn with roundHold := true }
    ((result (.stateRoundHoldClear 9000 .a) s).line .a).roundHold = false ∧
      ((result (.stateRoundHoldClear 9000 .a) s).line .a).place = (s.line .a).place := by decide +kernel

theorem witness_SampleAge :
    ( let s := { fan .running 9000 with extraction := { Extraction.powerOn with lastSample := some ⟨8750, none⟩ } }
      s.extraction.lastSample = some ⟨8750, none⟩ ∧ s.hasFan = true) ∧
    (fan .running 9000).extraction.lastSample = none ∧
    (let s := { fan .running 9000 with
        lineA := { LineInterface.powerOn with stage := .idle, firstState := true, slots := { noSlots with state := some quietState } } }
     s.hasFan = true ∧ s.permitted = true ∧ (s.line .a).stage = .idle ∧ (s.line .a).place = none ∧
       (s.line .a).dueSlot = some .state ∧ (s.line .a).slots.state = some quietState) := by decide +kernel

theorem witness_UnfinishedNoticesAreCounted :
    ((attempting LineInterface.powerOn).line .a).stage ≠ .busy ∧
    ((listening plant .listen 9).line .a).stage ≠ .busy ∧ ((listening plant .listen 9).line .a).place = none ∧
    24 < (25 : Byte).toNat ∧ crc (covered 0 shortNotice.sender shortNotice.payload) ≠ shortNotice.check ∧
    (crc (covered 5 (sent 5 9 0 [1]).sender (sent 5 9 0 [1]).payload) = (sent 5 9 0 [1]).check ∧ 4 ≤ (5 : BitVec 3).toNat) := by
  decide +kernel

theorem witness_NoticesAreTested :
    (((listening plant .load 9).line .a).stage ≠ .busy ∧ ((listening plant .load 9).line .a).place = none ∧
      (listening plant .load 9).started = false) ∧
    crc (covered classCall shortNotice.sender shortNotice.payload) ≠ shortNotice.check ∧
    ( let rx := sent classCall 9 0 [16]
      crc (covered classCall rx.sender rx.payload) = rx.check ∧ (readCall? rx.payload).isSome = false) ∧
    ( let rx := sent classKey 0 0 [1, 5]
      crc (covered classKey rx.sender rx.payload) = rx.check ∧ rx.sender = 0) ∧
    ( let rx := sent classSpark 9 0 [1, 5]
      crc (covered classSpark rx.sender rx.payload) = rx.check ∧ rx.payload.length ≠ 7) ∧
    ( let rx := sent classState 9 0 quietState.payload
      crc (covered classState rx.sender rx.payload) = rx.check ∧ rx.payload.length = 14 ∧ rx.sender ≠ 0 ∧
        (StateContent.read? rx.payload).isSome = true) := by decide +kernel

theorem witness_OwnNumberClashes :
    let s := listening plant .listen 9
    let rx := sent classCall 11 0 [4]
    (s.line .a).stage ≠ .busy ∧ (s.line .a).place = none ∧ s.started = true ∧ rx.sender ≠ 0 ∧
      rx.sender.toNat = s.setup.number.val ∧ crc (covered classCall rx.sender rx.payload) = rx.check ∧
      rx.payload.length = 1 ∧ (readCall? rx.payload).isSome = true := by decide +kernel

theorem witness_PeerIsHeard :
    Peer.powerOn.presence = .absent ∧ (heardPeer 5 quietState).presence = .present ∧
      { Peer.powerOn with presence := .lost }.presence = .lost := by decide +kernel

/-- What the statements about notices from a peer k ask of the line, the station and the notice. -/
def fromPeer (s : State) (c : BitVec 3) (rx : Received) (k : Station) (start : Time) : Bool :=
  decide ((s.line .a).stage ≠ .busy ∧ (s.line .a).place = none ∧ s.started = true ∧
    crc (covered c rx.sender rx.payload) = rx.check ∧ rx.sender.toNat = k.val ∧ k ≠ 0 ∧ k ≠ s.setup.number ∧
    (s.line .a).receiveStart rx.start = start)

theorem witness_CallNoticeTaken :
    fromPeer (listening plant .listen 100) classCall (sent classCall 20 90 [octet (4 : Zone).val]) 20 90 = true := by
  decide +kernel

/-- The siren sounds SLOW under the lead of station 20, for its own storm on channel 0. -/
def following : State :=
  let s := listening plant .operating 700500
  let s := { s with
    peers := put s.peers 20 (heardPeer 700000 { quietState with ownLevel := .storm, pattern := .slow, cadence := 1700 })
    sensing := { s.sensing with channels := put s.sensing.channels 0 { SparkChannel.powerOn with storm := some ⟨⟨1, none⟩, 0⟩ } } }
  { result (.heatInputChange 700500 false) { s with inputs := { s.inputs with heat := .settled true } } with
    lineA := s.lineA }

theorem witness_StateNoticeTaken :
    let c := { quietState with ownLevel := .storm, pattern := .slow, cadence := 1700 }
    let rx := sent classState 20 720000 c.payload
    fromPeer following classState rx 20 720000 = true ∧ StateContent.read? rx.payload = some c ∧
      following.sirens.slow.isSome = true ∧
      ((indexes 4).any fun o => (result (.stateNotice 720009 .a rx) following).operating &&
        ((result (.stateNotice 720009 .a rx) following).role o).isSiren &&
        ((result (.stateNotice 720009 .a rx) following).siren o).pattern == .slow) = true := by decide +kernel

theorem witness_StateNoticeTaken_fast :
    let c := { quietState with ownLevel := .fire, pattern := .fast, cadence := 499 }
    let rx := sent classState 20 720000 c.payload
    let s := { listening plant .operating 720000 with
      sirens := { State.reset.sirens with fast := some ⟨0, 719000⟩, fastLeader := some 20 } }
    fromPeer s classState rx 20 720000 = true ∧ StateContent.read? rx.payload = some c ∧
      s.sirens.fast = some ⟨0, 719000⟩ ∧
      ((indexes 4).any fun o => (result (.stateNotice 720009 .a rx) s).operating &&
        ((result (.stateNotice 720009 .a rx) s).role o).isSiren &&
        ((result (.stateNotice 720009 .a rx) s).siren o).pattern == .fast) = true := by decide +kernel

/-- R147: with no SLOW phase running, the STATE's own storm begins one, from the phase that its sender reports; station 11
then sounds it too, and leads as the lower number. -/
theorem witness_StateNoticeTaken_begins :
    let c := { quietState with ownLevel := .storm, pattern := .slow, cadence := 1700 }
    let rx := sent classState 20 720000 c.payload
    let s := listening plant .operating 720000
    fromPeer s classState rx 20 720000 = true ∧ StateContent.read? rx.payload = some c ∧ s.sirens.slow = none ∧
      (result (.stateNotice 720009 .a rx) s).sirens.slow = some ⟨1709, 720009⟩ ∧
      (result (.stateNotice 720009 .a rx) s).sirens.slowLeader = some 11 := by decide +kernel

theorem witness_CadenceCorrectionIsBounded :
    ((50 + 500 - 0) % 500 ≤ 50) ∧ (50 < (51 + 500 - 0) % 500 ∧ (51 + 500 - 0) % 500 ≤ 500 / 2) ∧
    (500 / 2 < (0 + 500 - 51) % 500 ∧ (0 + 500 - 51) % 500 < 500 - 50) ∧ (2000 - 50 ≤ (0 + 2000 - 50) % 2000) := by
  decide

def sparkOf (unserved : Bool) : SparkPayload := ⟨false, unserved, 2, 1, 316, 0, 37⟩

theorem witness_SparkNoticeTaken :
    let rx := sent classSpark 20 100000 (sparkOf false).payload
    fromPeer (listening plant .operating 100005) classSpark rx 20 100000 = true ∧
      SparkPayload.read? rx.payload = some (sparkOf false) ∧ (listening plant .operating 100005).permitted = true ∧
      (listening plant .operating 100005).role 0 = .valve 0 270 600 := by decide +kernel

theorem witness_SparkNoticeTaken_unserved :
    let u := { fanPlant with branches := plant.branches }
    let s := { listening u .operating 100005 with extraction := { Extraction.powerOn with phase := .running } }
    let rx := sent classSpark 20 100000 (sparkOf true).payload
    fromPeer s classSpark rx 20 100000 = true ∧ SparkPayload.read? rx.payload = some (sparkOf true) ∧
      s.permitted = true ∧ (sparkOf true).unserved = true ∧ s.hasFan = true ∧ s.branchServed (sparkOf true).branch = true ∧
      s.extraction.phase = .running := by decide +kernel

theorem witness_KeyDuplicateIgnored :
    let s := { listening plant .listen 100 with
      peers := put State.reset.peers 20 { heardPeer 50 quietState with reset := some 255 } }
    let rx := sent classKey 20 90 [octet KeyKind.reset.code, 255]
    fromPeer s classKey rx 20 90 = true ∧ rx.payload = [octet KeyKind.reset.code, 255] ∧
      (s.peers[20]).pressCount .reset = some 255 := by decide +kernel

theorem witness_KeyNoticeTaken :
    let s := { listening plant .listen 100 with
      peers := put State.reset.peers 20 { heardPeer 50 quietState with reset := some 255 } }
    let rx := sent classKey 20 90 [octet KeyKind.reset.code, 0]
    fromPeer s classKey rx 20 90 = true ∧ rx.payload = [octet KeyKind.reset.code, 0] ∧
      (s.peers[20]).pressCount .reset ≠ some 0 := by decide +kernel

theorem witness_QuietAndSingleLines :
    let s := { station plant .operating 2000 with peers := put State.reset.peers 20 (heardPeer 500 quietState) }
    (s.peers[20]).presence = .present ∧ (s.peers[20]).single = none ∧
      latestOf (s.peers[20]).since ((s.peers[20]).heard .b) = some ⟨500, none⟩ ∧
      1500 ≤ (⟨500, none⟩ : Instant).elapsed 2000 ∧
      ({ heardPeer 500 quietState with heardA := some ⟨1000, none⟩ }.unheardOn 2000 .a) = false := by decide +kernel

/-- R22: the tests of line A with station 20 heard on line B: no notice yet, the last one 1500 ms ago, and one too late. -/
theorem witness_QuietAndSingleLines_tests :
    let heard (at_ : Time) : State :=
      { station plant .operating 2000 with
        peers := put State.reset.peers 20 { heardPeer 1 quietState with heardB := some ⟨at_, none⟩ } }
    let last (at_ : Time) (s : State) : State := { s with lineA := { s.lineA with lastValid := some ⟨at_, none⟩ } }
    (heard 501).quietTests .a = true ∧ (last 500 (heard 501)).quietTests .a = true ∧
      (last 501 (heard 501)).quietTests .a = false ∧ (heard 500).quietTests .a = false ∧
      (heard 501).quietTests .b = false := by decide +kernel

theorem witness_PeerIsLost :
    let s := { station plant .operating 2000 with peers := put State.reset.peers 20 (heardPeer 500 quietState) }
    (s.peers[20]).presence = .present ∧ latestOf (s.peers[20]).heardA (s.peers[20]).heardB = some ⟨500, none⟩ ∧
      1500 ≤ (⟨500, none⟩ : Instant).elapsed 2000 := by decide +kernel

theorem witness_CallAndHeatInputs :
    let s := station plant .listen 87
    s.started = true ∧ s.inputs.call.state = false ∧
      { s with inputs := { s.inputs with call := .settled true } }.inputs.call.state = true ∧
      s.inputs.heat.state = !true := by decide +kernel

theorem witness_SilencePressed : (station plant .listen 87).started = true := by decide +kernel
theorem witness_ResetPressed : (station plant .settle 87).started = true := by decide +kernel

/-- A fan station whose views and flood states are those that its own phase gives. -/
def settledFan (p : FanPhase) (now : Time) : State :=
  let s := { fan p now with views := tabulate (fan p now).chosenView }
  { s with flood := tabulate s.inFlood }

theorem pictureStands_of (s : State)
    (h : (indexes 32).all (fun k =>
        (s.peers[k]).presence == .present || (!(s.peers[k]).known && (s.peers[k]).override.isNone)) = true ∧
      (s.own.level = s.composedLevel ∧ s.zones.live = s.liveLevels ∧
        ∀ z : Zone, (s.zones.live[z]).atLeast .fire = true → (s.zones.latched[z]).atLeast s.zones.live[z] = true) ∧
      (s.views = tabulate s.chosenView ∧ s.flood = tabulate s.inFlood) ∧
      s.sensing.unserved = s.anyUnserved ∧ s.extraction.conditions = s.conditionsNow) : s.pictureStands :=
  match h with
  | ⟨peers, ⟨own, live, latched⟩, ⟨views, flood⟩, unserved, conditions⟩ =>
    { own, live, latched, views, flood, unserved, conditions
      peers := by
        intro k
        have hk := List.all_eq_true.mp peers k (List.mem_finRange k)
        simpa [Peer.settled] using hk }

theorem settledFan_pictureStands : (settledFan .standby 20).pictureStands := pictureStands_of _ (by decide +kernel)

theorem settledStarting_pictureStands : (settledFan .starting 20).pictureStands := pictureStands_of _ (by decide +kernel)

theorem settledRunning_pictureStands : (settledFan .running 20).pictureStands := pictureStands_of _ (by decide +kernel)

/-- The fan stands STOPPED and the station's heat input has set FIRE in its zone, which its extraction watches. -/
def hotFan : State := result (.heatInputChange 20 true) (settledFan .stopped 19)

theorem hotFan_pictureStands : hotFan.pictureStands := pictureStands_of _ (by decide +kernel)

theorem witness_StartPressed :
    ((station plant .operating 87).started = true ∧ (station plant .operating 87).hasFan = false) ∧
    ((settledFan .standby 20).started = true ∧ (settledFan .standby 20).operating = true ∧
      (settledFan .standby 20).hasFan = true ∧ (settledFan .standby 20).extraction.phase = .standby ∧
      (settledFan .standby 20).extraction.conditions = ⟨false, false, false⟩) ∧
    ( let s := fan .stopped 20
      let s := { s with extraction := { s.extraction with conditions := ⟨false, true, false⟩ } }
      s.operating = true ∧ s.hasFan = true ∧ s.extraction.phase = .stopped ∧ s.extraction.conditions.any = true) ∧
    ((fan .rundown 20).operating = true ∧ (fan .rundown 20).extraction.phase ≠ .standby ∧
      (fan .rundown 20).extraction.phase ≠ .stopped) := by decide +kernel

/-- A press that is refused and one without effect, in states whose picture and barriers stand. -/
theorem witness_StartPressed_picture :
    (hotFan.started = true ∧ hotFan.operating = true ∧ hotFan.hasFan = true ∧ hotFan.extraction.phase = .stopped ∧
      hotFan.extraction.conditions.any = true ∧ hotFan.pictureStands ∧ hotFan.barriersFollow) ∧
    let s := settledFan .running 20
    s.extraction.phase ≠ .standby ∧ s.extraction.phase ≠ .stopped ∧ s.pictureStands ∧ s.barriersFollow :=
  ⟨⟨by decide +kernel, by decide +kernel, by decide +kernel, by decide +kernel, by decide +kernel, hotFan_pictureStands,
    fun _ => by decide +kernel⟩, by decide +kernel, by decide +kernel, settledRunning_pictureStands,
    fun _ => by decide +kernel⟩

theorem witness_StopPressed :
    (station plant .operating 87).hasFan = false ∧ ((fan .standby 20).operating = true ∧ (fan .standby 20).hasFan = true) ∧
    ((settledFan .running 20).started = true ∧ (settledFan .running 20).extraction.phase = .running) ∧
    (fan .stopped 20).extraction.phase = .stopped := by decide +kernel

theorem witness_ChannelEdges :
    ((station plant .listen 9).permitted && (station plant .listen 9).setup.channels[(2 : Channel)].enabled) = false ∧
    ((station plant .settle 9).permitted = true ∧ (station plant .settle 9).setup.channels[(2 : Channel)].enabled = true) ∧
    (((pulsing 250).channel 2).blinded = false ∧ ((pulsing 250).channel 2).pulse = some 100 ∧
      reached 350 (after 100 250) = true) ∧
    ( let s := (pulsing 0).withChannel 2 { SparkChannel.powerOn with blinded := true, lowSince := some 500 }
      (s.channel 2).blinded = true ∧ (s.channel 2).lowSince = some 500 ∧ reached 1500 (after 500 1000) = true) := by
  decide +kernel

theorem witness_PulseClasses :
    ((pulsing 8).permitted = true ∧ (pulsing 8).setup.channels[(2 : Channel)].enabled = true ∧
      ((pulsing 8).channel 2).blinded = false ∧ ((pulsing 8).channel 2).pulse = some 100) ∧
    ((9 : Nat) < 10 ∧ (800 : Nat) ≤ 1999 ∧ (1999 : Nat) < 2000 ∧ (6000 : Nat) ≤ 24999 ∧ (24999 : Nat) < 25000 ∧
      (2000 : Nat) ≤ 5999 ∧ (5999 : Nat) < 6000) := by decide +kernel

theorem witness_SparkTaken :
    ((pulsing 1).permitted = true ∧ (pulsing 1).setup.channels[(2 : Channel)].enabled = true ∧
      ((pulsing 1).channel 2).blinded = false ∧ ((pulsing 1).channel 2).pulse = some 100 ∧ (10 : Nat) ≤ 799 ∧
      (799 : Nat) < 800) ∧
    ((pulsing 1).hasValve = true ∧ (pulsing 1).role 0 = .valve 0 270 600) := by decide +kernel

theorem witness_SparkTaken_unserved :
    let u := { fanPlant with branches := plant.branches, channels := plant.channels }
    let s := { station u .operating 101 with extraction := { Extraction.powerOn with phase := .running } }
    let s := s.withChannel 2 { SparkChannel.powerOn with pulse := some 100 }
    s.permitted = true ∧ s.setup.channels[(2 : Channel)].enabled = true ∧ (s.channel 2).blinded = false ∧
      (s.channel 2).pulse = some 100 ∧ s.served 2 = false ∧ s.hasFan = true ∧
      s.branchServed s.setup.channels[(2 : Channel)].branch = true ∧ s.extraction.phase = .running := by decide +kernel

theorem witness_BucketBoundaryTurns :
    let s := (station plant .operating 5999).withChannel 2 { SparkChannel.powerOn with storm := some ⟨⟨2000, none⟩, 3⟩ }
    s.permitted = true ∧ (6000 : Time).toNat % 1000 = 0 ∧ s.sensing.lastBoundary ≠ some 6000 ∧
      s.setup.channels[(2 : Channel)].enabled = true ∧ (s.channel 2).storm = some ⟨⟨2000, none⟩, 3⟩ ∧
      (station fanPlant .operating 5999).setup.channels[(2 : Channel)].enabled = false := by decide +kernel

theorem witness_ChannelTimers :
    ( let s := (station plant .operating 5999).withChannel 2 { SparkChannel.powerOn with storm := some ⟨⟨2000, none⟩, 3⟩ }
      let s := { s with sensing := { s.sensing with escalation := some 6000 } }
      s.sensing.escalation = some 6000 ∧ reached 6000 6000 = true ∧ (s.channel 2).storm.isSome = true ∧
        (∀ d : Channel, d < 2 → (s.channel d).storm = none) ∧ s.started = true) ∧
    { station plant .operating 5999 with own := ⟨.watch, false, some 6000⟩ }.own.watchHold = some 6000 ∧
    (((station plant .operating 5999).withChannel 2 { SparkChannel.powerOn with testTimer := some 6000 }).channel 2).testTimer =
      some 6000 := by decide +kernel

/-- Station 11 with a fresh view of its duct system: station 5's fan is RUNNING. -/
def viewing (now : Time) : State :=
  { station plant .operating now with
    views := put State.reset.views 0 ⟨some 5, false⟩
    peers := change State.reset.peers 5 fun _ => heardPeer 104000 { quietState with fanPhase := .running, velocity := 240 } }

theorem witness_TimedWindowIsBounded :
    (let view : Option ViewData := some ⟨.running, 240, 400, false, 0⟩
     let path := [(⟨2, 84⟩ : Segment), ⟨0, 120⟩]
     (plant.path 2 316 0 270 = some path ∧ pathLength path ≤ 600 ∧ case1.untimed = false) ∧
     ∃ gs, plant.timing? view path = .ok gs ∧
      gs.map (fun g => g.length * 1000 / g.high) = [388, 416] ∧
      gs.map (fun g => (g.length * 1000 + (g.low - 1)) / g.low) = [584, 625]) ∧
    (later 100617 101372 = false ∧ later 101372 101372 = false ∧ later 101372 101371 = true) ∧
    (viewing 105005).role 0 = .valve 0 270 600 ∧
    (viewing 105005).computedFor case1 0 270 600 = .missed 3633 := by
  refine ⟨⟨by decide +kernel, _, rfl, by decide +kernel, by decide +kernel⟩, by decide, by decide +kernel, by decide +kernel⟩

/-- The paths of Table 4.6: none from an unused branch or across duct systems; on the valve's own branch and from its
feeder, each at the last position upstream of the valve and at the first that is not; and none from the trunk to a valve
on the feeder. -/
theorem witness_TimedWindowIsBounded_paths :
    (plant.branches[(1 : Branch)].length = 0 ∧ plant.branches[(2 : Branch)].length ≠ 0 ∧
      plant.branches[(2 : Branch)].system = plant.branches[(0 : Branch)].system ∧
      plant.branches[(2 : Branch)].parent = some 0 ∧ plant.branches[(0 : Branch)].parent ≠ some 2) ∧
    ({ plant with branches := put plant.branches 0 { open2 with system := 1 } }.branches[(0 : Branch)].system = 1) ∧
    (plant.path 0 269 0 270 = some [⟨0, 1⟩] ∧ plant.path 0 270 0 270 = none ∧
      plant.path 2 400 0 151 = some [⟨2, 0⟩, ⟨0, 1⟩] ∧ plant.path 2 0 0 150 = none) ∧
    (120 + 84 = (([⟨2, 84⟩, ⟨0, 120⟩] : List Segment).map Segment.length).sum ∧
      203 < (([⟨2, 84⟩, ⟨0, 120⟩] : List Segment).map Segment.length).sum) := by decide +kernel

/-- Each velocity test in its turn, at the two sides of its bound: an age of 3000 and one more, the velocity 0, and the
floor of 80. -/
theorem witness_TimedWindowIsBounded_velocities :
    let path := [(⟨0, 120⟩ : Segment)]
    let judged (view : ViewData) : Option FloodReason :=
      match plant.timing? (some view) path with
      | .error reason => some reason
      | .ok _ => none
    judged ⟨.starting, 240, 400, false, 0⟩ = some .fanPhase ∧ judged ⟨.running, 240, 400, true, 0⟩ = some .lowFlow ∧
      judged ⟨.running, 240, 3000, false, 0⟩ = none ∧ judged ⟨.running, 240, 3001, false, 0⟩ = some .sampleOld ∧
      judged ⟨.diverting, 0, 400, false, 0⟩ = some .noVelocity ∧ judged ⟨.diverting, 100, 400, false, 0⟩ = none ∧
      judged ⟨.running, 99, 400, false, 0⟩ = some .belowFloor ∧ 20 ≤ plant.timing.floor := by decide +kernel

/-- A report whose outcome has no window: from a branch that does not feed the valve, and from beyond the reach. -/
theorem witness_TimedWindowIsBounded_without :
    (viewing 105005).role 0 = .valve 0 270 600 ∧
    (viewing 105005).computedFor { case1 with branch := 1 } 0 270 600 = .notDownstream ∧
    (viewing 105005).computedFor case1 0 270 203 = .beyondReach ∧
    { viewing 9 with views := put State.reset.views 0 ⟨some 11, false⟩ }.views[(0 : System)].source =
      some (viewing 9).setup.number := by decide +kernel

/-- R73: under a clash with station 1 a fan station times its own system on its own controller. -/
theorem test_own_system_timed_on_own_controller :
    let claim : StateContent := { quietState with roles := ⟨false, false, false, false, true⟩, fanPhase := .stopped }
    let s := { fan .running 9 with
      peers := put State.reset.peers 1 (heardPeer 5 claim)
      extraction := { Extraction.powerOn with phase := .running, velocity := 240, lastSample := some ⟨4, none⟩ } }
    s.chosenView 0 = ⟨some 1, true⟩ ∧ (s.timingView 0).map ViewData.velocity = some 240 := by decide +kernel

theorem witness_FloodWindowTaken :
    let path := [(⟨2, 84⟩ : Segment), ⟨0, 120⟩]
    plant.path 2 316 0 270 = some path ∧ pathLength path ≤ 204 ∧ { case1 with untimed := true }.untimed = true ∧
      case1.untimed = false ∧
      (match plant.timing? none path with
        | .error reason => reason == .viewNotFresh
        | .ok _ => false) = true := by decide

/-- Station 11 with a release schedule and a valve state. -/
def flowing (v : Valve) (now : Time) : State := { station plant .operating now with valves := put State.reset.valves 0 v }

def windowAt (opens closes : Time) : Window := ⟨⟨opens, none⟩, ⟨closes, none⟩, ⟨false, false, false⟩⟩

/-- A window inserted into a schedule: the hypotheses of the insertion, with every window near 1000. -/
def insertable (g : Nat) (w : Window) (ws : List Window) : Prop :=
  g < 2 ^ 30 ∧ (∀ x ∈ w :: ws, x.opens.near 1000 ∧ x.closes.near 1000) ∧ w.closes.later w.opens = true ∧
    inSchedule g ws ∧ ws.length ≤ 8

theorem insertable_of (g : Nat) (w : Window) (ws : List Window)
    (h : g < 2 ^ 30 ∧
      (∀ x ∈ w :: ws, (x.opens.aged = none ∧ (x.opens.reading - 1000).toInt.natAbs < 2 ^ 29) ∧
        x.closes.aged = none ∧ (x.closes.reading - 1000).toInt.natAbs < 2 ^ 29) ∧
      w.closes.later w.opens = true ∧
      ((∀ w ∈ ws, w.closes.later w.opens = true) ∧
        ws.Pairwise fun v w => w.opens.later v.opens = true ∧ w.opens.later (v.closes.after g) = true) ∧
      ws.length ≤ 8) : insertable g w ws := h

def eightWindows : List Window :=
  [0, 1, 2, 3, 4, 5, 6, 7].map fun i => windowAt (BitVec.ofNat 32 (1000 + 500 * i)) (BitVec.ofNat 32 (1100 + 500 * i))

/-- A merge with both windows at the gap exactly; none a millisecond further apart, with room; and a full schedule. -/
theorem witness_WindowsOpenAndClose_insert :
    (insertable 250 (windowAt 1450 1550) [windowAt 1100 1200, windowAt 1800 1900] ∧
      (insertWindow 250 (windowAt 1450 1550) [windowAt 1100 1200, windowAt 1800 1900]).schedule = [windowAt 1100 1900]) ∧
    (insertable 250 (windowAt 1451 1549) [windowAt 1100 1200, windowAt 1800 1900] ∧
      (insertWindow 250 (windowAt 1451 1549) [windowAt 1100 1200, windowAt 1800 1900]).schedule.length = 3) ∧
    insertable 250 (windowAt 5000 5100) eightWindows ∧
      (insertWindow 250 (windowAt 5000 5100) eightWindows).saturated = some 600 :=
  ⟨⟨insertable_of _ _ _ (by decide +kernel), by decide +kernel⟩,
    ⟨insertable_of _ _ _ (by decide +kernel), by decide +kernel⟩, insertable_of _ _ _ (by decide +kernel),
    by decide +kernel⟩

theorem witness_WindowsOpenAndClose :
    let w := windowAt 100 200
    let s := flowing { Valve.powerOn with schedule := [w, windowAt 150 300] } 100
    ((s.role 0).isValve = true ∧ (s.valve 0).schedule = w :: [windowAt 150 300]) ∧
    (s.operating = true ∧ (s.valve 0).state = .idle ∧ w.opens.later ⟨100, none⟩ = false) ∧
    (w.closes.later ⟨200, none⟩ = false ∧ { s with start := { s.start with phase := .settle } }.operating = false) ∧
    (∃ n ∈ [windowAt 150 300].head?, n.opens.later ⟨200, none⟩ = false) ∧
    (∀ n ∈ [windowAt 201 300].head?, n.opens.later ⟨200, none⟩ = true) := by
  refine ⟨by decide +kernel, by decide +kernel, by decide +kernel, ⟨_, rfl, by decide +kernel⟩, ?_⟩
  intro n hn
  cases hn
  decide +kernel

/-- The windows of a report handed on: a timed one, and a flood window, with no fan view, that opens the IDLE valve at once. -/
theorem witness_WindowsOpenAndClose_handed :
    let s := viewing 104005
    let report := { case1 with t0 := 104000 }
    let flooded := station plant .operating 100005
    (s.role 0 = .valve 0 270 600 ∧ s.computedFor report 0 270 600 = .timed 104654 105409 false false) ∧
    flooded.computedFor case1 0 270 600 = .flood 100005 105005 .viewNotFresh ∧
    ((flooded.releaseFor case1 0).valve 0).state = .opening := by decide +kernel

theorem witness_FlowSwitchChanges :
    let s := flowing { Valve.powerOn with state := .opening } 100
    (s.role 0).isValve = true ∧ s.permitted = true ∧ s.feedback 0 = !true ∧ s.operating = true ∧
      { s with start := { s.start with phase := .settle } }.operating = false := by decide +kernel

theorem witness_ValveFaultsSet :
    ((flowing Valve.powerOn 100).role 0).isValve = true ∧
    ((flowing { Valve.powerOn with state := .opening, confirmTimer := some 500 } 499).valve 0).confirmTimer = some 500 ∧
    ( let s := flowing { Valve.powerOn with state := .flowing, openSince := some ⟨1000, none⟩ } 301000
      (s.valve 0).state.on = true ∧ (s.valve 0).openSince = some ⟨1000, none⟩ ∧
        (if s.flood[s.valveSystem 0] then s.setup.valves.floodCutOff else s.setup.valves.cutOff) * 1000 ≤
          (⟨1000, none⟩ : Instant).elapsed 301000) ∧
    ((flowing { Valve.powerOn with stuckTimer := some 500 } 499).valve 0).stuckTimer = some 500 := by decide +kernel

/-- Station 3 with the extraction controller as given. -/
def fanWith (e : Extraction) (now : Time) : State := { station fanPlant .operating now with extraction := e }

theorem witness_SamplerWindows :
    (fan .running 9).extraction.window = none ∧
    (fanWith { Extraction.powerOn with window := some ⟨100, 3⟩ } 350).extraction.window = some ⟨100, 3⟩ ∧
    ( let s := fanWith { Extraction.powerOn with mode := .periodic, nextStart := some 2100 } 2099
      s.extraction.mode = .periodic ∧ s.extraction.nextStart = some 2100 ∧ reached 2100 2100 = true) := by decide +kernel

theorem witness_SampleCompletes :
    ( let s := fanWith { Extraction.powerOn with phase := .starting, goodCount := 3, window := some ⟨100, 12⟩ } 349
      s.extraction.window = some ⟨100, 12⟩ ∧ reached 350 (after 100 250) = true ∧
        s.setup.extraction.floor ≤ min 1000 (12 * 4 * s.setup.extraction.scale / 16) ∧ s.extraction.goodCount = 3) ∧
    ( let s := fanWith { Extraction.powerOn with phase := .running, lowCount := 3, window := some ⟨100, 11⟩ } 349
      s.extraction.phase = .running ∧ s.extraction.lowFlow = false ∧ 3 ≤ s.extraction.lowCount ∧
        min 1000 (11 * 4 * s.setup.extraction.scale / 16) < s.setup.extraction.floor) ∧
    ( let s := fanWith { Extraction.powerOn with
        phase := .running, mode := .periodic, window := some ⟨100, 24⟩, lastStart := some ⟨100, none⟩ } 349
      s.extraction.mode = .periodic ∧ (result (.sampleComplete 350) s).extraction.mode = .periodic ∧
        s.extraction.lastStart = some ⟨100, none⟩) ∧
    ( let s := fanWith { Extraction.powerOn with phase := .rundown, stopCount := 3, window := some ⟨100, 2⟩ } 349
      s.extraction.phase = .rundown ∧ s.extraction.stopCount = 3 ∧
        min 1000 (2 * 4 * s.setup.extraction.scale / 16) < s.setup.extraction.stop) := by decide +kernel

/-- The move from STARTING to RUNNING, into PERIODIC (Table 6.4: the next window starts 2000 ms after the start of the most
recent one), and OFF, in which no further window starts. -/
theorem witness_SampleCompletes_modes :
    ( let s := fanWith { Extraction.powerOn with
        phase := .starting, mode := .continuous, goodCount := 3, window := some ⟨951500, 12⟩
        lastStart := some ⟨951500, none⟩ } 951749
      let t := result (.sampleComplete 951750) s
      s.extraction.window = some ⟨951500, 12⟩ ∧ s.extraction.lastStart = some ⟨951500, none⟩ ∧
        t.extraction.mode = .periodic ∧ t.extraction.nextStart = some 953500) ∧
    ( let s := fanWith { Extraction.powerOn with window := some ⟨951500, 12⟩, lastStart := some ⟨951500, none⟩ } 951749
      let t := result (.sampleComplete 951750) s
      s.extraction.mode = .off ∧ t.extraction.mode = .off ∧ t.extraction.window = none) := by decide +kernel

theorem witness_PhaseTimersExpire :
    reached 970000 970000 = true ∧
    ( let s := fanWith { Extraction.powerOn with phase := .starting, timer := some 970000 } 969999
      s.extraction.timer = some 970000 ∧ s.extraction.phase = .starting) ∧
    ( let s := fanWith { Extraction.powerOn with phase := .diverting, timer := some 970000 } 969999
      s.extraction.timer = some 970000 ∧ s.extraction.phase = .diverting) ∧
    ( let s := fanWith { Extraction.powerOn with phase := .rundown, timer := some 970000 } 969999
      s.extraction.timer = some 970000 ∧ s.extraction.phase = .rundown) := by decide +kernel

theorem witness_PhaseTimersExpire_picture :
    let e := (settledFan .starting 20).extraction
    let s := { settledFan .starting 20 with extraction := { e with timer := some 970000 } }
    s.extraction.timer = some 970000 ∧ s.extraction.phase = .starting ∧ s.pictureStands :=
  ⟨by decide +kernel, by decide +kernel, pictureStands_of _ (by decide +kernel)⟩

theorem witness_FanFeedbacksJudged :
    ( let s := fan .diverting 100
      s.permitted = true ∧ s.gateOutput = some 1 ∧ s.feedback 1 = !true ∧ s.extraction.phase = .diverting) ∧
    ( let s := fan .running 100
      s.gateOutput = some 1 ∧ s.feedback 1 = !true ∧ s.extraction.phase ≠ .diverting ∧ s.contactorOutput = some 0 ∧
        s.feedback 0 = !true) ∧
    ( let s := fanWith { Extraction.powerOn with contactor := ⟨some 500, false⟩, gate := ⟨some 500, false⟩ } 499
      s.extraction.contactor.timer = some 500 ∧ s.extraction.gate.timer = some 500 ∧ reached 500 500 = true) := by
  decide +kernel

/-- Station 11 with its damper, output 2, as given, in the closing queue or running. -/
def damper (b : Barrier) (queue : List Output) (running : Option Output) (now : Time) : State :=
  { station plant .operating now with barriers := ⟨put State.reset.barriers.units 2 b, queue, running⟩ }

def closing : Barrier := { Barrier.powerOn with state := .closing, run := some (100, 20100), attempts := 1 }
def waiting : Barrier := { Barrier.powerOn with state := .queued, wait := .running 40100 }

theorem motorsInTurn_of (s : State)
    (h : ((∀ o : Output, (s.role o).isMotor = true → ((s.barrier o).state = .closing ↔ s.barriers.running = some o)) ∧
        (s.barriers.running.all fun o => (s.role o).isMotor) = true ∧ (s.supply.low = true → s.barriers.running = none)) ∧
      ((∀ o : Output, o ∈ s.barriers.queue ↔ ((s.role o).isMotor = true ∧ (s.barrier o).state = .queued)) ∧
        s.barriers.queue.Nodup) ∧
      (s.operating = true ∨
        ((∀ o : Output, (s.barrier o).state = .unarmed) ∧ s.barriers.queue = [] ∧ s.barriers.running = none)) ∧
      (s.barriers.queue.Pairwise fun o p => s.barriers.units[o].kept.isSome = true ∨
        (s.barriers.units[p].kept = none ∧ (s.role o).rank ≤ (s.role p).rank)) ∧
      (s.barriers.running.all fun o => (s.barrier o).run.isSome) = true) : s.motorsInTurn :=
  match h with
  | ⟨⟨closing, motor, supply⟩, ⟨queued, once⟩, unarmed, order, run⟩ =>
    { closing, supply, queued, once, order
      motor := fun o ho => by simpa [ho] using motor
      run := fun o ho => by simpa [ho] using run
      unarmed := fun ho => unarmed.resolve_left (by simp [ho]) }

theorem witness_BarrierFeedbackTaken :
    let s := damper closing [] (some 2) 5000
    s.motorsInTurn ∧ (s.role 2).isBarrier = true ∧ s.permitted = true ∧ s.feedback 2 = !true ∧ s.operating = true ∧
      (s.barrier 2).state = .closing :=
  ⟨motorsInTurn_of _ (by decide +kernel), by decide +kernel⟩

theorem witness_BarrierFeedbackTaken_settle :
    let s := station plant .settle 5000
    s.motorsInTurn ∧ (s.role 2).isBarrier = true ∧ s.permitted = true ∧ s.feedback 2 = !true ∧ s.operating = false :=
  ⟨motorsInTurn_of _ (by decide +kernel), by decide +kernel⟩

theorem witness_BarrierFeedbackTaken_reopened :
    let s := (damper { Barrier.powerOn with state := .closed, attempts := 1 } [] none 5000).setFeedback 2 true
    s.motorsInTurn ∧ (s.role 2).isMotor = true ∧ s.permitted = true ∧ s.feedback 2 = !false ∧ s.operating = true ∧
      (s.barrier 2).state = .closed ∧ (burning s).releaseHolds 2 = true ∧ (s.barrier 2).attempts < 3 :=
  ⟨motorsInTurn_of _ (by decide +kernel), by decide +kernel⟩

/-- The third attempt's CLOSED feedback is lost with the release standing. -/
theorem witness_BarrierFeedbackTaken_jammed :
    let s := burning ((damper { Barrier.powerOn with state := .closed, attempts := 3 } [] none 5000).setFeedback 2 true)
    s.motorsInTurn ∧ s.operating = true ∧ (s.barrier 2).state = .closed ∧ s.releaseHolds 2 = true ∧
      (s.barrier 2).attempts = 3 ∧ (result (.barrierFeedbackChange 5001 2 false) s).barrier 2 =
        { Barrier.powerOn with state := .jammed, attempts := 3 } :=
  ⟨motorsInTurn_of _ (by decide +kernel), by decide +kernel⟩

/-- A QUEUED damper whose feedback goes inactive, and one whose feedback comes active. -/
theorem witness_BarrierFeedbackTaken_queued :
    let s := damper waiting [2] none 5000
    (s.setFeedback 2 true).motorsInTurn ∧ (s.setFeedback 2 true).feedback 2 = !false ∧ s.motorsInTurn ∧
      s.feedback 2 = !true ∧ s.operating = true ∧ (s.barrier 2).state = .queued ∧ (s.role 2).isMotor = true :=
  ⟨motorsInTurn_of _ (by decide +kernel), by decide +kernel, motorsInTurn_of _ (by decide +kernel), by decide +kernel⟩

/-- Station 11 with a second damper, output 1, and both dampers QUEUED, output 1 with travel kept; the view of their duct
system holds them back. -/
def twoDampers (kept : Option Nat) (wait : DamperWait) (now : Time) : State :=
  let u := { plant with outputs := #v[.valve 0 270 600, .damper 16 2 20 0, .damper 16 1 20 0, .siren 16] }
  let queued : Barrier := { Barrier.powerOn with state := .queued }
  { station u .operating now with
    views := put State.reset.views 0 ⟨some 5, false⟩
    peers := put State.reset.peers 5 (heardPeer now { quietState with fanPhase := .running, velocity := 240 })
    barriers := ⟨put (put State.reset.barriers.units 2 queued) 1 { queued with kept := kept, attempts := 1, wait := wait },
      [1, 2], none⟩ }

/-- R128: travel kept goes before a lower rank; and R129, R131: with both held back the first entry alone starts its wait, and
once that has expired it runs for its kept travel, as the same attempt, while the other's wait starts. -/
theorem test_queue_considered :
    let s := twoDampers (some 300) .idle 5000
    let t := twoDampers (some 300) .expired 5000
    (s.barriers.queue = [1, 2] ∧ (s.role 2).rank < (s.role 1).rank) ∧
    ((s.considerQueue.barrier 1).wait = .running 45000 ∧ (s.considerQueue.barrier 2).wait = .idle ∧
      s.considerQueue.barriers.running = none) ∧
    (t.considerQueue.barriers.running = some 1 ∧ (t.considerQueue.barrier 1).run = some (5000, 5300) ∧
      (t.considerQueue.barrier 1).attempts = 1 ∧ (t.considerQueue.barrier 2).wait = .running 45000) := by decide +kernel

theorem witness_BarrierTimersExpire :
    ( let s := { station plant .operating 20099 with
        barriers := ⟨put State.reset.barriers.units 1
          { Barrier.powerOn with state := .closing, travelTimer := some 20100 }, [], none⟩ }
      reached 20100 20100 = true ∧ (s.role 1).isMagnet = true ∧ (s.barrier 1).state = .closing ∧
        (s.barrier 1).travelTimer = some 20100) ∧
    ((damper closing [] (some 2) 20099).barriers.running = some 2 ∧
      ((damper closing [] (some 2) 20099).barrier 2).run = some (100, 20100)) ∧
    ((damper waiting [2] none 40099).barrier 2).wait = .running 40100 := by decide +kernel

theorem witness_BarrierTimersExpire_in_turn :
    (damper closing [] (some 2) 20099).motorsInTurn ∧ (damper waiting [2] none 40099).motorsInTurn :=
  ⟨motorsInTurn_of _ (by decide +kernel),
   motorsInTurn_of _ (by decide +kernel)⟩

/-- Station 11 with its siren, output 3, as given. -/
def sounding (u : Siren) (now : Time) : State :=
  { station plant .operating now with sirens := { State.reset.sirens with units := put State.reset.sirens.units 3 u } }

theorem witness_SirenCurrentJudged :
    let s := sounding { Siren.powerOn with pattern := .steady, driven := true, absence := 100, absenceFrom := some 1000 } 1399
    (s.role 3).isSiren = true ∧ s.permitted = true ∧ s.feedback 3 = !true ∧ (s.siren 3).absenceTaken = false ∧
      (s.siren 3).absenceFrom = some 1000 ∧ 500 ≤ (s.siren 3).absence + ((1400 : Time) - 1000).toNat := by decide +kernel

/-- R138: the count returns to 0 when SILENCE makes the pattern none. -/
theorem test_absence_returns :
    let s := burning (sounding { Siren.powerOn with
      claims := [⟨4, .fire, ⟨1, none⟩, false⟩], pattern := .fast, driven := true, absence := 100, absenceFrom := some 1000 } 1399)
    let u := (result (.silencePress 1400) s).siren 3
    u.pattern = .none ∧ u.absence = 0 ∧ u.absenceFrom = none := by decide +kernel

theorem witness_SirenTimersExpire :
    ( let s := sounding Siren.powerOn 1399
      s.operating = true ∧ (s.role 3).isSiren = true ∧ (s.role 0).isSiren = false ∧
        { s with sirens := { s.sirens with resound := some 1400 } }.sirens.resound = some 1400 ∧ reached 1400 1400 = true) ∧
    ( let s := sounding { Siren.powerOn with allClear := some ⟨1000, none⟩, pattern := .allClear } 9999
      (s.role 3).isSiren = true ∧ (s.siren 3).allClear = some ⟨1000, none⟩ ∧ 9000 ≤ (⟨1000, none⟩ : Instant).elapsed 10000) := by
  decide +kernel

def supplied (s : State) (x : Supply) : State := { s with supply := x }

theorem witness_SupplySampled :
    ( let s := supplied (station plant .configFault 99) ⟨0, 0, false, some 100⟩
      s.supply.next = some 100 ∧ reached 100 100 = true ∧ s.started = false) ∧
    ( let s := supplied (station plant .listen 99) ⟨0, 3, false, some 100⟩
      s.started = true ∧ s.supply.low = false ∧ s.setup.supplyLow < supplyLevel 21000 ∧
        supplyLevel 20500 ≤ s.setup.supplyLow ∧ 3 ≤ s.supply.count ∧ { s.supply with count := 2 }.count < 3) ∧
    ( let s := supplied (damper closing [] (some 2) 5000) ⟨0, 3, false, some 5000⟩
      s.barriers.running = some 2 ∧ (s.barrier 2).run = some (100, 20100)) ∧
    ( let s := supplied (damper { closing with wait := .expired } [] (some 2) 5000) ⟨0, 3, false, some 5000⟩
      s.barriers.running = some 2 ∧ (s.barrier 2).run = some (100, 20100) ∧ (s.barrier 2).wait ≠ .idle ∧
        (supplied (damper waiting [2] none 5000) ⟨0, 3, false, some 5000⟩).barriers.running = none) ∧
    ( let s := supplied (station plant .listen 99) ⟨5, 0, true, some 100⟩
      s.supply.low = true ∧ supplyLevel 20999 < s.setup.supplyResume ∧ s.setup.supplyResume ≤ supplyLevel 21000) := by
  decide +kernel

theorem witness_PortRequestsAnswered :
    ((0 : Byte).toNat = 0 ∧ 9 < (10 : Byte).toNat) ∧
    ( let s := station plant .operating 9
      s.started = true ∧ (11 : Byte).toNat = s.setup.number.val ∧ 32 ≤ (32 : Byte).toNat ∧
        1 ≤ (31 : Byte).toNat ∧ (31 : Byte).toNat < 32 ∧ (31 : Byte).toNat ≠ s.setup.number.val ∧
        (0 : Byte).toNat = (0 : Output).val ∧ (s.role 0).isValve = true ∧ (3 : Byte).toNat = (3 : Output).val ∧
        (s.role 3).isSiren = true ∧ (s.role 1).isValve = false ∧ (s.role 1).isSiren = false ∧ 4 ≤ (4 : Byte).toNat) := by
  decide +kernel

/-- A transaction whose MDI bits are these, as far as the falling edge after the last. -/
def clockedIn (bits : List Bool) : PortShift :=
  (⟨true, false, false⟩ :: bits.flatMap fun b => [⟨true, true, b⟩, ⟨true, false, b⟩]).foldl PortShift.next .idle

/-- R157: the sixteenth rising edge completes the request; the response 3 follows four octets of 0 on MDO. -/
theorem witness_PortRequestsAnswered_bits :
    PortShift.idle.pins.select = false ∧
    (clockedIn (msbFirst 8 ++ List.replicate 7 false)).command? 5 State.reset ⟨true, true, false⟩ = some (.takeRecord 5 0) ∧
    (clockedIn (msbFirst 8 ++ List.replicate 6 false)).command? 5 State.reset ⟨true, true, false⟩ = none ∧
    (List.range 8).map (fun i => (⟨[3]⟩ : Port).mdo? ⟨⟨true, false, false⟩, [], 32 + i⟩) =
      [some false, some false, some false, some false, some false, some false, some true, some true] ∧
    (⟨[3]⟩ : Port).mdo? .idle = none := by decide +kernel

/-- What the records of a list show: a barrier, a window, a claim, an ALL_CLEAR claim and a peer. -/
theorem witness_PortRequestsAnswered_lists :
    ((station plant .operating 9).outputsOf OutputRole.isBarrier)[1]? = some 2 ∧
    ((flowing { Valve.powerOn with schedule := [windowAt 100 200] } 9).valve 0).schedule[0]? = some (windowAt 100 200) ∧
    ((sounding { Siren.powerOn with claims := [⟨4, .storm, ⟨1, none⟩, true⟩] } 9).siren 3).claims[0]? =
      some ⟨4, .storm, ⟨1, none⟩, true⟩ ∧
    ((sounding { Siren.powerOn with allClear := some ⟨1, none⟩ } 9).siren 3).allClear = some ⟨1, none⟩ ∧
    ((fan .running 9).hasFan = true ∧ (station plant .operating 9).hasFan = false) ∧
    ((station plant .operating 9).started = true ∧ (20 : Byte).toNat = (20 : Station).val ∧ (20 : Station) ≠ 0 ∧
      (20 : Station) ≠ (station plant .operating 9).setup.number) := by decide +kernel

def oneEntry : EventRecord := ⟨[⟨5, .call, 11, 4⟩], 0, false⟩
def fullRecord : EventRecord := ⟨List.replicate 64 ⟨5, .call, 11, 4⟩, 0, true⟩

theorem witness_TakeRecordCompletes :
    oneEntry.entries.length < 64 ∧ fullRecord.entries.length = 64 ∧ fullRecord.entries.length ≤ 64 ∧
    { State.reset with record := oneEntry }.record.entries.length + [(⟨.keyReset, 1, 1⟩ : Filing)].length ≤ 64 ∧
    64 < { State.reset with record := fullRecord }.record.entries.length + [(⟨.keyReset, 1, 1⟩ : Filing)].length ∧
    { State.reset with record := fullRecord }.record.entries ≠ [] := by decide +kernel

theorem witness_InstantsAge :
    (∀ i ∈ State.reset.instants, i.agesAt 5 = false) ∧
    ( let s := station plant .operating 0x3FFFFFFF
      (⟨0, none⟩ : Instant) ∈ s.instants ∧ (⟨0, none⟩ : Instant).agesAt 0x40000000 = true) ∧
    ((⟨0, some 1⟩ : Instant).aged = some 1 ∧ (⟨0, some 2⟩ : Instant).aged = some 2 ∧ 1 < 2 ∧
      (⟨7, none⟩ : Instant).aged = none ∧ 0 ≤ ((9 : Time) - 7).toInt) := by decide +kernel

theorem witness_NoticesCrossTheLine :
    (11 : Station) ≠ 0 ∧
    ((Notice.call 4).class_.toNat * 32 + (31 : Station).val < (Notice.state quietState).class_.toNat * 32 + (1 : Station).val) ∧
    (1 ≤ report20.count ∧ report20.count ≤ 255 ∧ report20.position ≤ 4000 ∧ report20.span ≤ 4095 ∧ 1023 ≤ 1023) ∧
    (quietState.velocity ≤ 1000 ∧ quietState.sampleAge ≤ 65535 ∧ quietState.closed ≤ 4 ∧ quietState.jammed ≤ 4 ∧
      quietState.cadence = 0 ∧ quietState.pattern = .none) ∧
    ({ quietState with pattern := .slow, cadence := 1999 }.cadence < 2000 ∧
      { quietState with pattern := .fast, cadence := 499 }.cadence < 500) := by decide

/-- What step leaves. -/
def stepped (s : State) : State :=
  match step s with
  | .next t => t
  | .fault _ | .refused _ => State.reset

/-- R39, Table 9.4: a call point active from 38 on brings its press at 88, and not before. -/
theorem test_tick_brings_press :
    let s := station plant .listen 87
    let held (since : Time) : State := { s with inputs := { s.inputs with call := ⟨true, false, some since⟩ } }
    .callPress 88 ∈ (stepped (held 38)).pending ∧ .callPress 88 ∉ (stepped (held 39)).pending := by decide +kernel

/-- R152: an attempt is in the place of a station that may transmit, and its step answers. -/
theorem witness_StartPhasesGuard :
    ( let s := { attempting LineInterface.powerOn with pending := [.attemptSuccess 9001 .a] }
      s.quietLines ∧ step s = .next (stepped s)) ∧
    ( let s := { station plant .configFault 9 with pending := [.callPress 10] }
      s.start.phase = .configFault ∧ s.pending.head? ≠ some .powerOn ∧ step s = .next (stepped s)) ∧
    (State.reset.inert ∧ step State.reset = .next (stepped State.reset)) ∧
    (State.reset.operating = false ∧ (State.reset.operating = false → State.reset.outputsWait)) := by
  refine ⟨⟨?_, by rfl⟩, ⟨by decide +kernel, by decide +kernel, by rfl⟩, ⟨?_, by rfl⟩, ⟨by decide +kernel, ?_⟩⟩
  · exact ⟨fun _ => by decide +kernel, fun _ => by decide +kernel⟩
  · exact fun _ => ⟨by decide +kernel, by decide +kernel⟩
  · exact fun _ => ⟨by decide +kernel, by decide +kernel, by decide +kernel, by decide +kernel, by decide +kernel⟩

/-- R162: a flag of the mask asserts ATTN, and one outside the mask does not. -/
theorem test_attn :
    let s := { station { plant with mask := Attention.peerLost.mask } .operating 9 with flags := Attention.peerLost.mask }
    s.attn = true ∧ { s with flags := Attention.fanFault.mask }.attn = false ∧
      { s with setup := plant }.attn = false := by decide +kernel

/-- A damper that closes, with a shutter of equal standing: both premises of MotorsRunInTurn at a running motor. -/
theorem witness_MotorsRunInTurn :
    let s := { damper closing [] (some 2) 5000 with pending := [.barrierFeedbackChange 5001 2 true] }
    s.motorsInTurn ∧ s.barriersFollow ∧ step s = .next (stepped s) ∧ (s.role 2).isMotor = true ∧
      s.drivenOutput 2 = true :=
  ⟨motorsInTurn_of _ (by decide +kernel), fun _ => by decide +kernel, rfl, by decide +kernel, by decide +kernel⟩

/-- Two entries in order, the one with kept travel first; the other way round they are not. -/
theorem witness_MotorsRunInTurn_order :
    (twoDampers (some 300) .idle 5000).motorsInTurn ∧ ¬(twoDampers none .idle 5000).motorsInTurn :=
  ⟨motorsInTurn_of _ (by decide +kernel), fun h => absurd h.order (by
    show ¬List.Pairwise (fun o p : Output => _ ∨ _ ∧ _) [1, 2]
    decide +kernel)⟩

theorem witness_PictureStands :
    (settledFan .standby 20).pictureStands ∧ step (settledFan .standby 20) = .next (stepped (settledFan .standby 20)) :=
  ⟨settledFan_pictureStands, rfl⟩

theorem witness_ReportStands :
    let s := station plant .operating 9
    let s := { s with assembler := ⟨some 250, some s.reported⟩ }
    s.reportStands ∧ s.permitted = true ∧ step s = .next (stepped s) := ⟨fun _ => by decide +kernel, by decide +kernel, rfl⟩

/-- The siren sounds STEADY for an EVACUATE claim on zone 4. -/
def evacuating : State :=
  let s := sounding { Siren.powerOn with
    claims := [⟨4, .evacuate, ⟨1000, none⟩, false⟩], pattern := .steady, driven := true } 1399
  { s with zones := ⟨s.zones.live, put s.zones.latched 4 .evacuate⟩ }

theorem witness_SirensAnswer :
    evacuating.sirensAnswer ∧ evacuating.operating = true ∧ (evacuating.role 3).isSiren = true ∧
      hasZone (evacuating.role 3).covered 4 = true ∧ evacuating.zoneLevel 4 = .evacuate ∧
      step evacuating = .next (stepped evacuating) := by
  refine ⟨⟨?_, fun h => absurd h (by decide +kernel)⟩, by decide +kernel, by decide +kernel, by decide +kernel,
    by decide +kernel, rfl⟩
  intro _ o ho
  obtain rfl : o = 3 := by
    revert o
    decide +kernel
  constructor <;> decide +kernel

/-- Before OPERATING: the command that begins it, with FIRE latched in a zone that the siren covers. -/
theorem witness_SirensAnswer_settle :
    let s := { burning (timed (station plant .settle 5037) 5038) with pending := [.settleEnd 5038] }
    s.sirensAnswer ∧ s.operating = false ∧ step s = .next (stepped s) ∧ (stepped s).operating = true :=
  ⟨⟨fun h => absurd h (by decide +kernel), fun _ => by decide +kernel⟩, by decide +kernel, rfl, by decide +kernel⟩

theorem inert_of_started (s : State) (h : s.started = true) : s.inert := fun hs => absurd (h.symm.trans hs) (by decide)

theorem plant_releaseRanges : plant.releaseRanges where
  spread := by decide
  lead := by decide
  hold := by decide
  floor := by decide
  floodHold := by decide
  gap := by decide
  reach := by
    intro o e pe reach h
    match o with
    | 0 => cases h; decide
    | 1 | 2 | 3 => cases h

/-- Station 11 with two windows on its valve and a spark in progress, its SENSOR_PULSE_END waiting. -/
def sparking : State :=
  { (pulsing 1).withValve 0 { Valve.powerOn with schedule := [windowAt 90 150, windowAt 600 700] } with
    pending := [.sensorPulseEnd 101 2 100] }

theorem sparking_near : sparking.commandNear := by
  intro c hc now hnow
  cases hc
  cases hnow
  refine ⟨?_, fun l rx h => (by cases h), ?_⟩
  · show ∀ o : Output, ∀ w ∈ sparking.valves[o].schedule,
      (w.opens.aged = none ∧ _ < _) ∧ w.closes.aged = none ∧ _ < _
    decide +kernel
  · intro channel width pulse h hp
    cases h
    cases hp
    decide +kernel

theorem witness_BoundsAndMoves_schedule :
    sparking.inert ∧ (sparking.started = true → sparking.setup.releaseRanges) ∧ sparking.commandNear ∧
      sparking.schedulesInOrder ∧ step sparking = .next (stepped sparking) ∧ (stepped sparking).started = true ∧
      sparking.valves[(0 : Output)].schedule ≠ (stepped sparking).valves[(0 : Output)].schedule := by
  refine ⟨inert_of_started _ (by decide +kernel), fun _ => plant_releaseRanges, sparking_near, ?_, rfl,
    by decide +kernel, by decide +kernel⟩
  show ∀ o : Output, (∀ w ∈ sparking.valves[o].schedule, w.closes.later w.opens = true) ∧ List.Pairwise _ _
  decide +kernel

/-- Station 20 repeats the RESET count that its entry holds. -/
def repeated : State :=
  let s := listening plant .operating 19
  { s with peers := put s.peers 20 { heardPeer 10 quietState with reset := some 7 } }

/-- A repeated RESET is not taken, and a START press with a condition standing is not accepted; a press of RESET is taken. -/
theorem witness_BoundsAndMoves_taken :
    ¬repeated.takesReset (.keyNotice 20 .a (sent classKey 20 19 [octet KeyKind.reset.code, 7])) ∧
    ¬hotFan.acceptsStart (.startPress 30) ∧ (settledFan .standby 20).acceptsStart (.startPress 30) ∧
    repeated.takesReset (.resetPress 20) := by
  refine ⟨?_, fun h => absurd h.2.2.2.2 (by decide +kernel), ?_, by decide +kernel, .inl ⟨_, rfl⟩⟩
  · rintro ⟨-, ⟨now, h⟩ | ⟨now, l, rx, k, count, h, -, -, -, hp, hk, -, -, hr⟩⟩
    · cases h
    · cases h
      have : count = 7 := by simpa [sent] using hp.symm
      have : k = 20 := Fin.ext hk.symm
      subst k count
      exact hr (by decide +kernel)
  · exact ⟨⟨_, rfl⟩, by decide +kernel⟩

theorem witness_BoundsAndMoves :
    (State.reset.recordFits ∧ State.reset.schedulesFit ∧ State.reset.errorsFit) ∧
    (State.reset.inert ∧ State.reset.noOwnEntry ∧ step State.reset = .next (stepped State.reset)) ∧
    ((settledFan .running 20).pictureStands ∧
      exec (.stopPress 30) (settledFan .running 20) = .next (result (.stopPress 30) (settledFan .running 20)) ∧
      (result (.stopPress 30) (settledFan .running 20)).extraction.phase = .diverting) ∧
    exec (.startPress 30) (settledFan .standby 20) = .next (result (.startPress 30) (settledFan .standby 20)) := by
  refine ⟨⟨?_, fun o => ?_, ?_⟩, ⟨?_, ?_, rfl⟩, ⟨settledRunning_pictureStands, rfl, by decide +kernel⟩, rfl⟩
  · show State.reset.record.entries.length ≤ Config.recordPlaces
    decide +kernel
  · revert o
    decide +kernel
  · constructor <;> decide +kernel
  · exact fun _ => (by decide +kernel)
  · exact ⟨by decide +kernel, fun h => absurd h (by decide +kernel)⟩

end Sys2Proof.Tests
end

section
/-! SUPPORT. The line interface: what its operations come to, in the terms of the statements about transmission. -/

namespace Sys2Proof.Machine

/-! ## The send queue (R9 to R13) -/

@[simp] theorem State.takeAt_line (s : State) (t : Time) (l : Line) : (s.takeAt t).line l = s.line l := by cases l <;> rfl

theorem dueSlot_ok {x : LineInterface} (h : x.txState = .ok) : x.dueSlot = x.choice := by
  simp only [LineInterface.dueSlot, h]

theorem dueSlot_failed {x : LineInterface} (h : x.txState = .failed) :
    x.dueSlot = if x.probeDue && x.slots.state.isSome then some .state else none := by
  simp only [LineInterface.dueSlot, h]

/-- R12: until the first successful STATE only the STATE slot is chosen. -/
theorem choice_before {x : LineInterface} (h : x.firstState = false) : x.choice = x.stateChoice := by
  simp [LineInterface.choice, h]

/-- R12: afterwards the first pending slot in class order is chosen, and STATE when there is none. -/
theorem choice_after {x : LineInterface} (h : x.firstState = true) :
    x.choice = (slotOrder.find? x.slots.pending).or x.stateChoice := by
  simp [LineInterface.choice, h]

theorem first_call {x : Slots} (h : x.call.isSome = true) : slotOrder.find? x.pending = some .call := by
  simp [slotOrder, Slots.pending, h]

theorem first_spark {x : Slots} (hcall : x.call = none) (c : Channel) (hc : x.spark[c].isSome = true)
    (before : ∀ d : Channel, d < c → x.spark[d] = none) : slotOrder.find? x.pending = some (.spark c) := by
  match c with
  | 0 => simpa [slotOrder, Slots.pending, hcall] using .inl hc
  | 1 => simpa [slotOrder, Slots.pending, hcall, before 0] using .inl hc
  | 2 => simpa [slotOrder, Slots.pending, hcall, before 0, before 1] using .inl hc
  | 3 => simpa [slotOrder, Slots.pending, hcall, before 0, before 1, before 2] using .inl hc

/-- R12: with CALL and every SPARK slot empty the keys decide. -/
theorem first_key {x : Slots} (hcall : x.call = none) (hspark : ∀ c : Channel, x.spark[c] = none) :
    slotOrder.find? x.pending =
      if x.silence.isSome then some .silence else if x.reset.isSome then some .reset else none := by
  cases hs : x.silence <;> cases hr : x.reset <;>
    simp [slotOrder, Slots.pending, hcall, hspark 0, hspark 1, hspark 2, hspark 3, hs, hr]

/-- Settles O10: the choice of a line by its TX state, its first STATE and its slots in class order. -/
theorem sendQueueChooses : Obligations.SendQueueChooses := by
  intro x
  refine ⟨fun ok first => ?_, fun ok first => ?_, dueSlot_failed⟩
  · rw [dueSlot_ok ok, choice_before first, LineInterface.stateChoice]
  · rw [dueSlot_ok ok, choice_after first]
    refine ⟨fun h => by rw [first_call h]; rfl, fun call => ⟨fun c hc before => ?_, fun sparks => ?_⟩⟩
    · rw [first_spark call c hc before]; rfl
    · rw [first_key call sparks]
      refine ⟨fun hs => by simp [hs], fun hs hr => by simp [hs, hr], fun hs hr => ?_⟩
      simp [hs, hr, LineInterface.stateChoice]

/-! ## Attempts (R5 to R10, R15, R16) -/

/-- R15: the age is written as 1023 exactly when the report is that old. -/
theorem age_limit_iff (now : Time) (r : SparkReport) :
    (r.age now == Config.ageLimit) = decide (1023 ≤ r.first.elapsed now) := by
  rw [Bool.eq_iff_iff, beq_iff_eq, decide_eq_true_eq, SparkReport.age, Config.ageLimit]
  omega

theorem failed_beq (x : TxState) : (x == .failed) = decide (x = .failed) := by cases x <;> rfl

/-- R5: an attempt begins with the notice that its slot gives. -/
theorem execAttemptStart_begins {now : Time} {l : Line} {slot : Slot} {n : Notice} {s : State} (permitted : s.permitted = true)
    (idle : (s.line l).stage = .idle) (free : (s.line l).place = none) (due : (s.line l).dueSlot = some slot)
    (notice : (s.takeAt now).noticeFrom (s.line l).slots slot = some n) :
    exec (.attemptStart now l) s = .next ((s.takeAt now).withLine l { s.line l with
      slots := (s.line l).slots.empty slot
      place := some ⟨n, decide ((s.line l).txState = .failed), now⟩
      probeDue := false
      stage := .assembling now }) := by
  have begins : (s.takeAt now).mayBegin l = true := by
    have : (s.takeAt now).permitted = true := permitted
    simp [State.mayBegin, this, idle, free]
  simp only [exec, execAttemptStart, begins, if_true, State.startAttempt, State.takeAt_line, due, State.beginAttempt, notice,
    failed_beq, State.takeAt_clock, answer_eq]

/-- Settles O9: each kind of slot gives its notice with the fields of R15 and R16. -/
theorem attemptBegins : Obligations.AttemptBegins := by
  intro now l slot n s permitted idle free due content
  refine execAttemptStart_begins permitted idle free due ?_
  cases slot with
  | state => obtain ⟨c, hc, rfl⟩ := content; simp only [State.noticeFrom, hc, Option.map_some]; rfl
  | call => obtain ⟨z, hz, rfl⟩ := content; simp [State.noticeFrom, hz]
  | silence => obtain ⟨k, hk, rfl⟩ := content; simp [State.noticeFrom, hk]
  | reset => obtain ⟨k, hk, rfl⟩ := content; simp [State.noticeFrom, hk]
  | spark c =>
    obtain ⟨r, hr, rfl⟩ := content
    simp only [State.noticeFrom, hr, Option.map_some, SparkReport.stampStale, State.takeAt_clock, age_limit_iff]
    rfl

/-- R7, R9: the error that makes an OK line FAILED is the sixteenth in a row. -/
theorem fails_iff (x : LineInterface) : x.fails = true ↔ x.txState = .ok ∧ 15 ≤ x.consecutive := by
  simp [LineInterface.fails, LineInterface.moreErrors, Config.txErrorLimit]

/-- R18: the stage after a TX error, by the stage and the bit. -/
theorem stageAfter_eq (x : LineInterface) (bit : Nat) : x.stageAfter bit = (match x.stage with
    | .assembling start => if bit = 0 then .idle else .assembling start
    | other => other) := by
  unfold LineInterface.stageAfter
  cases x.stage <;> rfl

/-- Settles O11: the three ends of an attempt; a TX error by whether it is the sixteenth in a row on an OK line. -/
theorem attemptEnds : Obligations.AttemptEnds := by
  intro now l a bit s place
  have error : exec (.txError now ⟨l, bit⟩) s = .next ((s.takeAt now).txErrorOn l bit a) := by
    simp [exec, execTxError, place]
  refine ⟨?_, fun h => ?_, fun ok h => ?_, ?_⟩
  · simp only [exec, execContentionLost, State.takeAt_line, place, answer_eq]; rfl
  · have fails : (s.line l).fails = false := by
      rw [Bool.eq_false_iff, ne_eq, fails_iff]
      rintro ⟨ok, more⟩
      rcases h with h | h
      · rw [ok] at h; cases h
      · omega
    rw [error]
    simp only [State.txErrorOn, State.takeAt_line, LineInterface.txErrorAt, fails, stageAfter_eq, State.takeAt_clock]
    rfl
  · have fails : (s.line l).fails = true := (fails_iff _).mpr ⟨ok, h⟩
    have sixteen : (s.line l).moreErrors = 16 := by
      simp only [LineInterface.moreErrors, Config.txErrorLimit]; omega
    rw [error]
    simp only [State.txErrorOn, State.takeAt_line, LineInterface.txErrorAt, fails, sixteen, stageAfter_eq, State.takeAt_clock]
    rfl
  · simp only [exec, execAttemptSuccess, State.takeAt_line, place, answer_eq]; rfl

/-! ## Returning notices (R8) -/

theorem or_some_eq {α : Type} (x : Option α) (y : α) : x.or (some y) = some (x.getD y) := by cases x <;> rfl

/-- Settles O12: a slot keeps what it holds, and takes the notice when empty; two SPARKs are combined. -/
theorem returnedNoticeCombines : Obligations.ReturnedNoticeCombines := by
  intro x
  refine ⟨fun c => ?_, fun z => ?_, fun k => ⟨?_, ?_⟩, fun c older age empty => ?_,
    fun c older newer age span full hspan => ?_⟩
  · simp only [Slots.giveBack, or_some_eq]
  · simp only [Slots.giveBack, or_some_eq]
  · simp only [Slots.giveBack, or_some_eq]
  · simp only [Slots.giveBack, or_some_eq]
  · simp only [Slots.giveBack, change, empty]
  · have spanOf : min Config.spanLimit (older.first.elapsed (after newer.first.reading newer.span)) = span := hspan.symm
    simp only [Slots.giveBack, change, full, SparkReport.combine, spanOf]
    rfl

/-! ## Timers of a line (R2, R10, R13, R17) -/

/-- Settles O13: each timer taken at its deadline. -/
theorem lineTimers : Obligations.LineTimers := by
  refine ⟨fun now l s deadline failed timer hd => ?_, fun now l s => ?_, fun now s deadline timer hd => ?_,
    fun now l s busy => ?_⟩
  · have due : ((s.line l).txState == .failed && due now (s.line l).probeTimer) = true := by
      simp [failed, timer, Machine.due, hd]
    simp only [exec, execProbeTimerExpiry, State.takeAt_line, due, if_true, answer_eq]
    cases l <;> rfl
  · simp only [exec, execStateRoundHoldClear, State.takeAt_line, answer_eq]
  · have due : due now s.assembler.interval = true := by simp [timer, Machine.due, hd]
    simp only [exec, execStateIntervalExpiry, State.takeAt_assembler, due, if_true, answer_eq]
    rfl
  · simp only [exec, execLineIdle, State.takeAt_line, busy, answer_eq]
    rfl

end Sys2Proof.Machine
end

section
/-! SUPPORT. Reception: what the tests of R19 make of a complete notice, and what a valid notice brings. -/

namespace Sys2Proof.Machine

/-! ## The tests (R19) -/

theorem receiving_iff (x : LineInterface) : x.receiving = true ↔ x.stage ≠ .busy ∧ x.place = none := by
  simp [LineInterface.receiving]

theorem verdict_check {α : Type} {c : BitVec 3} {read : List Byte → Option α} {rx : Received}
    (h : crc (covered c rx.sender rx.payload) ≠ rx.check) : verdict c read rx = .checkError := by
  simp [verdict, h]

theorem verdict_content {α : Type} {c : BitVec 3} {read : List Byte → Option α} {rx : Received}
    (check : crc (covered c rx.sender rx.payload) = rx.check)
    (h : payloadLength c ≠ some rx.payload.length ∨ rx.sender = 0 ∨ read rx.payload = none) :
    verdict c read rx = .contentError := by
  unfold verdict
  rw [if_neg (not_not_intro check)]
  rcases h with h | h | h
  · rw [if_pos h]
  · split
    · rfl
    · exact if_pos h
  · simp only [h, ite_self]

theorem verdict_valid {α : Type} {c : BitVec 3} {read : List Byte → Option α} {rx : Received} {x : α}
    (check : crc (covered c rx.sender rx.payload) = rx.check) (length : payloadLength c = some rx.payload.length)
    (sender : rx.sender ≠ 0) (content : read rx.payload = some x) : verdict c read rx = .valid x := by
  unfold verdict
  rw [if_neg (not_not_intro check), if_neg (not_not_intro length)]
  simp only [content, if_neg (show ¬rx.sender = 0#5 from sender)]

/-! ## A complete notice (R18 to R21) -/

section
variable {α : Type} {s : State} {l : Line} {c : BitVec 3} {read : List Byte → Option α} {rx : Received}
  {deliver : State → Station → Time → α → State}

theorem receive_deaf (h : (s.line l).receiving = false) : s.receive l c read rx deliver = s := by
  simp [State.receive, h]

theorem receive_check (h : (s.line l).receiving = true) (v : verdict c read rx = .checkError) :
    s.receive l c read rx deliver = s.withLine l (s.line l).discardCheck := by
  simp [State.receive, h, v]

theorem receive_content (h : (s.line l).receiving = true) (v : verdict c read rx = .contentError) :
    s.receive l c read rx deliver = s.withLine l (s.line l).discardContent := by
  simp [State.receive, h, v]

theorem receive_before {x : α} (h : (s.line l).receiving = true) (v : verdict c read rx = .valid x)
    (before : s.started = false) : s.receive l c read rx deliver = s.withLine l (s.line l).countValid := by
  simp [State.receive, h, v, before]

theorem receive_clash {x : α} (h : (s.line l).receiving = true) (v : verdict c read rx = .valid x)
    (started : s.started = true) (own : stationOf rx = s.setup.number) :
    s.receive l c read rx deliver = s.clash l c rx := by
  simp [State.receive, h, v, started, own]

/-- R25: the state in which a notice from a peer is delivered: counted, the line's last valid one, and heard. -/
def State.heardFrom (s : State) (l : Line) (k : Station) (start : Time) : State :=
  (s.withLine l ((s.line l).takeValid s.clock)).hearPeer l k start

theorem receive_delivers {x : α} (h : (s.line l).receiving = true) (v : verdict c read rx = .valid x)
    (started : s.started = true) (other : stationOf rx ≠ s.setup.number) :
    s.receive l c read rx deliver =
      deliver (s.heardFrom l (stationOf rx) ((s.line l).receiveStart rx.start)) (stationOf rx)
        ((s.line l).receiveStart rx.start) x := by
  simp [State.receive, h, v, started, other, State.heardFrom]

end

/-- R19 to R21: a complete notice is not taken, is counted, is a clash, or is delivered from the peer that sent it. -/
theorem receive_cases {α : Type} (s : State) (l : Line) (c : BitVec 3) (read : List Byte → Option α) (rx : Received)
    (deliver : State → Station → Time → α → State) :
    s.receive l c read rx deliver = s ∨
    s.receive l c read rx deliver = s.withLine l (s.line l).discardCheck ∨
    s.receive l c read rx deliver = s.withLine l (s.line l).discardContent ∨
    s.receive l c read rx deliver = s.withLine l (s.line l).countValid ∨
    (s.started = true ∧ s.receive l c read rx deliver = s.clash l c rx) ∨
    ∃ x, s.started = true ∧ (s.line l).receiving = true ∧ verdict c read rx = .valid x ∧
      stationOf rx ≠ s.setup.number ∧ s.receive l c read rx deliver =
      deliver (s.heardFrom l (stationOf rx) ((s.line l).receiveStart rx.start)) (stationOf rx)
        ((s.line l).receiveStart rx.start) x := by
  rcases Bool.eq_false_or_eq_true (s.line l).receiving with h | h
  · cases v : verdict c read rx with
    | checkError => exact .inr (.inl (receive_check h v))
    | contentError => exact .inr (.inr (.inl (receive_content h v)))
    | valid x =>
      rcases Bool.eq_false_or_eq_true s.started with started | before
      · by_cases own : stationOf rx = s.setup.number
        · exact .inr (.inr (.inr (.inr (.inl ⟨started, receive_clash h v started own⟩))))
        · exact .inr (.inr (.inr (.inr (.inr ⟨x, started, h, rfl, own, receive_delivers h v started own⟩))))
      · exact .inr (.inr (.inr (.inl (receive_before h v before))))
  · exact .inl (receive_deaf h)

/-- The four kinds of notices: class, command, payload length, and whether the payload can be read (R19, Table 1.6). -/
def noticeKinds (now : Time) (l : Line) (rx : Received) : List (BitVec 3 × Instr × Nat × Bool) :=
  [(classCall, .callNotice now l rx, 1, (readCall? rx.payload).isSome),
   (classSpark, .sparkNotice now l rx, 7, (SparkPayload.read? rx.payload).isSome),
   (classKey, .keyNotice now l rx, 2, (readKey? rx.payload).isSome),
   (classState, .stateNotice now l rx, 14, (StateContent.read? rx.payload).isSome)]

/-- R19 to R21: the command of each kind is the reception of a notice of its class. -/
theorem noticeKinds_receive (now : Time) (l : Line) (rx : Received) (s : State) :
    ∀ kind ∈ noticeKinds now l rx, ∃ (α : Type) (read : List Byte → Option α)
      (deliver : State → Station → Time → α → State),
      exec kind.2.1 s = .next ((s.takeAt now).receive l kind.1 read rx deliver) ∧
        payloadLength kind.1 = some kind.2.2.1 ∧ kind.2.2.2 = (read rx.payload).isSome := by
  intro kind h
  simp only [noticeKinds, List.mem_cons, List.not_mem_nil, or_false] at h
  rcases h with rfl | rfl | rfl | rfl
  · exact ⟨_, readCall?, _, rfl, rfl, rfl⟩
  · exact ⟨_, SparkPayload.read?, _, rfl, rfl, rfl⟩
  · exact ⟨_, readKey?, _, rfl, rfl, rfl⟩
  · exact ⟨_, StateContent.read?, _, rfl, rfl, rfl⟩

/-- Settles O16: the four kinds at once, by the verdict of the tests. -/
theorem noticesAreTested : Obligations.NoticesAreTested := by
  intro now l rx s stage place kind hkind
  obtain ⟨α, read, deliver, taken, length, readable⟩ := noticeKinds_receive now l rx s kind hkind
  have receiving : ((s.takeAt now).line l).receiving = true := by
    rw [State.takeAt_line]; exact (receiving_iff _).mpr ⟨stage, place⟩
  rw [taken, readable]
  refine ⟨fun check => ?_, fun check fails => ?_, fun check fits sender reads before => ?_⟩
  · rw [receive_check receiving (verdict_check check)]; rfl
  · rw [receive_content receiving (verdict_content check _)]
    · rfl
    · rcases fails with h | h | h
      · exact .inl fun e => h (Option.some.inj (e.symm.trans length))
      · exact .inr (.inl h)
      · exact .inr (.inr (Option.not_isSome_iff_eq_none.mp (by rw [h]; exact Bool.false_ne_true)))
  · obtain ⟨x, hx⟩ := Option.isSome_iff_exists.mp reads
    rw [receive_before receiving (verdict_valid check (by rw [length, fits]) sender hx) before]
    rfl

/-- R3: the precedence octet as a number. -/
theorem precedence_value (c : BitVec 3) (sender : BitVec 5) :
    (precedence c sender).zeroExtend 16 = BitVec.ofNat 16 (c.toNat * 32 + sender.toNat) := by
  apply BitVec.eq_of_toNat_eq
  have sum : (c ++ sender : BitVec 8).toNat = c.toNat * 32 + sender.toNat := by
    rw [BitVec.toNat_append, ← Nat.shiftLeft_add_eq_or_of_lt sender.isLt, Nat.shiftLeft_eq]
  simp only [precedence, BitVec.truncate_eq_setWidth, BitVec.toNat_setWidth, BitVec.toNat_ofNat, sum]

theorem recent_eq (now : Time) (i : Option Instant) : recent now i = i.any fun i => i.elapsed now < 1500 := by
  cases i <;> rfl

/-- Settles O17: a valid notice with the own number is a clash, whatever its kind. -/
theorem ownNumberClashes : Obligations.OwnNumberClashes := by
  intro now l rx s stage place started sender own kind hkind check fits reads
  obtain ⟨α, read, deliver, taken, length, readable⟩ := noticeKinds_receive now l rx s kind hkind
  have receiving : ((s.takeAt now).line l).receiving = true := by
    rw [State.takeAt_line]; exact (receiving_iff _).mpr ⟨stage, place⟩
  obtain ⟨x, hx⟩ := Option.isSome_iff_exists.mp (readable.symm.trans reads)
  rw [taken, receive_clash receiving (verdict_valid check (by rw [length, fits]) sender hx) started (Fin.ext own)]
  simp only [State.clash, recent_eq, precedence_value, State.takeAt_line, State.takeAt_clock]
  rfl

/-! ## Notices given up (R2, R18, R19) -/

theorem payloadLength_none {c : BitVec 3} (h : 4 ≤ c.toNat) : payloadLength c = none := by
  unfold payloadLength
  split
  · omega
  · omega
  · omega
  · omega
  · rfl

/-- Settles O15: each is counted in its own counter, and the line is busy. -/
theorem unfinishedNoticesAreCounted : Obligations.UnfinishedNoticesAreCounted := by
  intro now l s stage
  refine ⟨?_, fun place => ?_⟩
  · have notBusy : ((s.line l).stage != .busy) = true := bne_iff_ne.mpr stage
    simp only [exec, execReceiveFramingError, State.takeAt_line, notBusy, if_true, answer_eq]
    rfl
  have receiving : (s.line l).receiving = true := (receiving_iff _).mpr ⟨stage, place⟩
  refine ⟨fun length long => ?_, fun c rx check => ?_, fun c rx check unassigned => ?_⟩
  · simp only [exec, execNoticeLengthError, State.takeAt_line, receiving, long, decide_true, Bool.and_self, if_true, answer_eq]
    rfl
  · simp only [exec, execCheckError, State.takeAt_line, receiving, Bool.not_true, Bool.false_eq_true, if_false, if_pos check,
      answer_eq]
    rfl
  · simp only [exec, execCheckError, State.takeAt_line, receiving, Bool.not_true, Bool.false_eq_true, if_false,
      if_neg (not_not_intro check), payloadLength_none unassigned, Option.isNone_none, if_true, answer_eq]
    rfl

/-! ## Quiet and single lines (R22, R28) -/

/-- R22, second test, by station. -/
theorem heardOnOther_iff (s : State) (l : Line) : s.heardOnOther l = true ↔
    ∃ (k : Station) (i : Instant), (s.peers[k]).presence = .present ∧
      (match l with | .a => (s.peers[k]).heardB | .b => (s.peers[k]).heardA) = some i ∧ i.elapsed s.clock < 1500 := by
  have heard (p : Peer) : p.heard (otherLine l) = (match l with | .a => p.heardB | .b => p.heardA) := by cases l <;> rfl
  simp only [State.heardOnOther, List.any_eq_true, Bool.and_eq_true, beq_iff_eq, recent_eq, Option.any_eq_true, heard,
    decide_eq_true_eq, Vector.mem_toList_iff, Vector.mem_iff_getElem]
  constructor
  · rintro ⟨p, ⟨k, hk, rfl⟩, present, i, hi, recent⟩
    exact ⟨⟨k, hk⟩, i, present, hi, recent⟩
  · rintro ⟨k, i, present, hi, recent⟩
    exact ⟨s.peers[k], ⟨k.val, k.isLt, rfl⟩, present, i, hi, recent⟩

/-- R22, first test. -/
theorem unheard_iff (s : State) (l : Line) : s.unheard l = true ↔
    (match (s.line l).lastValid with
      | some i => 1500 ≤ i.elapsed s.clock
      | none => ∃ i, s.start.listenStart = some i ∧ 1500 ≤ i.elapsed s.clock) := by
  unfold State.unheard
  cases (s.line l).lastValid with
  | some i => exact decide_eq_true_iff
  | none =>
    cases s.start.listenStart with
    | none => simp
    | some i =>
      simp only [Option.some.injEq, exists_eq_left', decide_eq_true_eq]
      exact Iff.rfl

theorem quietTests_iff (s : State) (l : Line) : s.quietTests l = true ↔
    s.started = true ∧ s.unheard l = true ∧ s.heardOnOther l = true := by
  simp only [State.quietTests, Bool.and_eq_true, and_assoc]

theorem unheardOn_of {now : Time} {p : Peer} {l : Line} {i : Instant} (h : latestOf p.since (p.heard l) = some i)
    (old : 1500 ≤ i.elapsed now) : p.unheardOn now l = true := by
  simp [Peer.unheardOn, h, elapsedFrom, Config.freshness, old]

/-- R28: the line that meets the test first. -/
theorem singleTest_of {now : Time} {p : Peer} {l : Line} {i : Instant} (present : p.presence = .present)
    (clear : p.single = none) (h : latestOf p.since (p.heard l) = some i) (old : 1500 ≤ i.elapsed now)
    (first : l = .b → p.unheardOn now .a = false) : p.singleTest now = some l := by
  have unheard := unheardOn_of h old
  cases l with
  | a => simp [Peer.singleTest, present, clear, unheard]
  | b => simp [Peer.singleTest, present, clear, unheard, first rfl]

/-- Settles O25: the two tests, their judgement, and the line that SINGLE_LINE names. -/
theorem quietAndSingleLines : Obligations.QuietAndSingleLines := by
  refine ⟨fun s l => ?_, fun now l s => ?_, fun now k l i s present clear h old first => ?_⟩
  · exact (quietTests_iff s l).trans (and_congr Iff.rfl (and_congr (unheard_iff s l) (heardOnOther_iff s l)))
  · cases l <;> rfl
  · simp only [exec, execSingleLine, State.takeAt_peers, singleTest_of present clear h old first, answer_eq]
    rfl

end Sys2Proof.Machine
end

section
/-! SUPPORT. The end of LISTEN (R154), and the station right after power-on. -/

namespace Sys2Proof.Machine

/-! ## The end of LISTEN -/

theorem phaseDue_of {s : State} {p : StartPhase} {deadline : Time} (phase : s.start.phase = p)
    (timer : s.start.phaseTimer = some deadline) (h : reached s.clock deadline = true) : s.phaseDue p = true := by
  simp [State.phaseDue, phase, timer, due, h]

/-- R104: in SETTLE the sampler of a fan station is CONTINUOUS. -/
theorem samplerMode_settle {s : State} (h : s.start.phase = .settle) :
    s.samplerMode = if s.setup.roles.fan then .continuous else .off := by
  simp only [State.samplerMode, h, State.hasFan]
  cases s.setup.roles.fan <;> rfl

/-- R154: SETTLE with the channels begun, before the sampler, the unserved field and the fill. -/
def State.settling (s : State) : State :=
  ({ s with
    inputs := s.inputs.beginFeedback s.clock
    start := { s.start with phase := .settle, phaseTimer := some (after s.clock Config.settle) } } : State).beginChannels

theorem settling_extraction (s : State) : s.settling.judgeSampler.extraction =
    s.extraction.judgeMode s.clock (if s.setup.roles.fan then .continuous else .off) :=
  congrArg (s.extraction.judgeMode s.clock) (samplerMode_settle (s := s.settling) rfl)

theorem enterSettle_extraction (s : State) : s.enterSettle.extraction =
    s.extraction.judgeMode s.clock (if s.setup.roles.fan then .continuous else .off) := settling_extraction s

theorem enterSettle_frame (s : State) : s.enterSettle = { s with
    start := { s.start with phase := .settle, phaseTimer := some (after s.clock 3000) }
    inputs := s.inputs.beginFeedback s.clock
    sensing := s.enterSettle.sensing
    extraction := s.enterSettle.extraction
    lineA := { s.lineA with slots := { s.lineA.slots with state := some s.enterSettle.reported } }
    lineB := { s.lineB with slots := { s.lineB.slots with state := some s.enterSettle.reported } }
    assembler := ⟨some (after s.clock 250), some s.enterSettle.reported⟩
    flags := if s.enterSettle.anyUnserved && !s.sensing.unserved then s.flags ||| Attention.unserved.mask else s.flags } :=
  rfl

/-- R104: an idle sampler starts a window at once when its mode becomes CONTINUOUS. -/
theorem judgeMode_starts {e : Extraction} (now : Time) (off : e.mode = .off) (idle : e.window = none) :
    (e.judgeMode now .continuous).window = some ⟨now, 0⟩ ∧ (e.judgeMode now .continuous).mode = .continuous := by
  simp [Extraction.judgeMode, Extraction.nextWindow, Extraction.startWindow, off, idle]

/-- Settles O7: the entry to SETTLE, field by field. -/
theorem listenEnds : Obligations.ListenEnds := by
  intro now s deadline phase timer hd
  have due : (s.takeAt now).phaseDue .listen = true := phaseDue_of phase timer hd
  refine ⟨(s.takeAt now).enterSettle, by simp [exec, execListenEnd, due], ?_, fun c => ?_, rfl, rfl, rfl, rfl,
    fun fan off idle => ?_⟩
  · have e := enterSettle_frame (s.takeAt now)
    rw [enterSettle_extraction] at e
    exact e
  · exact tabulate_at _ c
  · rw [enterSettle_extraction, State.takeAt_setup, fan, if_pos rfl]
    exact judgeMode_starts now off idle

/-! ## Right after power-on -/

theorem reset_role (o : Output) : State.reset.role o = .none := by
  simp [State.role, State.reset, Setup.blank]

theorem reset_peer (k : Station) : State.reset.peers[k] = .powerOn := by simp [State.reset]

theorem reset_valve (o : Output) : State.reset.valves[o] = .powerOn := by simp [State.reset]

theorem reset_barrier (o : Output) : State.reset.barrier o = .powerOn := by simp [State.barrier, State.reset]

theorem reset_siren (o : Output) : State.reset.sirens.units[o] = .powerOn := by simp [State.reset]

theorem reset_zoneLevel (z : Zone) : State.reset.zoneLevel z = .quiet := by
  simp [State.zoneLevel, ZonePicture.level, State.reset, Level.higher]

theorem reset_drivenOutput (o : Output) : State.reset.drivenOutput o = false := by
  simp [State.drivenOutput, reset_role]

theorem reset_motorsInTurn : State.reset.motorsInTurn where
  closing o h := by simp [reset_role, OutputRole.isMotor] at h
  motor o h := by simp [State.reset] at h
  supply _ := rfl
  queued o := by simp [State.reset, State.role, Setup.blank, OutputRole.isMotor]
  once := List.nodup_nil
  unarmed _ := ⟨fun o => by rw [reset_barrier]; rfl, rfl, rfl⟩
  order := List.Pairwise.nil
  run o h := by simp [State.reset] at h

theorem reset_outputsWait : State.reset.outputsWait where
  fan := rfl
  valve o := by rw [reset_valve]; exact ⟨rfl, rfl⟩
  barrier o := by rw [reset_barrier]; rfl
  queue := ⟨rfl, rfl⟩
  siren o := by rw [reset_siren]; rfl

theorem reset_sirensAnswer : State.reset.sirensAnswer where
  answer h := nomatch h
  wait _ o := by rw [reset_siren]; exact ⟨rfl, rfl, rfl, rfl⟩

theorem reset_pictureStands : State.reset.pictureStands where
  peers k := by rw [reset_peer]; exact .inr ⟨rfl, rfl⟩
  own := rfl
  live := by decide
  latched z := by simp [State.reset, Level.atLeast]
  views := by decide
  flood := by decide
  unserved := by decide
  conditions := rfl

/-- Settles O3: each power-on value is read off State.reset; an invariant holds there because nothing is active. -/
theorem resetHolds : Obligations.ResetHolds := by
  refine ⟨rfl, rfl, rfl, fun l => ?_, rfl, fun k => ?_, reset_zoneLevel, fun d => ?_, ?_, rfl, rfl, fun c => ?_, fun o => ?_,
    rfl, rfl, rfl, rfl, rfl, rfl, rfl, rfl, rfl, rfl, ?_, reset_motorsInTurn, reset_pictureStands, reset_sirensAnswer, ?_, ?_,
    reset_outputsWait, ?_, ?_, fun o => ?_, ?_, ?_⟩
  · cases l <;> exact ⟨rfl, rfl, rfl, rfl, rfl, rfl, rfl⟩
  · rw [reset_peer]; exact ⟨rfl, rfl, rfl⟩
  · simp [State.reset]
  · decide
  · have powerOn : State.reset.channel c = .powerOn := by simp [State.channel, State.reset]
    rw [powerOn]; exact ⟨rfl, rfl⟩
  · rw [State.valve, State.siren, reset_valve, reset_siren, reset_barrier]
    exact ⟨rfl, rfl, rfl, rfl, rfl, reset_drivenOutput o⟩
  · exact ⟨fun h => (nomatch h), fun h => (nomatch h)⟩
  · exact fun h => (nomatch h)
  · exact fun h => (nomatch h)
  · exact fun _ => ⟨rfl, by decide⟩
  · exact Nat.zero_le _
  · rw [reset_valve]; exact Nat.zero_le _
  · exact ⟨Nat.zero_le _, Nat.zero_le _⟩
  · exact ⟨reset_peer 0, fun h => (nomatch h)⟩

end Sys2Proof.Machine
end

section
/-! SUPPORT. A notice taken from a peer (R22, R25, R62): the sender's entry, the quiet tests and the unserved field. -/

namespace Sys2Proof.Machine

/-! ## Vectors -/

theorem change_change {α : Type} {n : Nat} (v : Vector α n) (i : Fin n) (f g : α → α) :
    change (change v i f) i g = change v i fun x => g (f x) := by
  apply vector_eq
  intro j
  by_cases h : j = i
  · subst h
    simp only [Fin.getElem_fin, change_same]
  · simp only [Fin.getElem_fin, change_other _ _ _ _ h]

theorem change_id {α : Type} {n : Nat} (v : Vector α n) (i : Fin n) : (change v i fun x => x) = v := by
  apply vector_eq
  intro j
  by_cases h : j = i
  · subst h
    simp only [Fin.getElem_fin, change_same]
  · simp only [Fin.getElem_fin, change_other _ _ _ _ h]

/-! ## What a change of the peer table brings to the lines and the channels -/

theorem flags_or_zero (m : BitVec 16) : m ||| 0 = m := BitVec.or_zero

/-- R22: what the judgement of one line writes. -/
theorem judgeQuiet_eq (s : State) (l : Line) : s.judgeQuiet l =
    { s.withLine l { s.line l with quiet := s.quietTests l } with
      record := s.record.fileAll s.clock
        (if s.quietTests l && !(s.line l).quiet then [⟨.lineQuiet, octet (lineCode l), 0⟩] else [])
      flags := s.flags ||| (if s.quietTests l && !(s.line l).quiet then
        (match l with | .a => Attention.lineAQuiet | .b => Attention.lineBQuiet).mask else 0) } := by
  simp only [State.judgeQuiet]
  cases s.quietTests l && !(s.line l).quiet
  · simp only [Bool.false_eq_true, if_false, fileAll_nil, flags_or_zero]
  · rfl

theorem judgeServed_flags (s : State) : s.judgeServed.flags =
    s.flags ||| (if s.anyUnserved && !s.sensing.unserved then Attention.unserved.mask else 0) := by
  simp only [State.judgeServed]
  cases s.anyUnserved && !s.sensing.unserved
  · simp only [Bool.false_eq_true, if_false, flags_or_zero]
  · rfl

/-- R22, R62: the quiet tests of both lines and the unserved field, each with its record and flag at an onset. -/
theorem afterHearing_eq (s : State) : s.afterHearing = { s with
    lineA := { s.lineA with quiet := s.quietTests .a }
    lineB := { s.lineB with quiet := s.quietTests .b }
    sensing := { s.sensing with unserved := s.anyUnserved }
    record := s.record.fileAll s.clock (s.quietRecords s)
    flags := s.flags ||| s.heardFlags s } := by
  have flags : s.afterHearing.flags = s.flags ||| s.heardFlags s := by
    simp only [State.afterHearing, judgeServed_flags, judgeQuiet_eq, State.heardFlags, BitVec.or_assoc]
    rfl
  have record : s.afterHearing.record = s.record.fileAll s.clock (s.quietRecords s) := by
    have e : s.afterHearing.record = ((s.judgeQuiet .a).judgeQuiet .b).record := rfl
    rw [e, judgeQuiet_eq (s.judgeQuiet .a), judgeQuiet_eq s]
    simp only [State.quietRecords, List.flatMap_cons, List.flatMap_nil, List.append_nil, fileAll_append]
    rfl
  rw [← flags, ← record]
  rfl

/-! ## A notice taken by its sender's entry -/

/-- R25: a notice taken at now on a line from k, which changes the entry by f after hearing it and files fs. -/
def State.noticed (s : State) (now : Time) (l : Line) (k : Station) (start : Time) (f : Peer → Peer) (fs : List Filing) :
    State :=
  { (s.takeAt now).withLine l ((s.line l).takeValid now) with
    peers := change s.peers k fun p => f (p.hear l start)
    record := s.record.fileAll now (peerPresentFilings k s.peers[k] ++ fs) }

section
variable (s : State) (now : Time) (l : Line) (k : Station) (start : Time) (f : Peer → Peer) (fs : List Filing)

theorem noticed_frame : (s.noticed now l k start f fs).afterHearing = { s with
    clock := now
    peers := change s.peers k fun p => f (p.hear l start)
    lineA := (s.noticed now l k start f fs).afterHearing.lineA
    lineB := (s.noticed now l k start f fs).afterHearing.lineB
    sensing := { s.sensing with unserved := (s.noticed now l k start f fs).afterHearing.anyUnserved }
    record := (s.noticed now l k start f fs).afterHearing.record
    flags := (s.noticed now l k start f fs).afterHearing.flags } := rfl

theorem noticed_line (m : Line) : (s.noticed now l k start f fs).afterHearing.line m =
    { (if m = l then { s.line l with
        stage := .busy
        counters := { (s.line l).counters with valid := bump (s.line l).counters.valid }
        lastValid := some ⟨now, none⟩ } else s.line m) with
      quiet := (s.noticed now l k start f fs).afterHearing.quietTests m } := by
  cases l <;> cases m <;> rfl

theorem noticed_flags : (s.noticed now l k start f fs).afterHearing.flags =
    s.flags ||| s.heardFlags (s.noticed now l k start f fs).afterHearing := by
  rw [congrArg State.flags (afterHearing_eq _)]
  cases l <;> rfl

theorem noticed_record : (s.noticed now l k start f fs).afterHearing.record =
    s.record.fileAll now (peerPresentFilings k s.peers[k] ++ fs ++
      s.quietRecords (s.noticed now l k start f fs).afterHearing) := by
  rw [congrArg State.record (afterHearing_eq _), fileAll_append]
  cases l <;> rfl

end

/-- R25: a notice heard without more is one that changes nothing else of the entry and files nothing else. -/
theorem heardFrom_eq (s : State) (now : Time) (l : Line) (k : Station) (start : Time) :
    (s.takeAt now).heardFrom l k start = s.noticed now l k start (fun p => p) [] := by
  simp only [State.heardFrom, State.noticed, List.append_nil]
  rfl

/-- R18 to R21: a valid notice from a peer is delivered. -/
theorem receive_taken {α : Type} {now : Time} {s : State} {l : Line} {c : BitVec 3} {read : List Byte → Option α}
    {rx : Received} {deliver : State → Station → Time → α → State} {k : Station} {x : α} {start : Time}
    (stage : (s.line l).stage ≠ .busy) (place : (s.line l).place = none) (started : s.started = true)
    (check : crc (covered c rx.sender rx.payload) = rx.check) (length : payloadLength c = some rx.payload.length)
    (content : read rx.payload = some x) (sender : rx.sender.toNat = k.val) (station : k ≠ 0) (other : k ≠ s.setup.number)
    (hstart : (s.line l).receiveStart rx.start = start) :
    (s.takeAt now).receive l c read rx deliver =
      deliver (s.noticed now l k start (fun p => p) []) k start x := by
  have from_ : stationOf rx = k := Fin.ext sender
  have nonzero : rx.sender ≠ 0 := by
    rintro e
    rw [e] at sender
    exact station (Fin.ext sender.symm)
  have receiving : ((s.takeAt now).line l).receiving = true := by
    rw [State.takeAt_line]; exact (receiving_iff _).mpr ⟨stage, place⟩
  rw [receive_delivers receiving (verdict_valid check length nonzero content) started (by rw [from_]; exact other),
    from_, State.takeAt_line, hstart, heardFrom_eq]

/-! ## Zone levels -/

theorem higher_code (x y : Level) : x.code ≤ (x.higher y).code ∧ y.code ≤ (x.higher y).code := by
  cases x <;> cases y <;> decide

/-- R32: the live level of a zone is not below a contribution to it. -/
theorem highestIn_least (z : Zone) (cs : List (Zone × Level)) (c : Zone × Level) (h : c ∈ cs) (hz : c.1 = z) :
    c.2.code ≤ (highestIn z cs).code := by
  suffices general : ∀ l : Level, l.code ≤ (cs.foldl (fun l c => if c.1 = z then l.higher c.2 else l) l).code ∧
      (c ∈ cs → c.2.code ≤ (cs.foldl (fun l c => if c.1 = z then l.higher c.2 else l) l).code) from (general .quiet).2 h
  clear h
  induction cs with
  | nil => exact fun l => ⟨Nat.le_refl _, fun h => (nomatch h)⟩
  | cons d ds ih =>
    intro l
    obtain ⟨above, member⟩ := ih (if d.1 = z then l.higher d.2 else l)
    refine ⟨Nat.le_trans ?_ above, fun h => ?_⟩
    · split
      · exact (higher_code l d.2).1
      · exact Nat.le_refl _
    · rcases List.mem_cons.mp h with rfl | h
      · refine Nat.le_trans ?_ above
        rw [if_pos hz]
        exact (higher_code l c.2).2
      · exact member h

theorem evacuate_of_code {l : Level} (h : Level.evacuate.code ≤ l.code) : l = .evacuate := by
  cases l <;> simp [Level.code] at h ⊢

/-- R31, R32: a zone that a PRESENT entry overrides is live at EVACUATE. -/
theorem liveLevels_override (s : State) (k : Station) (z : Zone) (present : (s.peers[k]).presence = .present)
    (override : (s.peers[k]).override = some z) : s.liveLevels[z] = .evacuate := by
  simp only [State.liveLevels, Fin.getElem_fin, tabulate_at]
  refine evacuate_of_code (highestIn_least z s.contributions (z, .evacuate) ?_ rfl)
  refine List.mem_cons_of_mem _ (List.mem_filterMap.mpr ⟨s.peers[k], ?_, ?_⟩)
  · exact Vector.mem_toList_iff.mpr (Vector.getElem_mem k.isLt)
  · rw [Peer.contribution, present, override]; rfl

/-! ## CALL_NOTICE (R34) -/

theorem readCall_octet (z : Zone) : readCall? [octet z.val] = some z := by
  have small : (octet z.val).toNat = z.val := by
    rw [octet, BitVec.toNat_ofNat]; omega
  simp [readCall?, small]

theorem deliverCall_noticed (s : State) (now : Time) (l : Line) (k : Station) (start : Time) (z : Zone) :
    (s.noticed now l k start (fun p => p) []).deliverCall k start z =
      s.noticed now l k start (fun p => { p with override := some z })
        (if (s.peers[k]).override = some z then [] else [⟨.call, stationOctet k, BitVec.ofNat 16 z.val⟩]) := by
  have held : ((s.noticed now l k start (fun p => p) []).peers[k]).override = (s.peers[k]).override := by
    simp [State.noticed, Peer.hear]
  simp only [State.deliverCall, held]
  simp only [State.noticed, change_change, List.append_nil]
  split
  · simp only [List.append_nil]
  · simp only [fileAll_append]
    rfl

theorem present_of_noticed (s : State) (now : Time) (l : Line) (k : Station) (start : Time) (f : Peer → Peer)
    (fs : List Filing) : (s.noticed now l k start f fs).afterHearing.peers[k] = f ((s.peers[k]).hear l start) := by
  exact change_same s.peers k _

theorem latchRule_evacuate (latched : Level) : latchRule .evacuate latched = .evacuate := by cases latched <;> rfl

/-- Settles O19: the state with the notice and its override taken is u, and the consequences follow. -/
theorem callNoticeTaken : Obligations.CallNoticeTaken := by
  intro now l rx k z start s stage place started check payload sender station other hstart
  let fs : List Filing :=
    if (s.peers[k]).override = some z then [] else [⟨.call, stationOctet k, BitVec.ofNat 16 z.val⟩]
  let u := (s.noticed now l k start (fun p => { p with override := some z }) fs).afterHearing
  have taken : exec (.callNotice now l rx) s = .next u.settle := by
    have length : payloadLength classCall = some rx.payload.length := by rw [payload]; rfl
    have content : readCall? rx.payload = some z := by rw [payload]; exact readCall_octet z
    simp only [exec, execCallNotice, answer_eq,
      receive_taken stage place started check length content sender station other hstart, deliverCall_noticed, u, fs]
  have settled := settle_settledFrom u
  have live : u.settle.zones.live[z] = .evacuate := by
    rw [settled.live]
    apply liveLevels_override _ k
    · rw [(settle_follows u).peers, present_of_noticed]; rfl
    · rw [(settle_follows u).peers, present_of_noticed]
  refine ⟨u.settle, u, taken, settled, ⟨rfl, rfl, rfl, rfl, rfl, rfl, rfl⟩, noticed_frame .., noticed_line s now l k start _ _,
    rfl, noticed_flags .., noticed_record .., live, ?_⟩
  rw [settled.latched, live, latchRule_evacuate]

/-! ## KEY_NOTICE with the stored count (R42) -/

theorem readKey_octet (key : KeyKind) (count : Byte) : readKey? [octet key.code, count] = some (key, count) := by
  cases key <;> rfl

theorem pressCount_hear (p : Peer) (l : Line) (start : Time) (key : KeyKind) :
    (p.hear l start).pressCount key = p.pressCount key := by cases key <;> rfl

/-- R17: a fill that a changed field brings, in the terms of Safety. -/
theorem fillOnChange_refilledFrom (s : State) : s.refilledFrom s.fillOnChange := by
  have same : s.reportChanged = false → s.fillOnChange = s := fun h => by
    rw [State.fillOnChange, h]; rfl
  have changed : s.reportChanged = true → s.assembler.last ≠ some s.reported := fun h => by
    simp only [State.reportChanged, Bool.and_eq_true, bne_iff_ne] at h
    exact h.2
  refine ⟨rfl, fillOnChange_reportStands s, fun h => ?_, fun h => ?_, fun h => ?_⟩
  · rcases Bool.eq_false_or_eq_true s.reportChanged with e | e
    · rw [State.fillOnChange, e]
      exact ⟨rfl, rfl, rfl⟩
    · exact absurd (congrArg State.assembler (same e)) h
  · rcases Bool.eq_false_or_eq_true s.reportChanged with e | e
    · rw [State.fillOnChange, e] at h
      exact absurd (congrArg Assembler.last h).symm (changed e)
    · exact same e
  · rcases Bool.eq_false_or_eq_true s.reportChanged with e | e
    · exact absurd h (changed e)
    · exact same e

/-- Settles O23: the notice is heard, and the key is not delivered. -/
theorem keyDuplicateIgnored : Obligations.KeyDuplicateIgnored := by
  intro now l rx k key count start s stage place started check payload sender station other hstart stored
  let u := (s.noticed now l k start (fun p => p) []).afterHearing
  have held : (u.peers[k]).pressCount key = some count := by
    rw [present_of_noticed, pressCount_hear]; exact stored
  have taken : exec (.keyNotice now l rx) s = .next u.fillOnChange := by
    have length : payloadLength classKey = some rx.payload.length := by rw [payload]; rfl
    have content : readKey? rx.payload = some (key, count) := by rw [payload]; exact readKey_octet key count
    simp only [exec, execKeyNotice, answer_eq,
      receive_taken stage place started check length content sender station other hstart, State.deliverKey]
    exact congrArg (fun t : State => Host.Outcome.next t.fillOnChange) (if_pos held)
  refine ⟨u.fillOnChange, u, taken, fillOnChange_refilledFrom u, noticed_frame .., noticed_line s now l k start _ _,
    noticed_flags .., ?_, held⟩
  have record := noticed_record s now l k start (fun p => p) []
  rw [List.append_nil] at record
  exact record

/-! ## PEER_LOST (R27) -/

theorem outOfDate_of {now : Time} {p : Peer} {i : Instant} (present : p.presence = .present)
    (h : latestOf p.heardA p.heardB = some i) (old : 1500 ≤ i.elapsed now) : p.outOfDate now = true := by
  simp [Peer.outOfDate, present, h, elapsedFrom, Config.freshness, old]

theorem lostValue_eq (now : Time) (p : Peer) : p.lostValue now = (match p.received with
    | some r => sat16 (r.elapsed now)
    | none => 0xFFFF#16) := by
  unfold Peer.lostValue
  cases p.received <;> rfl

/-- R27: the entry LOST, with its record and flag, before the tests that follow. -/
def State.withLost (s : State) (k : Station) : State :=
  { s with
    peers := change s.peers k Peer.lose
    record := s.record.file s.clock ⟨.peerLost, stationOctet k, (s.peers[k]).lostValue s.clock⟩
    flags := s.flags ||| Attention.peerLost.mask }

theorem losePeer_eq (s : State) (k : Station) : s.losePeer k = (s.withLost k).afterHearing.chooseLeaders.settle := rfl

/-- Settles O26: the entry is LOST, the quiet tests, the unserved field and the leaders follow, and the consequences. -/
theorem peerIsLost : Obligations.PeerIsLost := by
  intro now k i s present heard old
  let u := ((s.takeAt now).withLost k).afterHearing.chooseLeaders
  have taken : exec (.peerLost now k) s = .next u.settle := by
    have outdated : (s.peers[k]).outOfDate now = true := outOfDate_of present heard old
    simp only [exec, execPeerLost, State.takeAt_peers, outdated, if_true, answer_eq, losePeer_eq, u]
  refine ⟨u.settle, u, taken, settle_settledFrom u, rfl, ?_, ?_⟩
  · exact congrArg State.flags (afterHearing_eq ((s.takeAt now).withLost k))
  · refine (congrArg State.record (afterHearing_eq ((s.takeAt now).withLost k))).trans ?_
    exact congrArg (fun v => (s.record.file now ⟨.peerLost, stationOctet k, v⟩).fileAll now (s.quietRecords u))
      (lostValue_eq now s.peers[k])

end Sys2Proof.Machine
end

section
/-! SUPPORT. What every command but POWER_ON keeps, once for each operation and once for each command: Guards and Changes say
what is true of t when t is s after some of a command's own effects, and Taken what the whole command comes to. The invariants
and the whole-machine rules are read off Taken. -/

namespace Sys2Proof.Machine

/-! ## Guards and Changes -/

/-- What holds after any effect of a command that leaves the start phase and the configuration alone: a line sends only with
permission, the counts and the event record keep their bounds, outputs wait for OPERATING, and no entry is the own one. -/
structure Guards (s t : State) : Prop where
  phase : t.start.phase = s.start.phase
  setup : t.setup = s.setup
  place : ∀ l : Line, (t.line l).place.isSome = true → (s.line l).place.isSome = true ∨ s.permitted = true
  errors : ∀ l : Line, (s.line l).consecutive ≤ Config.txErrorLimit → (t.line l).consecutive ≤ Config.txErrorLimit
  record : s.recordFits → t.recordFits
  waits : s.operating = false → s.outputsWait → t.outputsWait
  entries : s.noOwnEntry → t.noOwnEntry

/-- What holds besides after the effects of a RESET: the schedules lose windows at most, no cause goes, and the fan leaves
STARTING or RUNNING by causes alone. -/
structure Clears (s t : State) : Prop extends Guards s t where
  schedules : ∀ o : Output, (t.valves[o].schedule).Sublist s.valves[o].schedule
  causes : causesWithin s.extraction.causes t.extraction.causes
  fan : s.extraction.phase.caused t.extraction.phase = true

/-- What holds besides after the effects that come before the consequences of an event: the zone picture stands, and no flag
goes. -/
structure Changes (s t : State) : Prop extends Clears s t where
  zones : t.zones = s.zones
  flags : flagsWithin s.flags t.flags

section
variable {s t u : State}

theorem Guards.started (h : Guards s t) : t.started = s.started := by simp only [State.started, h.phase]
theorem Guards.permitted (h : Guards s t) : t.permitted = s.permitted := by simp only [State.permitted, h.phase]
theorem Guards.operating (h : Guards s t) : t.operating = s.operating := by simp only [State.operating, h.phase]

theorem Guards.trans (h : Guards s t) (h' : Guards t u) : Guards s u where
  phase := h'.phase.trans h.phase
  setup := h'.setup.trans h.setup
  place l e := (h'.place l e).elim (h.place l) fun p => .inr (h.permitted ▸ p)
  errors l := h'.errors l ∘ h.errors l
  record := h'.record ∘ h.record
  waits ho w := h'.waits (h.operating.trans ho) (h.waits ho w)
  entries := h'.entries ∘ h.entries

theorem Clears.trans (h : Clears s t) (h' : Clears t u) : Clears s u where
  toGuards := h.toGuards.trans h'.toGuards
  schedules o := (h'.schedules o).trans (h.schedules o)
  causes := causesWithin_trans h.causes h'.causes
  fan := caused_trans h.fan h'.fan

theorem Changes.trans (h : Changes s t) (h' : Changes t u) : Changes s u where
  toClears := h.toClears.trans h'.toClears
  zones := h'.zones.trans h.zones
  flags := flagsWithin_trans h.flags h'.flags

theorem noOwnEntry_same (peers : t.peers = s.peers) (setup : t.setup = s.setup) (started : t.started = s.started)
    (h : s.noOwnEntry) : t.noOwnEntry := by
  obtain ⟨zero, own⟩ := h
  refine ⟨by rw [peers]; exact zero, fun st => ?_⟩
  simp only [peers, setup]
  exact own (started.symm.trans st)

theorem Keeps.place (h : Keeps s t) (l : Line) : (t.line l).place = (s.line l).place :=
  (congrArg LineInterface.place (h.line l) : (t.line l).apart.place = (s.line l).apart.place)

theorem Keeps.consecutive (h : Keeps s t) (l : Line) : (t.line l).consecutive = (s.line l).consecutive :=
  (congrArg LineInterface.consecutive (h.line l) : (t.line l).apart.consecutive = (s.line l).apart.consecutive)

theorem Keeps.guards (h : Keeps s t) : Guards s t where
  phase := congrArg Start.phase h.start
  setup := h.setup
  place l e := .inl (h.place l ▸ e)
  errors l e := h.consecutive l ▸ e
  record := h.recordFits
  waits := h.waits
  entries := noOwnEntry_same h.peers h.setup h.started

theorem Follows.clears (h : Follows s t) : Clears s t where
  toGuards := h.toKeeps.guards
  schedules o := by rw [cutFrom_schedule (h.valves o)]
  causes := h.causes
  fan := h.fan

theorem Consumes.changes (h : Consumes s t) : Changes s t where
  toClears := h.toFollows.clears
  zones := h.zones
  flags := h.flags

theorem changes_refl (s : State) : Changes s s := (Consumes.refl s).changes

/-! ## One part of the state changed -/

/-- The parts that Guards and Changes do not read, with the event record and the attention flags. -/
theorem changes_marked (same : t = { s with
      clock := t.clock, agings := t.agings, start := { t.start with phase := s.start.phase }
      lineA := { t.lineA with place := s.lineA.place, consecutive := s.lineA.consecutive }
      lineB := { t.lineB with place := s.lineB.place, consecutive := s.lineB.consecutive }
      assembler := t.assembler, views := t.views, flood := t.flood, inputs := t.inputs, press := t.press, own := t.own
      sensing := t.sensing, supply := t.supply, record := t.record, flags := t.flags, port := t.port, pending := t.pending })
    (record : s.recordFits → t.recordFits) (flags : flagsWithin s.flags t.flags) : Changes s t where
  phase := by rw [same]
  setup := by rw [same]
  place l e := .inl (by rw [same] at e; cases l <;> exact e)
  errors l e := by rw [same]; cases l <;> exact e
  record := record
  waits _ w := by rw [same]; exact ⟨w.fan, w.valve, w.barrier, w.queue, w.siren⟩
  entries := by rw [same]; exact noOwnEntry_same rfl rfl rfl
  schedules _ := by rw [same]
  zones := by rw [same]
  flags := flags
  causes := by rw [same]; exact causesWithin_refl _
  fan := by rw [same]; exact caused_refl _

/-- The parts that Guards and Changes do not read. -/
theorem changes_beside (same : t = { s with
      clock := t.clock, agings := t.agings, start := { t.start with phase := s.start.phase }
      lineA := { t.lineA with place := s.lineA.place, consecutive := s.lineA.consecutive }
      lineB := { t.lineB with place := s.lineB.place, consecutive := s.lineB.consecutive }
      assembler := t.assembler, views := t.views, flood := t.flood, inputs := t.inputs, press := t.press, own := t.own
      sensing := t.sensing, supply := t.supply, port := t.port, pending := t.pending }) : Changes s t := by
  refine changes_marked (same.trans ?_) ?_ ?_ <;> rw [same]
  · exact fun h => h
  · exact flagsWithin_refl _

theorem changes_takeAt (s : State) (now : Time) : Changes s (s.takeAt now) := changes_beside rfl

theorem changes_inputs (s : State) (i : Inputs) : Changes s { s with inputs := i } := changes_beside rfl
theorem changes_sensing (s : State) (x : Sensing) : Changes s { s with sensing := x } := changes_beside rfl
theorem changes_supply (s : State) (x : Supply) : Changes s { s with supply := x } := changes_beside rfl

theorem changes_file (s : State) (f : Filing) : Changes s { s with record := s.record.file s.clock f } :=
  (fileAll_consumes s [f]).changes

theorem changes_fileAll (s : State) (fs : List Filing) : Changes s (s.fileAll fs) := (fileAll_consumes s fs).changes

theorem changes_raise (s : State) (a : Attention) : Changes s (s.raise a) := (raise_consumes s a).changes

/-- The record and the attention flags changed. -/
theorem changes_marks (s : State) {r : EventRecord} {m : BitVec 16}
    (record : s.recordFits → r.entries.length ≤ Config.recordPlaces) (flags : flagsWithin s.flags m) :
    Changes s { s with record := r, flags := m } := changes_marked rfl record flags

theorem changes_record (s : State) (r : EventRecord) (h : s.recordFits → r.entries.length ≤ Config.recordPlaces) :
    Changes s { s with record := r } := changes_marks s h (flagsWithin_refl _)

theorem file_length (r : EventRecord) (now : Time) (f : Filing) (h : r.entries.length ≤ Config.recordPlaces) :
    (r.file now f).entries.length ≤ Config.recordPlaces := push_length r _ h

theorem file_ite_length (b : Prop) [Decidable b] (r : EventRecord) (now : Time) (f : Filing)
    (h : r.entries.length ≤ Config.recordPlaces) :
    (if b then r.file now f else r).entries.length ≤ Config.recordPlaces := by
  split
  · exact file_length r now f h
  · exact h

theorem ite_file_length (b : Prop) [Decidable b] (r : EventRecord) (now : Time) (f : Filing)
    (h : r.entries.length ≤ Config.recordPlaces) :
    (if b then r else r.file now f).entries.length ≤ Config.recordPlaces := by
  split
  · exact h
  · exact file_length r now f h

/-- Both lines changed. -/
theorem changes_lines (s : State) (x y : LineInterface)
    (place : (x.place.isSome = true → s.lineA.place.isSome = true ∨ s.permitted = true) ∧
      (y.place.isSome = true → s.lineB.place.isSome = true ∨ s.permitted = true))
    (errors : (s.lineA.consecutive ≤ Config.txErrorLimit → x.consecutive ≤ Config.txErrorLimit) ∧
      (s.lineB.consecutive ≤ Config.txErrorLimit → y.consecutive ≤ Config.txErrorLimit)) :
    Changes s { s with lineA := x, lineB := y } where
  phase := rfl
  setup := rfl
  place l := by
    cases l
    · exact place.1
    · exact place.2
  errors l := by
    cases l
    · exact errors.1
    · exact errors.2
  record h := h
  waits _ w := ⟨w.fan, w.valve, w.barrier, w.queue, w.siren⟩
  entries := noOwnEntry_same rfl rfl rfl
  schedules _ := List.Sublist.refl _
  zones := rfl
  flags := flagsWithin_refl _
  causes := causesWithin_refl _
  fan := caused_refl _

theorem changes_line (s : State) (l : Line) (x : LineInterface)
    (place : x.place.isSome = true → (s.line l).place.isSome = true ∨ s.permitted = true)
    (errors : (s.line l).consecutive ≤ Config.txErrorLimit → x.consecutive ≤ Config.txErrorLimit) :
    Changes s (s.withLine l x) := by
  cases l
  · exact changes_lines s x s.lineB ⟨place, .inl⟩ ⟨errors, id⟩
  · exact changes_lines s s.lineA x ⟨.inl, place⟩ ⟨id, errors⟩

/-- R24: one entry changed, which is not the own one. -/
theorem changes_peer (s : State) (k : Station) (f : Peer → Peer)
    (other : s.noOwnEntry → k ≠ 0 ∧ (s.started = true → k ≠ s.setup.number)) :
    Changes s { s with peers := change s.peers k f } where
  phase := rfl
  setup := rfl
  place l e := .inl (by cases l <;> exact e)
  errors l e := by cases l <;> exact e
  record h := h
  waits _ w := ⟨w.fan, w.valve, w.barrier, w.queue, w.siren⟩
  entries h := by
    obtain ⟨zero, own⟩ := other h
    refine ⟨?_, fun started => ?_⟩
    · exact (change_other s.peers k 0 f zero.symm).trans h.1
    · exact (change_other s.peers k s.setup.number f (own started).symm).trans (h.2 started)
  schedules _ := List.Sublist.refl _
  zones := rfl
  flags := flagsWithin_refl _
  causes := causesWithin_refl _
  fan := caused_refl _

/-- R24: one entry changed with what is filed of it. -/
theorem changes_entry (s : State) (k : Station) (f : Peer → Peer) {r : EventRecord} {m : BitVec 16}
    (other : s.noOwnEntry → k ≠ 0 ∧ (s.started = true → k ≠ s.setup.number))
    (record : s.recordFits → r.entries.length ≤ Config.recordPlaces) (flags : flagsWithin s.flags m) :
    Changes s { s with peers := change s.peers k f, record := r, flags := m } :=
  (changes_peer s k f other).trans (changes_marks { s with peers := change s.peers k f } record flags)

theorem changes_valves (s : State) (v : Vector Valve 4)
    (schedule : ∀ o : Output, (v[o].schedule).Sublist s.valves[o].schedule)
    (idle : s.operating = false → ∀ o : Output, s.valves[o].state = .idle ∧ s.valves[o].confirmTimer = none →
      v[o].state = .idle ∧ v[o].confirmTimer = none) : Changes s { s with valves := v } where
  phase := rfl
  setup := rfl
  place l e := .inl (by cases l <;> exact e)
  errors l e := by cases l <;> exact e
  record h := h
  waits ho w := ⟨w.fan, fun o => idle ho o (w.valve o), w.barrier, w.queue, w.siren⟩
  entries := noOwnEntry_same rfl rfl rfl
  schedules := schedule
  zones := rfl
  flags := flagsWithin_refl _
  causes := causesWithin_refl _
  fan := caused_refl _

theorem changes_valve (s : State) (o : Output) (v : Valve) (schedule : (v.schedule).Sublist s.valves[o].schedule)
    (idle : s.operating = false → s.valves[o].state = .idle ∧ s.valves[o].confirmTimer = none →
      v.state = .idle ∧ v.confirmTimer = none) : Changes s (s.withValve o v) := by
  refine changes_valves s (put s.valves o v) (fun p => ?_) fun ho p w => ?_
  · by_cases e : p = o
    · subst e; simp only [Fin.getElem_fin, put_same]; exact schedule
    · simp only [Fin.getElem_fin, put_other _ _ _ _ e]; exact List.Sublist.refl _
  · by_cases e : p = o
    · subst e; simp only [Fin.getElem_fin, put_same]; exact idle ho w
    · simp only [Fin.getElem_fin, put_other _ _ _ _ e]; exact w

theorem changes_extraction (s : State) (e : Extraction) (causes : causesWithin s.extraction.causes e.causes)
    (fan : s.extraction.phase.caused e.phase = true) : Changes s { s with extraction := e } where
  phase := rfl
  setup := rfl
  place l e := .inl (by cases l <;> exact e)
  errors l e := by cases l <;> exact e
  record h := h
  waits _ w := ⟨by
    show e.phase = .standby
    rw [w.fan] at fan
    revert fan
    cases e.phase <;> decide, w.valve, w.barrier, w.queue, w.siren⟩
  entries := noOwnEntry_same rfl rfl rfl
  schedules _ := List.Sublist.refl _
  zones := rfl
  flags := flagsWithin_refl _
  causes := causes
  fan := fan

/-- The extraction controller changed in neither its causes nor its phase. -/
theorem changes_fan (s : State) (e : Extraction) (causes : e.causes = s.extraction.causes)
    (phase : e.phase = s.extraction.phase) : Changes s { s with extraction := e } :=
  changes_extraction s e (by rw [causes]; exact causesWithin_refl _) (by rw [phase]; exact caused_refl _)

theorem changes_barriers (s : State) (b : Barriers)
    (waits : s.operating = false → s.outputsWait → ({ s with barriers := b } : State).outputsWait) :
    Changes s { s with barriers := b } where
  phase := rfl
  setup := rfl
  place l e := .inl (by cases l <;> exact e)
  errors l e := by cases l <;> exact e
  record h := h
  waits := waits
  entries := noOwnEntry_same rfl rfl rfl
  schedules _ := List.Sublist.refl _
  zones := rfl
  flags := flagsWithin_refl _
  causes := causesWithin_refl _
  fan := caused_refl _

/-- The barriers changed while the station is OPERATING, or in a state that keeps them UNARMED otherwise. -/
theorem changes_barriers_operating (s : State) (b : Barriers) (ho : s.operating = true) :
    Changes s { s with barriers := b } :=
  changes_barriers s b fun h => by rw [ho] at h; cases h

theorem changes_sirens (s : State) (x : Sirens)
    (driven : s.operating = false → (∀ o : Output, s.sirens.units[o].driven = false) →
      ∀ o : Output, x.units[o].driven = false) : Changes s { s with sirens := x } where
  phase := rfl
  setup := rfl
  place l e := .inl (by cases l <;> exact e)
  errors l e := by cases l <;> exact e
  record h := h
  waits ho w := ⟨w.fan, w.valve, w.barrier, w.queue, driven ho w.siren⟩
  entries := noOwnEntry_same rfl rfl rfl
  schedules _ := List.Sublist.refl _
  zones := rfl
  flags := flagsWithin_refl _
  causes := causesWithin_refl _
  fan := caused_refl _

end

/-! ## What a command comes to -/

/-- R149: what State.commandNear says of one command. -/
def State.nearFor (s : State) (c : Instr) : Prop :=
  ∀ now, c.clockOf = some now → s.schedulesNear now ∧
    (∀ l rx, c = .sparkNotice now l rx → (((s.line l).receiveStart rx.start) - now).toInt.natAbs < 2 ^ 28) ∧
    ∀ channel width pulse, c = .sensorPulseEnd now channel width → (s.channel channel).pulse = some pulse →
      (pulse - now).toInt.natAbs < 2 ^ 28

/-- R33: no latched level falls, and one that differs is the live level, at FIRE or above. -/
def State.latchesRise (s t : State) : Prop :=
  ∀ z : Zone, (s.zones.latched[z]).code ≤ (t.zones.latched[z]).code ∧
    (t.zones.latched[z] ≠ s.zones.latched[z] →
      (t.zones.latched[z]).atLeast .fire = true ∧ t.zones.latched[z] = t.zones.live[z])

/-- R107, Table 6.2: the moves of the fan phase that a command makes. -/
structure FanMoves (c : Instr) (s t : State) : Prop where
  standby : t.extraction.phase = .standby → s.extraction.phase = .standby
  starting : t.extraction.phase = .starting → s.extraction.phase = .starting ∨ s.acceptsStart c
  running : t.extraction.phase = .running → s.extraction.phase = .running ∨
    (s.extraction.phase = .starting ∧ ∃ now, c = .sampleComplete now)
  diverting : t.extraction.phase = .diverting →
    s.extraction.phase = .diverting ∨ s.extraction.phase = .starting ∨ s.extraction.phase = .running
  rundown : t.extraction.phase = .rundown → s.extraction.phase = .rundown ∨ s.extraction.phase = .diverting ∨
    s.extraction.phase = .starting ∨ s.extraction.phase = .running
  stopped : t.extraction.phase = .stopped → s.extraction.phase = .stopped ∨ s.extraction.phase = .rundown

/-- What every command but POWER_ON comes to, for the invariants and the whole-machine rules. -/
structure Taken (c : Instr) (s t : State) : Prop where
  started : s.started = true → t.started = true
  quiet : s.quietLines → t.quietLines
  fault : s.start.phase = .configFault → t.start.phase = .configFault
  waits : (s.operating = false → s.outputsWait) → t.operating = false → t.outputsWait
  report : s.reportStands → t.reportStands
  record : s.recordFits → t.recordFits
  schedules : s.schedulesFit → t.schedulesFit
  errors : s.errorsFit → t.errorsFit
  entries : s.inert → s.noOwnEntry → t.noOwnEntry
  ranges : (s.started = true → s.setup.releaseRanges) → t.started = true → t.setup.releaseRanges
  order : s.inert → (s.started = true → s.setup.releaseRanges) → s.nearFor c → s.schedulesInOrder → t.schedulesInOrder
  flags : ¬s.takesReset c → flagsWithin s.flags t.flags
  latches : ¬s.takesReset c → s.latchesRise t
  causes : ¬s.acceptsStart c → causesWithin s.extraction.causes t.extraction.causes
  fan : s.pictureStands → FanMoves c s t

section
variable {c : Instr} {s t u : State}

theorem fanMoves_caused (h : s.extraction.phase.caused t.extraction.phase = true) : FanMoves c s t := by
  constructor <;> intro e <;> rw [e] at h <;> revert h <;> cases s.extraction.phase <;> simp [FanPhase.caused]

/-- R85: a schedule that loses windows stays in order. -/
theorem inSchedule_sublist {g : Nat} {ws vs : List Window} (h : inSchedule g ws) (sub : vs.Sublist ws) : inSchedule g vs :=
  ⟨fun w m => h.1 w (sub.subset m), h.2.sublist sub⟩

theorem latchesRise_same (h : t.zones = s.zones) : s.latchesRise t := fun z => by
  rw [h]
  exact ⟨Nat.le_refl _, fun e => absurd rfl e⟩

theorem latchRule_rises (live latched : Level) : latchRule live latched ≠ latched →
    (latchRule live latched).atLeast .fire = true ∧ latchRule live latched = live := by
  cases live <;> cases latched <;> decide

/-- R33: the latch rule applied once to the live levels. -/
theorem latchesRise_rule (h : ∀ z : Zone, t.zones.latched[z] = latchRule t.zones.live[z] s.zones.latched[z]) :
    s.latchesRise t := fun z => by
  rw [h z]
  exact ⟨latchRule_code _ _, latchRule_rises _ _⟩

/-- R17: a report stands when nothing that it reports has changed. -/
theorem reportStands_same (phase : t.start.phase = s.start.phase) (reported : t.reported = s.reported)
    (last : t.assembler.last = s.assembler.last) (h : s.reportStands) : t.reportStands := fun permitted => by
  rw [reported, last]
  exact h (by simpa only [State.permitted, phase] using permitted)

/-- What the guards alone give. -/
theorem Guards.taken (h : Guards s t) (report : s.reportStands → t.reportStands)
    (schedules : s.schedulesFit → t.schedulesFit)
    (order : (s.started = true → s.setup.releaseRanges) → s.nearFor c → s.schedulesInOrder → t.schedulesInOrder)
    (flags : ¬s.takesReset c → flagsWithin s.flags t.flags) (latches : ¬s.takesReset c → s.latchesRise t)
    (causes : ¬s.acceptsStart c → causesWithin s.extraction.causes t.extraction.causes)
    (fan : s.pictureStands → FanMoves c s t) : Taken c s t where
  started e := h.started.trans e
  quiet q := by
    refine ⟨fun e => ?_, fun e => ?_⟩ <;> rw [h.permitted]
    · exact (h.place .a e).elim q.1 id
    · exact (h.place .b e).elim q.2 id
  fault e := h.phase.trans e
  waits w ho := h.waits (h.operating.symm.trans ho) (w (h.operating.symm.trans ho))
  report := report
  record := h.record
  schedules := schedules
  errors e := ⟨h.errors .a e.1, h.errors .b e.2⟩
  entries _ := h.entries
  ranges r started := by rw [h.setup]; exact r (h.started.symm.trans started)
  order _ := order
  flags := flags
  latches := latches
  causes := causes
  fan := fan

theorem schedulesFit_sublist (h : ∀ o : Output, (t.valves[o].schedule).Sublist s.valves[o].schedule)
    (fits : s.schedulesFit) : t.schedulesFit := fun o => Nat.le_trans (h o).length_le (fits o)

theorem schedulesInOrder_sublist (h : ∀ o : Output, (t.valves[o].schedule).Sublist s.valves[o].schedule)
    (setup : t.setup = s.setup) (order : s.schedulesInOrder) : t.schedulesInOrder := fun o => by
  rw [setup]
  exact inSchedule_sublist (order o) (h o)

/-- A command without consequences. -/
theorem Changes.taken (h : Changes s t) (report : s.reportStands → t.reportStands) : Taken c s t :=
  h.toGuards.taken report (schedulesFit_sublist h.schedules) (fun _ _ => schedulesInOrder_sublist h.schedules h.setup)
    (fun _ => h.flags) (fun _ => latchesRise_same h.zones) (fun _ => h.causes) fun _ => fanMoves_caused h.fan

/-- A command that changes nothing that is reported. -/
theorem Changes.still (h : Changes s t) (reported : t.reported = s.reported)
    (last : t.assembler.last = s.assembler.last) : Taken c s t :=
  h.taken (reportStands_same h.phase reported last)

/-- R17: what a STATE reports is read from the configuration, the own level, the flood states and the controllers. -/
theorem reported_beside (same : t = { s with
      clock := t.clock, agings := t.agings, start := { t.start with phase := s.start.phase }
      lineA := t.lineA, lineB := t.lineB, peers := t.peers
      zones := t.zones, views := t.views, inputs := t.inputs, press := t.press, own := { t.own with level := s.own.level }
      record := t.record, flags := t.flags, port := t.port, pending := t.pending }) : t.reported = s.reported := by
  rw [same]
  rfl

/-- A command that changes nothing of what is reported, and fills nothing. -/
theorem Changes.beside (h : Changes s t) (same : t = { s with
      clock := t.clock, agings := t.agings, start := { t.start with phase := s.start.phase }
      lineA := t.lineA, lineB := t.lineB, peers := t.peers
      zones := t.zones, views := t.views, inputs := t.inputs, press := t.press, own := { t.own with level := s.own.level }
      record := t.record, flags := t.flags, port := t.port, pending := t.pending }) : Taken c s t :=
  h.still (reported_beside same) (by rw [same])

/-- A command that ends with the fill that a changed field brings. -/
theorem Changes.filled (h : Changes s u) : Taken c s u.fillOnChange :=
  (h.trans (fillOnChange_consumes u).changes).taken fun _ => fillOnChange_reportStands u

theorem settleWith_schedules (u : State) (event : List Cause) (o : Output) :
    (u.settleWith event).valves[o].schedule = u.valves[o].schedule :=
  cutFrom_schedule ((settleWith_follows u event).valves o)

theorem settleWith_schedules_sublist (h : ∀ o : Output, (u.valves[o].schedule).Sublist s.valves[o].schedule)
    (event : List Cause) (o : Output) : ((u.settleWith event).valves[o].schedule).Sublist s.valves[o].schedule := by
  rw [settleWith_schedules]
  exact h o

theorem settleWith_latchesRise (u : State) (event : List Cause) : u.latchesRise (u.settleWith event) :=
  latchesRise_rule (settleWith_settledFrom u event).latched

theorem latchesRise_from (zones : u.zones = s.zones) (h : u.latchesRise t) : s.latchesRise t := by
  unfold State.latchesRise at *
  rw [zones] at h
  exact h

/-- A command whose consequences follow, with what is said of its own effects and of the moves of the fan. -/
theorem Guards.settled (h : Guards s u) (event : List Cause)
    (schedules : ∀ o : Output, (u.valves[o].schedule).Sublist s.valves[o].schedule) (zones : u.zones = s.zones)
    (flags : flagsWithin s.flags u.flags)
    (causes : ¬s.acceptsStart c → causesWithin s.extraction.causes u.extraction.causes)
    (fan : s.pictureStands → FanMoves c s (u.settleWith event)) : Taken c s (u.settleWith event) := by
  have follows := settleWith_follows u event
  have shorter := settleWith_schedules_sublist schedules event
  exact (h.trans follows.toKeeps.guards).taken (fun _ => settleWith_report u event) (schedulesFit_sublist shorter)
    (fun _ _ => schedulesInOrder_sublist shorter (follows.setup.trans h.setup))
    (fun _ => flagsWithin_trans flags follows.flags)
    (fun _ => latchesRise_from zones (settleWith_latchesRise u event))
    (fun refused => causesWithin_trans (causes refused) follows.causes) fan

/-- A command whose consequences follow. -/
theorem Changes.settled (h : Changes s u) (event : List Cause) : Taken c s (u.settleWith event) :=
  h.toGuards.settled event h.schedules h.zones h.flags (fun _ => h.causes)
    fun _ => fanMoves_caused (caused_trans h.fan (settleWith_follows u event).fan)

theorem Changes.settles (h : Changes s u) : Taken c s u.settle := h.settled []

/-- A command whose event cannot occur in the state (assumption 1). -/
theorem taken_takeAt (c : Instr) (s : State) (now : Time) : Taken c s (s.takeAt now) := (changes_takeAt s now).still rfl rfl

theorem taken_ite {b : Bool} (h : b = true → Taken c s t) (h' : b = false → Taken c s u) :
    Taken c s (if b then t else u) := by
  cases b
  · exact h' rfl
  · exact h rfl

theorem taken_if {now : Time} {b : Bool} (h : b = true → Taken c s t) : Taken c s (if b then t else s.takeAt now) := by
  cases b
  · exact taken_takeAt c s now
  · exact h rfl

end

/-- What a command comes to in every state. -/
def Takes (c : Instr) : Prop := ∀ s t : State, exec c s = .next t → Taken c s t

theorem takes_of {c : Instr} {f : State → State} (h : ∀ s, exec c s = .next (f s))
    (taken : ∀ s, Taken c s (f s)) : Takes c :=
  fun s t e => by
    rw [h s] at e
    cases e
    exact taken s

end Sys2Proof.Machine
end

section
/-! SUPPORT. A report handed to release timing (R69, R76 to R81): what it makes of every output, its records and its flag; and
the SPARK notices. -/

namespace Sys2Proof.Machine

/-! ## One output -/

/-- R69, R78 to R81: what a report makes of an output. -/
def State.releasedValve (s : State) (r : Report) (o : Output) : Valve :=
  match s.role o with
  | .valve e pe reach => (s.valveAfter o r (s.computedFor r e pe reach)).1
  | _ => s.valves[o]

theorem releasedValve_of {s : State} {r : Report} {o : Output} {e : Branch} {pe reach : Nat}
    (h : s.role o = .valve e pe reach) : s.releasedValve r o = (s.valveAfter o r (s.computedFor r e pe reach)).1 := by
  simp only [State.releasedValve, h]

theorem releasedValve_none {s : State} {r : Report} {o : Output} (h : (s.role o).isValve = false) :
    s.releasedValve r o = s.valves[o] := by
  unfold State.releasedValve
  split
  · rename_i e; rw [e] at h; cases h
  · rfl

theorem reportRecords_of {s : State} {r : Report} {o : Output} {e : Branch} {pe reach : Nat}
    (h : s.role o = .valve e pe reach) : s.reportRecords r o = (s.computedFor r e pe reach).filings o ++
      saturationFilings o (s.valveAfter o r (s.computedFor r e pe reach)).2 := by
  simp only [State.reportRecords, h]
  exact congrArg₂ (· ++ ·) (by cases s.computedFor r e pe reach <;> rfl)
    (by cases (s.valveAfter o r (s.computedFor r e pe reach)).2 <;> rfl)

theorem reportRecords_none {s : State} {r : Report} {o : Output} (h : (s.role o).isValve = false) :
    s.reportRecords r o = [] := by
  unfold State.reportRecords
  split
  · rename_i e; rw [e] at h; cases h
  · rfl

/-- R86: whether a report saturates the schedule of an output. -/
def State.saturates (s : State) (r : Report) (o : Output) : Bool :=
  (s.reportRecords r o).any fun f => f.kind == .scheduleSaturated

theorem saturates_of {s : State} {r : Report} {o : Output} {e : Branch} {pe reach : Nat}
    (h : s.role o = .valve e pe reach) :
    s.saturates r o = (s.valveAfter o r (s.computedFor r e pe reach)).2.isSome := by
  have outcome (x : Computed) : (x.filings o).any (fun f => f.kind == .scheduleSaturated) = false := by cases x <;> rfl
  rw [State.saturates, reportRecords_of h, List.any_append, outcome, Bool.false_or]
  cases (s.valveAfter o r (s.computedFor r e pe reach)).2 <;> rfl

theorem saturates_none {s : State} {r : Report} {o : Output} (h : (s.role o).isValve = false) : s.saturates r o = false := by
  rw [State.saturates, reportRecords_none h]; rfl

/-- R86: the flag that a report raises at some outputs. -/
def State.saturationFlags (s : State) (r : Report) (os : List Output) : BitVec 16 :=
  if os.any (s.saturates r) then Attention.scheduleSaturated.mask else 0

theorem saturationFlags_cons (s : State) (r : Report) (o : Output) (os : List Output) :
    s.saturationFlags r (o :: os) =
      (if s.saturates r o then Attention.scheduleSaturated.mask else 0) ||| s.saturationFlags r os := by
  unfold State.saturationFlags
  rw [List.any_cons]
  rcases Bool.eq_false_or_eq_true (s.saturates r o) with h | h
  · rcases Bool.eq_false_or_eq_true (os.any (s.saturates r)) with h' | h' <;> rw [h, h'] <;> rfl
  · rw [h, Bool.false_or, if_neg Bool.false_ne_true]
    exact BitVec.zero_or.symm

theorem put_self {α : Type} {n : Nat} (v : Vector α n) (i : Fin n) : put v i v[i] = v :=
  change_id v i

/-- R69, R76, R78, R86: a report at one output. -/
theorem releaseFor_eq (s : State) (r : Report) (o : Output) : s.releaseFor r o = { s with
    valves := put s.valves o (s.releasedValve r o)
    record := s.record.fileAll s.clock (s.reportRecords r o)
    flags := s.flags ||| (if s.saturates r o then Attention.scheduleSaturated.mask else 0) } := by
  rcases Bool.eq_false_or_eq_true (s.role o).isValve with h | h
  · cases role : s.role o with
    | valve e pe reach =>
      rw [releasedValve_of role, reportRecords_of role, saturates_of role]
      simp only [State.releaseFor, role]
      cases (s.valveAfter o r (s.computedFor r e pe reach)).2.isSome
      · simp only [Bool.false_eq_true, if_false, flags_or_zero]
      · rfl
    | _ => rw [role] at h; cases h
  · rw [releasedValve_none h, put_self, reportRecords_none h, saturates_none h, if_neg Bool.false_ne_true, flags_or_zero,
      fileAll_nil]
    unfold State.releaseFor
    split
    · rename_i e; rw [e] at h; cases h
    · rfl

/-! ## Every output -/

theorem releasedValve_put {s : State} {r : Report} {o p : Output} {v : Valve} {x : EventRecord} {m : BitVec 16}
    (h : p ≠ o) : ({ s with valves := put s.valves o v, record := x, flags := m } : State).releasedValve r p =
      s.releasedValve r p := by
  have same : (put s.valves o v)[p] = s.valves[p] := put_other _ _ _ _ h
  rcases Bool.eq_false_or_eq_true (s.role p).isValve with e | e
  · cases role : s.role p with
    | valve b pe reach =>
      rw [releasedValve_of role, releasedValve_of (s := { s with valves := put s.valves o v, record := x, flags := m }) role]
      simp only [State.valveAfter, same]
      rfl
    | _ => rw [role] at e; cases e
  · rw [releasedValve_none e, releasedValve_none (s := { s with valves := put s.valves o v, record := x, flags := m }) e]
    exact same

theorem reportRecords_put {s : State} {r : Report} {o p : Output} {v : Valve} {x : EventRecord} {m : BitVec 16}
    (h : p ≠ o) : ({ s with valves := put s.valves o v, record := x, flags := m } : State).reportRecords r p =
      s.reportRecords r p := by
  have same : (put s.valves o v)[p] = s.valves[p] := put_other _ _ _ _ h
  rcases Bool.eq_false_or_eq_true (s.role p).isValve with e | e
  · cases role : s.role p with
    | valve b pe reach =>
      rw [reportRecords_of role, reportRecords_of (s := { s with valves := put s.valves o v, record := x, flags := m }) role]
      simp only [State.valveAfter, same]
      rfl
    | _ => rw [role] at e; cases e
  · rw [reportRecords_none e, reportRecords_none (s := { s with valves := put s.valves o v, record := x, flags := m }) e]

theorem saturates_put {s : State} {r : Report} {o p : Output} {v : Valve} {x : EventRecord} {m : BitVec 16}
    (h : p ≠ o) : ({ s with valves := put s.valves o v, record := x, flags := m } : State).saturates r p =
      s.saturates r p := by
  rw [State.saturates, reportRecords_put h]; rfl

/-- R69: a report at some outputs in turn; none of them changes what it makes of another. -/
theorem releaseFor_foldl (r : Report) (os : List Output) (once : os.Nodup) (s : State) :
    os.foldl (fun s o => s.releaseFor r o) s = { s with
      valves := tabulate fun o => if o ∈ os then s.releasedValve r o else s.valves[o]
      record := s.record.fileAll s.clock (os.flatMap (s.reportRecords r))
      flags := s.flags ||| s.saturationFlags r os } := by
  induction os generalizing s with
  | nil =>
    simp only [List.foldl_nil, List.not_mem_nil, if_false, tabulate_self, List.flatMap_nil, fileAll_nil]
    exact congrArg (fun m => ({ s with flags := m } : State)) (flags_or_zero s.flags).symm
  | cons o os ih =>
    obtain ⟨fresh, rest⟩ := List.nodup_cons.mp once
    have other {p : Output} (h : p ∈ os) : p ≠ o := fun e => fresh (e ▸ h)
    rw [List.foldl_cons, ih rest, releaseFor_eq]
    have valves : (tabulate fun p => if p ∈ os then
          ({ s with
            valves := put s.valves o (s.releasedValve r o), record := s.record.fileAll s.clock (s.reportRecords r o)
            flags := s.flags ||| (if s.saturates r o then Attention.scheduleSaturated.mask else 0) } : State).releasedValve r p
        else (put s.valves o (s.releasedValve r o))[p]) =
        tabulate fun p => if p ∈ o :: os then s.releasedValve r p else s.valves[p] := by
      apply vector_eq
      intro p
      simp only [Fin.getElem_fin, tabulate_at]
      by_cases e : p = o
      · subst e
        rw [if_neg fresh, if_pos (List.mem_cons_self ..), put_same]
      · by_cases m : p ∈ os
        · rw [if_pos m, if_pos (List.mem_cons_of_mem _ m), releasedValve_put e]
        · rw [if_neg m, if_neg (by simp [e, m]), put_other _ _ _ _ e]
    have records : os.flatMap (({ s with
            valves := put s.valves o (s.releasedValve r o), record := s.record.fileAll s.clock (s.reportRecords r o)
            flags := s.flags ||| (if s.saturates r o then Attention.scheduleSaturated.mask else 0) } :
          State).reportRecords r) = os.flatMap (s.reportRecords r) :=
      List.flatMap_congr fun p m => reportRecords_put (other m)
    have saturated : os.any (({ s with
            valves := put s.valves o (s.releasedValve r o), record := s.record.fileAll s.clock (s.reportRecords r o)
            flags := s.flags ||| (if s.saturates r o then Attention.scheduleSaturated.mask else 0) } :
          State).saturates r) = os.any (s.saturates r) :=
      Bool.eq_iff_iff.mpr (by
        rw [List.any_eq_true, List.any_eq_true]
        exact exists_congr fun p => and_congr_right fun m => by rw [saturates_put (other m)])
    simp only [valves, records, State.saturationFlags, saturated, List.flatMap_cons, fileAll_append]
    rw [← State.saturationFlags, ← State.saturationFlags, saturationFlags_cons, BitVec.or_assoc]

/-- R69: with permission a report is computed once for every output. -/
theorem release_eq (s : State) (r : Report) : s.release r = { s with
    valves := if s.permitted then tabulate (s.releasedValve r) else s.valves
    record := s.record.fileAll s.clock (if s.permitted then (indexes 4).flatMap (s.reportRecords r) else [])
    flags := s.flags ||| (if s.permitted then s.reportFlags r else 0) } := by
  rw [State.release, releaseFor_foldl r (indexes 4) (List.nodup_finRange 4) s]
  rcases Bool.eq_false_or_eq_true s.permitted with h | h
  · simp only [h, mem_indexes, if_true]
    rfl
  · simp only [h, Bool.false_eq_true, if_false, flags_or_zero, fileAll_nil]

theorem release_valves (s : State) (r : Report) :
    (s.release r).valves = if s.permitted then tabulate (s.releasedValve r) else s.valves := by rw [release_eq]

theorem release_record (s : State) (r : Report) : (s.release r).record =
    s.record.fileAll s.clock (if s.permitted then (indexes 4).flatMap (s.reportRecords r) else []) := by rw [release_eq]

theorem release_flags (s : State) (r : Report) :
    (s.release r).flags = s.flags ||| (if s.permitted then s.reportFlags r else 0) := by rw [release_eq]

theorem release_line (s : State) (r : Report) (l : Line) : (s.release r).line l = s.line l := by
  rw [release_eq]; cases l <;> rfl

theorem release_quietTests (s : State) (r : Report) (l : Line) : (s.release r).quietTests l = s.quietTests l := by
  rw [release_eq]; cases l <;> rfl

theorem release_quietRecords (s u : State) (r : Report) : s.quietRecords (u.release r) = s.quietRecords u := by
  simp only [State.quietRecords, release_quietTests]

theorem release_heardFlags (s u : State) (r : Report) : s.heardFlags (u.release r) = s.heardFlags u := by
  have served : (u.release r).anyUnserved = u.anyUnserved := by rw [release_eq]; rfl
  simp only [State.heardFlags, release_quietTests, served]

/-! ## SPARK_NOTICE (R69, R114) -/

section
variable (s : State) (now : Time) (l : Line) (k : Station) (start : Time)

/-- A notice heard changes nothing that a fan view reads of its sender. -/
theorem viewData_noticed (system : System) :
    (s.noticed now l k start (fun p => p) []).afterHearing.viewData system = (s.takeAt now).viewData system := by
  have entry (j : Station) : ((s.noticed now l k start (fun p => p) []).afterHearing.peers[j]).viewData now =
      (s.peers[j]).viewData now := by
    by_cases e : j = k
    · subst e; rw [present_of_noticed]; rfl
    · exact congrArg (Peer.viewData now) (change_other s.peers k j _ e)
  unfold State.viewData
  rw [show (s.noticed now l k start (fun p => p) []).afterHearing.views = (s.takeAt now).views from rfl]
  cases (s.takeAt now).views[system].source with
  | none => rfl
  | some j => exact if_congr Iff.rfl rfl (entry j)

theorem computedFor_noticed (r : Report) (e : Branch) (pe reach : Nat) :
    (s.noticed now l k start (fun p => p) []).afterHearing.computedFor r e pe reach =
      (s.takeAt now).computedFor r e pe reach := by
  unfold State.computedFor State.timingView
  rw [viewData_noticed]
  rfl

theorem releasedValve_noticed (r : Report) (o : Output) :
    (s.noticed now l k start (fun p => p) []).afterHearing.releasedValve r o = (s.takeAt now).releasedValve r o := by
  rcases Bool.eq_false_or_eq_true (s.role o).isValve with h | h
  · cases role : s.role o with
    | valve e pe reach =>
      rw [releasedValve_of (s := s.takeAt now) role,
        releasedValve_of (s := (s.noticed now l k start (fun p => p) []).afterHearing) role, computedFor_noticed]
      rfl
    | _ => rw [role] at h; cases h
  · rw [releasedValve_none (s := s.takeAt now) h,
      releasedValve_none (s := (s.noticed now l k start (fun p => p) []).afterHearing) h]
    rfl

theorem reportRecords_noticed (r : Report) :
    (s.noticed now l k start (fun p => p) []).afterHearing.reportRecords r = (s.takeAt now).reportRecords r := by
  funext o
  rcases Bool.eq_false_or_eq_true (s.role o).isValve with h | h
  · cases role : s.role o with
    | valve e pe reach =>
      rw [reportRecords_of (s := s.takeAt now) role,
        reportRecords_of (s := (s.noticed now l k start (fun p => p) []).afterHearing) role, computedFor_noticed]
      rfl
    | _ => rw [role] at h; cases h
  · rw [reportRecords_none (s := s.takeAt now) h,
      reportRecords_none (s := (s.noticed now l k start (fun p => p) []).afterHearing) h]

theorem reportFlags_noticed (r : Report) :
    (s.noticed now l k start (fun p => p) []).afterHearing.reportFlags r = (s.takeAt now).reportFlags r := by
  unfold State.reportFlags
  rw [reportRecords_noticed]

end

/-- R114: the causes that a SPARK notice brings. -/
theorem sparkCauses_eq (s : State) (p : SparkPayload) : s.sparkCauses p =
    if s.permitted && p.unserved && s.hasFan && s.branchServed p.branch then [.unserved] else [] := by
  simp only [State.sparkCauses, State.unservedCause]
  cases s.permitted && p.unserved <;> simp

theorem mask_hasCause (m : BitVec 7) (c : Cause) : hasCause (m ||| c.mask) c = true := by
  unfold hasCause Cause.mask
  rw [BitVec.getLsbD_or, BitVec.getLsbD_shiftLeft]
  cases c <;> simp [Cause.bit]

/-- R115: a cause that is added is in the set. -/
theorem hasCause_addCauses (c : Cause) (cs : List Cause) (m : BitVec 7) (h : c ∈ cs) : hasCause (addCauses m cs) c = true := by
  obtain ⟨before, behind, rfl⟩ := List.append_of_mem h
  have within := causesWithin_add behind (addCauses m before ||| c.mask)
  have e : addCauses m (before ++ c :: behind) = addCauses (addCauses m before ||| c.mask) behind := by
    rw [addCauses_append]; rfl
  rw [e]
  unfold causesWithin at within
  unfold hasCause
  have bit := congrArg (fun m : BitVec 7 => m.getLsbD c.bit) within
  rw [BitVec.getLsbD_and, show (addCauses m before ||| c.mask).getLsbD c.bit = true from mask_hasCause _ c,
    Bool.true_and] at bit
  exact bit

/-- R114, R115: a cause that an event brings outside STANDBY is in the cause set, and ends STARTING and RUNNING. -/
theorem fanSettles_event {u t : State} {event : List Cause} (h : u.fanSettles t event) (c : Cause) (hc : c ∈ event)
    (phase : u.extraction.phase ≠ .standby) : hasCause t.extraction.causes c = true ∧
      (u.extraction.phase = .starting ∨ u.extraction.phase = .running →
        t.extraction.phase = .diverting ∨ t.extraction.phase = .rundown) := by
  obtain ⟨d, -, -, -, -, causes, moved, -⟩ := h.causes
  have arisen : c ∈ u.extraction.conditions.arisen d ++ event := List.mem_append_right _ hc
  refine ⟨?_, fun p => ?_⟩
  · rw [causes, if_neg phase]
    exact hasCause_addCauses c _ _ (List.mem_append_left _ arisen)
  · rw [moved, if_pos ⟨p, List.ne_nil_of_mem arisen⟩]
    split
    · exact .inr rfl
    · exact .inl rfl

theorem read_spark_length {os : List Byte} {p : SparkPayload} (h : SparkPayload.read? os = some p) : os.length = 7 := by
  unfold SparkPayload.read? at h
  split at h
  · rfl
  · cases h

/-- Settles O22: the notice is heard, release timing takes its report, and the consequences follow. -/
theorem sparkNoticeTaken : Obligations.SparkNoticeTaken := by
  intro now l rx k p start s stage place started check content sender station other hstart unserved report
  let w := (s.noticed now l k start (fun p => p) []).afterHearing
  have taken : exec (.sparkNotice now l rx) s =
      .next ((w.release report).settleWith (if unserved then [.unserved] else [])) := by
    have length : payloadLength classSpark = some rx.payload.length := by rw [read_spark_length content]; rfl
    simp only [exec, execSparkNotice, answer_eq,
      receive_taken stage place started check length content sender station other hstart, sparkCauses_eq]
    rfl
  have settled := settleWith_settledFrom (w.release report) (if unserved then [.unserved] else [])
  refine ⟨_, w.release report, taken, settled, ?_, fun m => ?_, fun o e pe reach permitted role => ?_,
    fun o quiet => ?_, ?_, ?_, fun brings phase => ?_⟩
  · rw [release_eq]; rfl
  · rw [release_line, release_quietTests]; exact noticed_line s now l k start _ _ m
  · have permitted : w.permitted = true := permitted
    rw [release_valves, ← releasedValve_of (s := s.takeAt now) role, ← releasedValve_noticed s now l k start,
      if_pos permitted]
    exact tabulate_at _ o
  · rw [release_valves]
    rcases quiet with quiet | quiet
    · have unpermitted : w.permitted = false := quiet
      rw [if_neg (by rw [unpermitted]; exact Bool.false_ne_true)]
      rfl
    · split
      · exact (tabulate_at _ o).trans (releasedValve_none (s := w) quiet)
      · rfl
  · have heard := noticed_record s now l k start (fun p => p) []
    rw [List.append_nil] at heard
    rw [release_record, show w.record = _ from heard, reportRecords_noticed, release_quietRecords]
    exact (fileAll_append ..).symm
  · rw [release_flags, show w.flags = _ from noticed_flags s now l k start (fun p => p) [], reportFlags_noticed,
      release_heardFlags]
    rfl
  · have same : (w.release report).extraction = s.extraction := by rw [release_eq]; rfl
    have event := fanSettles_event settled.fan .unserved (by rw [if_pos brings]; exact List.mem_singleton_self _)
      (by rw [same]; exact phase)
    rw [same] at event
    exact event

end Sys2Proof.Machine
end

section
/-! SUPPORT. STATE notices: the sender's content, and the bounded correction of a running cadence (R26, R146 to R148). -/

namespace Sys2Proof.Machine

/-! ## Cadence phases (R139, R148) -/

theorem at_now (cycle value : Nat) (now : Time) : (⟨value, now⟩ : Cadence).at_ cycle now = value % cycle := by
  simp [Cadence.at_]

/-- R139: moving the anchor of a phase to now leaves the phase. -/
theorem moveTo_at (cycle : Nat) (now : Time) (x : Cadence) : (x.moveTo cycle now).at_ cycle now = x.at_ cycle now :=
  (at_now ..).trans (Nat.mod_mod ..)

theorem correctedPhase_lt {cycle : Nat} (h : 0 < cycle) (projected own : Nat) : correctedPhase cycle projected own < cycle := by
  have nonneg := Int.emod_nonneg (own + max (-(Config.cadenceStep : Int)) (min (Config.cadenceStep : Int)
    (cadenceDifference cycle projected own))) (b := (cycle : Int)) (by omega)
  have below := Int.emod_lt_of_pos (own + max (-(Config.cadenceStep : Int)) (min (Config.cadenceStep : Int)
    (cadenceDifference cycle projected own))) (b := (cycle : Int)) (by omega)
  unfold correctedPhase
  simp only
  omega

/-- R139: the level of an output is the same from a phase and from that phase with its anchor moved to now. -/
theorem levelOf_moveTo (now : Time) (slow fast : Option Cadence) (u : Siren) (p : Pattern) :
    Sirens.levelOf now (slow.map (Cadence.moveTo Config.slowCycle now)) (fast.map (Cadence.moveTo Config.fastCycle now)) u p =
      Sirens.levelOf now slow fast u p := by
  cases p with
  | slow => cases slow with
    | none => rfl
    | some x => exact congrArg slowOn (moveTo_at ..)
  | fast => cases fast with
    | none => rfl
    | some x => exact congrArg fastOn (moveTo_at ..)
  | _ => rfl

/-! ## The outputs at the phases (R139) -/

theorem followCadence_unit (s : State) (o : Output) : s.followCadence.sirens.units[o] =
    if s.operating && (s.role o).isSiren then
      s.sirens.units[o].drive s.clock s.sirens.units[o].pattern
        (Sirens.levelOf s.clock s.sirens.slow s.sirens.fast s.sirens.units[o] s.sirens.units[o].pattern) (s.feedback o)
    else s.sirens.units[o] := by
  simp only [State.followCadence, Fin.getElem_fin, tabulate_at]

/-- R139: an output that follows the cadence takes the level that its pattern has there. -/
theorem followCadence_level (s : State) (o : Output) (on : (s.operating && (s.role o).isSiren) = true) :
    s.followCadence.sirens.units[o].driven = s.followCadence.patternLevel o s.sirens.units[o].pattern := by
  rw [← levelOf_patternLevel]
  have unit := followCadence_unit s o
  rw [if_pos on] at unit
  rw [unit]
  refine (levelOf_moveTo s.clock s.sirens.slow s.sirens.fast s.sirens.units[o] s.sirens.units[o].pattern).symm.trans ?_
  cases s.sirens.units[o].pattern <;> rfl

/-! ## The correction by the leader's STATE (R148) -/

/-- What following the cadence does to an output: its claims and pattern stand, and it is driven as its pattern says. -/
theorem followCadence_output (s : State) (o : Output) :
    s.followCadence.sirens.units[o].claims = s.sirens.units[o].claims ∧
    s.followCadence.sirens.units[o].pattern = s.sirens.units[o].pattern ∧
    s.followCadence.sirens.units[o].fault = s.sirens.units[o].fault ∧
    s.followCadence.sirens.units[o].fireSeen = s.sirens.units[o].fireSeen ∧
    s.followCadence.sirens.units[o].allClear = s.sirens.units[o].allClear ∧
    (s.operating = true → (s.role o).isSiren = true →
      s.followCadence.sirens.units[o].driven = s.followCadence.patternLevel o s.followCadence.sirens.units[o].pattern ∧
      (s.sirens.units[o]).counts s.clock (s.feedback o) s.followCadence.sirens.units[o]) ∧
    ((s.operating = false ∨ (s.role o).isSiren = false) → s.followCadence.sirens.units[o] = s.sirens.units[o]) := by
  have unit := followCadence_unit s o
  rcases Bool.eq_false_or_eq_true (s.operating && (s.role o).isSiren) with on | off
  · have level := followCadence_level s o on
    rw [if_pos on] at unit
    obtain ⟨operating, siren⟩ := Bool.and_eq_true_iff.mp on
    refine ⟨by rw [unit]; rfl, by rw [unit]; rfl, by rw [unit]; rfl, by rw [unit]; rfl, by rw [unit]; rfl,
      fun _ _ => ⟨?_, ?_⟩,
      fun h => ?_⟩
    · rw [level]
      exact congrArg (s.followCadence.patternLevel o) (by rw [unit]; rfl)
    · rw [unit]; exact drive_counts ..
    · rcases h with h | h
      · rw [operating] at h; cases h
      · rw [siren] at h; cases h
  · rw [if_neg (by rw [off]; exact Bool.false_ne_true)] at unit
    rw [unit]
    refine ⟨rfl, rfl, rfl, rfl, rfl, fun operating siren => ?_, fun _ => rfl⟩
    rw [operating, siren] at off
    cases off

section
variable (s : State) (now : Time) (l : Line) (k : Station) (c : StateContent) (start : Time)

/-- R26: the state with the STATE taken, before the cadence and the consequences. -/
def State.stateTaken : State := (s.noticed now l k start (Peer.takeState start c) []).afterHearing

theorem stateTaken_peer : (s.stateTaken now l k c start).peers[k] = Peer.takeState start c ((s.peers[k]).hear l start) :=
  present_of_noticed s now l k start _ []

/-- R148: a running phase after the STATE of k, with its anchor at now. -/
theorem correctedCadence_taken (p : Pattern) (leader : Option Station) {cycle : Nat} (positive : 0 < cycle)
    (x : Option Cadence) (other : k ≠ s.setup.number) :
    ((s.stateTaken now l k c start).correctedCadence k p leader cycle x).map (Cadence.moveTo cycle now) =
      x.map fun x => ⟨if leader = some k ∧ c.pattern = p then
        correctedPhase cycle ((c.cadence + (⟨start, none⟩ : Instant).elapsed now) % cycle) (x.at_ cycle now)
        else x.at_ cycle now, now⟩ := by
  cases x with
  | none => rfl
  | some x =>
    have content : ((s.stateTaken now l k c start).peers[k]).content = some c := by rw [stateTaken_peer]; rfl
    have projected : ((s.stateTaken now l k c start).peers[k]).projected now cycle =
        (c.cadence + (⟨start, none⟩ : Instant).elapsed now) % cycle := by rw [stateTaken_peer]; rfl
    have number : (s.stateTaken now l k c start).setup.number = s.setup.number := rfl
    have clock : (s.stateTaken now l k c start).clock = now := rfl
    simp only [State.correctedCadence, content, projected, number, clock, Option.map_some, Option.some.injEq]
    by_cases h : leader = some k ∧ c.pattern = p
    · rw [if_pos ⟨h.1, other, h.2⟩, if_pos h]
      refine congrArg some (congrArg (Cadence.mk · now) ?_)
      rw [at_now, Nat.mod_eq_of_lt (correctedPhase_lt positive _ _)]
    · rw [if_neg fun e => h ⟨e.1, e.2.2⟩, if_neg h]
      rfl

end

/-- R139: while an output sounds a pulse pattern after an event, its phase runs on. -/
theorem phaseAfter_runs {u t : State} {p : Pattern} {x : Cadence} {leader : Option Station} {cycle : Nat}
    (h : t.sounds p = true) : u.phaseAfter t p (some x) leader cycle = some x := by
  rw [State.phaseAfter, if_pos h]; rfl

theorem read_state_length {os : List Byte} {c : StateContent} (h : StateContent.read? os = some c) : os.length = 14 := by
  unfold StateContent.read? at h
  split at h
  · rfl
  · cases h

/-- Settles O20: the notice is heard with its content, the cadence follows it, and the consequences follow. -/
theorem stateNoticeTaken : Obligations.StateNoticeTaken := by
  intro now l rx k c start s stage place started check content sender station other hstart
  let w := s.stateTaken now l k c start
  let u := w.cadenceFromState k
  have taken : exec (.stateNotice now l rx) s = .next u.settle := by
    have length : payloadLength classState = some rx.payload.length := by rw [read_state_length content]; rfl
    simp only [exec, execStateNotice, answer_eq,
      receive_taken stage place started check length content sender station other hstart, State.deliverState]
    simp only [u, w, State.stateTaken, State.noticed, change_change]
  have settled := settle_settledFrom u
  have slow := correctedCadence_taken s now l k c start .slow s.sirens.slowLeader (cycle := 2000) (by decide) s.sirens.slow other
  have fast := correctedCadence_taken s now l k c start .fast s.sirens.fastLeader (cycle := 500) (by decide) s.sirens.fast other
  refine ⟨u.settle, u, taken, settled, rfl, fun m => ?_, rfl,
    fun o => followCadence_output _ o, rfl, slow, fast, rfl, rfl, ?_, ?_,
    fun x hx sounds => ?_, fun x hx sounds => ?_, settled.sirens.chosen.leaders⟩
  · have heard := noticed_line s now l k start (Peer.takeState start c) [] m
    cases m <;> exact heard
  · exact noticed_flags s now l k start (Peer.takeState start c) []
  · have heard := noticed_record s now l k start (Peer.takeState start c) []
    rw [List.append_nil] at heard
    exact heard
  · rw [settled.sirens.chosen.slow, show u.sirens.slow = _ from slow, hx]
    exact phaseAfter_runs sounds
  · rw [settled.sirens.chosen.fast, show u.sirens.fast = _ from fast, hx]
    exact phaseAfter_runs sounds

end Sys2Proof.Machine
end

section
/-! SUPPORT. Notices across the line: octets as bit times (R2, R3), the two ends of an attempt (R6), reception (R18), and the
payloads read back (R19). -/

namespace Sys2Proof.Machine

/-! ## Numbers as octets (R163) -/

theorem octet_toNat {n : Nat} (h : n < 256) : (octet n).toNat = n := by
  rw [octet, BitVec.toNat_ofNat]; omega

theorem number16_be16 {n : Nat} (h : n < 65536) : number16 (octet (n / 256)) (octet n) = n := by
  simp only [number16, octet, BitVec.toNat_ofNat]; omega

theorem number24_be24 {n : Nat} (h : n < 16777216) :
    number24 (octet (n / 65536)) (octet (n / 256)) (octet n) = n := by
  simp only [number24, number16, octet, BitVec.toNat_ofNat]; omega

theorem precedence_toNat (c : BitVec 3) (sender : BitVec 5) :
    (precedence c sender).toNat = c.toNat * 32 + sender.toNat := by
  rw [precedence, BitVec.toNat_append, ← Nat.shiftLeft_add_eq_or_of_lt sender.isLt, Nat.shiftLeft_eq]

theorem station_toNat (k : Station) : (BitVec.ofNat 5 k.val).toNat = k.val := by
  rw [BitVec.toNat_ofNat]; omega

/-- R3: the octets of a notice. -/
theorem octets_eq (k : Station) (n : Notice) : n.octets k =
    [BitVec.ofNat 8 (n.class_.toNat * 32 + k.val), octet n.payload.length] ++ n.payload ++
      be16 (crc (covered n.class_ (BitVec.ofNat 5 k.val) n.payload)).toNat := by
  have first : precedence n.class_ (BitVec.ofNat 5 k.val) = BitVec.ofNat 8 (n.class_.toNat * 32 + k.val) := by
    apply BitVec.eq_of_toNat_eq
    rw [precedence_toNat, station_toNat, BitVec.toNat_ofNat]
    omega
  rw [← first]
  rfl

/-! ## Bits, most significant first (R2) -/

/-- The number that some bits come to, most significant first. -/
def msbValue : List Bool → Nat
  | [] => 0
  | b :: bs => b.toNat * 2 ^ bs.length + msbValue bs

theorem msbValue_lt (bs : List Bool) : msbValue bs < 2 ^ bs.length := by
  induction bs with
  | nil => exact Nat.one_pos
  | cons b bs ih =>
    rw [msbValue, List.length_cons, Nat.pow_succ]
    cases b <;> simp only [Bool.toNat_true, Bool.toNat_false] <;> omega

/-- Of two numbers of the same width the smaller has the 0 at the first bit in which they differ. -/
theorem msbValue_lt_split (xs ys : List Bool) (same : xs.length = ys.length) (less : msbValue xs < msbValue ys) :
    ∃ p a b, xs = p ++ false :: a ∧ ys = p ++ true :: b := by
  induction xs generalizing ys with
  | nil =>
    cases ys with
    | nil => exact absurd less (lt_irrefl _)
    | cons y ys => cases same
  | cons x xs ih =>
    cases ys with
    | nil => cases same
    | cons y ys =>
      have tails : xs.length = ys.length := Nat.succ.inj same
      rw [msbValue, msbValue, tails] at less
      have below := msbValue_lt ys
      by_cases e : x = y
      · subst e
        obtain ⟨p, a, b, hx, hy⟩ := ih ys tails (by omega)
        exact ⟨x :: p, a, b, by rw [hx]; rfl, by rw [hy]; rfl⟩
      · cases x <;> cases y
        · exact absurd rfl e
        · exact ⟨[], xs, ys, rfl, rfl⟩
        · simp only [Bool.toNat_true, Bool.toNat_false] at less; omega
        · exact absurd rfl e

theorem bit_toNat (o : Byte) (i : Nat) : (o.getLsbD i).toNat = o.toNat / 2 ^ i % 2 := by
  rw [← BitVec.testBit_toNat, Nat.testBit_eq_decide_div_mod_eq]
  rcases Nat.mod_two_eq_zero_or_one (o.toNat / 2 ^ i) with h | h <;> rw [h] <;> rfl

theorem msbValue_msbFirst (o : Byte) : msbValue (msbFirst o) = o.toNat := by
  have := o.isLt
  simp only [msbFirst, List.map_cons, List.map_nil, msbValue, bit_toNat, List.length_cons, List.length_nil]
  omega

theorem bitAt_toNat (b : Bool) (i : Nat) : bitAt b i = b.toNat * 2 ^ i := by
  cases b
  · exact (Nat.zero_mul _).symm
  · exact (Nat.one_mul _).symm

theorem ofMsbFirst_value (b7 b6 b5 b4 b3 b2 b1 b0 : Bool) :
    ofMsbFirst b7 b6 b5 b4 b3 b2 b1 b0 = BitVec.ofNat 8 (msbValue [b7, b6, b5, b4, b3, b2, b1, b0]) := by
  simp only [ofMsbFirst, bitAt_toNat, msbValue, List.length_cons, List.length_nil, Nat.add_assoc, Nat.add_zero, Nat.zero_add]

/-- R2: the bits of an octet come to the octet. -/
theorem ofMsbFirst_bits (o : Byte) : ofMsbFirst (o.getLsbD 7) (o.getLsbD 6) (o.getLsbD 5) (o.getLsbD 4) (o.getLsbD 3)
    (o.getLsbD 2) (o.getLsbD 1) (o.getLsbD 0) = o := by
  rw [ofMsbFirst_value]
  have value : msbValue (msbFirst o) = o.toNat := msbValue_msbFirst o
  simp only [msbFirst, List.map_cons, List.map_nil] at value
  rw [value, BitVec.ofNat_toNat, BitVec.setWidth_eq]

/-! ## The receive stage (R18) -/

theorem frameOctet_bits (o : Byte) (rest : List Bool) : frameOctet (octetBits o ++ rest) = .octet o rest :=
  congrArg (Framed.octet · rest) (ofMsbFirst_bits o)

theorem lineBits_cons (o : Byte) (os : List Byte) : lineBits (o :: os) = octetBits o ++ lineBits os := List.flatMap_cons

/-- R18: the octets after the length octet. -/
theorem receiveRest_bits (precedence : Byte) (os taken : List Byte) :
    receiveRest precedence taken os.length (lineBits os) = completeNotice precedence (taken ++ os) := by
  induction os generalizing taken with
  | nil => rw [List.append_nil]; rfl
  | cons o os ih =>
    rw [lineBits_cons, List.length_cons, receiveRest, frameOctet_bits]
    simp only [ih, List.append_assoc, List.singleton_append]

/-- R4, R18: the payload and the check are told apart by the length. -/
theorem completeNotice_check (c : BitVec 3) (k : Station) (payload : List Byte) (check : BitVec 16) :
    completeNotice (precedence c (BitVec.ofNat 5 k.val)) (payload ++ be16 check.toNat) =
      .complete c (BitVec.ofNat 5 k.val) payload check := by
  have length : (payload ++ be16 check.toNat).length - 2 = payload.length := by
    rw [List.length_append]; exact Nat.add_sub_cancel ..
  have value := precedence_toNat c (BitVec.ofNat 5 k.val)
  rw [station_toNat] at value
  have class_ : BitVec.ofNat 3 ((precedence c (BitVec.ofNat 5 k.val)).toNat / 32) = c := by
    apply BitVec.eq_of_toNat_eq
    have := c.isLt
    rw [value, BitVec.toNat_ofNat]
    omega
  have sender : BitVec.ofNat 5 (precedence c (BitVec.ofNat 5 k.val)).toNat = BitVec.ofNat 5 k.val := by
    apply BitVec.eq_of_toNat_eq
    rw [value, BitVec.toNat_ofNat, BitVec.toNat_ofNat]
    omega
  have high : (payload ++ be16 check.toNat).getD payload.length 0 = octet (check.toNat / 256) := by simp [be16]
  have low : (payload ++ be16 check.toNat).getD (payload.length + 1) 0 = octet check.toNat := by simp [be16]
  have whole : BitVec.ofNat 16 (number16 (octet (check.toNat / 256)) (octet check.toNat)) = check := by
    rw [number16_be16 check.isLt, BitVec.ofNat_toNat, BitVec.setWidth_eq]
  simp only [completeNotice, length, class_, sender, high, low, whole, List.take_left]

/-- Table 1.6: the payload of a notice has the length of its class. -/
theorem payloadLength_class (n : Notice) : payloadLength n.class_ = some n.payload.length := by cases n <;> rfl

theorem payload_short (n : Notice) : n.payload.length ≤ 24 := by
  have fixed : ∀ c : BitVec 3, ∀ m ∈ payloadLength c, m ≤ 24 := by decide
  exact fixed n.class_ _ (payloadLength_class n)

/-- R18: the bits of a notice are received as that notice. -/
theorem receive_octets (k : Station) (n : Notice) : receive (lineBits (n.octets k)) =
    .complete n.class_ (BitVec.ofNat 5 k.val) n.payload (crc (covered n.class_ (BitVec.ofNat 5 k.val) n.payload)) := by
  have length : (octet n.payload.length).toNat = n.payload.length :=
    octet_toNat (Nat.lt_of_le_of_lt (payload_short n) (by decide))
  have short : ¬24 < (octet n.payload.length).toNat := by rw [length]; exact Nat.not_lt.mpr (payload_short n)
  have rest := receiveRest_bits (precedence n.class_ (BitVec.ofNat 5 k.val))
    (n.payload ++ be16 (crc (covered n.class_ (BitVec.ofNat 5 k.val) n.payload)).toNat) []
  rw [List.nil_append, completeNotice_check, List.length_append] at rest
  have bits : lineBits (n.octets k) = octetBits (precedence n.class_ (BitVec.ofNat 5 k.val)) ++
      (octetBits (octet n.payload.length) ++ lineBits (n.payload ++
        be16 (crc (covered n.class_ (BitVec.ofNat 5 k.val) n.payload)).toNat)) := rfl
  simp only [bits, receive, frameOctet_bits]
  rw [if_neg short, length]
  exact rest

/-! ## The transmitter (R6, R7) -/

theorem compareBits_self (i : Nat) (ds : List Bool) : compareBits i ds ds = .success := by
  induction ds generalizing i with
  | nil => rfl
  | cons d ds ih => rw [compareBits, if_pos rfl, ih]

/-- R6: bits read back as sent leave the attempt going on. -/
theorem compareBits_prefix (i : Nat) (p ds hs : List Bool) :
    compareBits i (p ++ ds) (p ++ hs) = compareBits (i + p.length) ds hs := by
  induction p generalizing i with
  | nil => rfl
  | cons b p ih =>
    rw [List.cons_append, List.cons_append, compareBits, if_pos rfl, ih, List.length_cons]
    congr 1
    omega

/-- R1: what the line carries of two transmissions. -/
def meet (xs ys : List Bool) : List Bool := List.zipWith (fun x y => wired [x, y]) xs ys

theorem wired_pair (x y : Bool) : wired [x, y] = (x && y) := by cases x <;> cases y <;> rfl

theorem meet_cons (x y : Bool) (xs ys : List Bool) : meet (x :: xs) (y :: ys) = (x && y) :: meet xs ys :=
  congrArg (· :: meet xs ys) (wired_pair x y)

theorem meet_prefix (p xs ys : List Bool) : meet (p ++ xs) (p ++ ys) = p ++ meet xs ys := by
  induction p with
  | nil => rfl
  | cons b p ih =>
    rw [List.cons_append, List.cons_append, meet_cons, Bool.and_self, ih]
    rfl

/-- R1: a station that has stopped driving leaves the line to the other. -/
theorem meet_recessive (xs : List Bool) (n : Nat) (h : xs.length ≤ n) : meet xs (List.replicate n true) = xs := by
  induction xs generalizing n with
  | nil => rfl
  | cons x xs ih =>
    cases n with
    | zero => cases h
    | succ n => rw [List.replicate_succ, meet_cons, Bool.and_true, ih n (Nat.le_of_succ_le_succ h)]

/-- R3, R6: the precedence octets of two notices begun together differ first at a bit that the higher one sends recessive. -/
theorem octetBits_split {x y : Byte} (h : x.toNat < y.toNat) :
    ∃ p a b, octetBits x = p ++ false :: a ∧ octetBits y = p ++ true :: b ∧ p.length < 10 := by
  obtain ⟨p, a, b, hx, hy⟩ := msbValue_lt_split (msbFirst x) (msbFirst y) rfl (by
    rw [msbValue_msbFirst, msbValue_msbFirst]; exact h)
  have length := congrArg List.length hx
  rw [List.length_append] at length
  refine ⟨false :: p, a ++ [true], b ++ [true], ?_, ?_, ?_⟩
  · rw [octetBits, List.cons_append, hx]; simp
  · rw [octetBits, List.cons_append, hy]; simp
  · have eight : (msbFirst x).length = 8 := rfl
    simp only [List.length_cons] at length ⊢
    omega

theorem lineBits_split {j k : Station} {m n : Notice} (h : m.class_.toNat * 32 + j.val < n.class_.toNat * 32 + k.val) :
    ∃ p a b, lineBits (m.octets j) = p ++ false :: a ∧ lineBits (n.octets k) = p ++ true :: b ∧ p.length < 10 := by
  have value (k : Station) (n : Notice) :
      (precedence n.class_ (BitVec.ofNat 5 k.val)).toNat = n.class_.toNat * 32 + k.val := by
    rw [precedence_toNat, station_toNat]
  obtain ⟨p, a, b, hm, hn, short⟩ := octetBits_split (x := precedence m.class_ (BitVec.ofNat 5 j.val))
    (y := precedence n.class_ (BitVec.ofNat 5 k.val)) (by rw [value, value]; exact h)
  have bits (k : Station) (n : Notice) : lineBits (n.octets k) =
      octetBits (precedence n.class_ (BitVec.ofNat 5 k.val)) ++ lineBits (n.octets k).tail := rfl
  refine ⟨p, a ++ lineBits (m.octets j).tail, b ++ lineBits (n.octets k).tail, ?_, ?_, short⟩
  · rw [bits, hm, List.append_assoc, List.cons_append]
  · rw [bits, hn, List.append_assoc, List.cons_append]

/-- R6: of two attempts begun together the one that drives recessive first loses, and the other is sent to its end. -/
theorem contention (p a b : List Bool) (short : p.length < 10) :
    compareBits 0 (p ++ true :: b) (meet (p ++ false :: a) (p ++ true :: b)) = .contentionLost p.length ∧
    compareBits 0 (p ++ false :: a) (meet (p ++ false :: a)
      ((p ++ true :: b).take (p.length + 1) ++ List.replicate (p ++ false :: a).length true)) = .success := by
  constructor
  · rw [meet_prefix, meet_cons, compareBits_prefix, Nat.zero_add, compareBits, if_neg Bool.noConfusion, if_pos ⟨short, rfl⟩]
  · have taken : (p ++ true :: b).take (p.length + 1) = p ++ [true] := List.take_length_add_append 1
    rw [taken, List.append_assoc, meet_prefix, List.singleton_append, meet_cons, meet_recessive]
    · exact compareBits_self ..
    · rw [List.length_append, List.length_cons]; omega

/-! ## The payloads read back (R19, Tables 11.2 to 11.5) -/

theorem readSpark_carried (p : SparkPayload) (count : 1 ≤ p.count ∧ p.count ≤ 255) (position : p.position ≤ 4000)
    (span : p.span ≤ 4095) (age : p.age ≤ 1023) : SparkPayload.read? p.payload = some p := by
  have head : ∀ (stale unserved : Bool) (branch : Branch),
      ((octet (bitAt stale 7 + bitAt unserved 6 + branch.val)).toNat / 16 % 4 == 0) = true ∧
      (octet (bitAt stale 7 + bitAt unserved 6 + branch.val)).getLsbD 7 = stale ∧
      (octet (bitAt stale 7 + bitAt unserved 6 + branch.val)).getLsbD 6 = unserved ∧
      Fin.ofNat 16 (octet (bitAt stale 7 + bitAt unserved 6 + branch.val)).toNat = branch := by decide
  obtain ⟨pad, stale, unserved, branch⟩ := head p.stale p.unserved p.branch
  have counted : (octet p.count).toNat = p.count := octet_toNat (by omega)
  have place := number24_be24 (n := p.position * 4096 + p.span) (by omega)
  have aged := number16_be16 (n := p.age) (by omega)
  have positionOf : (p.position * 4096 + p.span) / 4096 = p.position := by omega
  have spanOf : (p.position * 4096 + p.span) % 4096 = p.span := by omega
  simp only [SparkPayload.payload, be24, be16, List.cons_append, List.nil_append, SparkPayload.read?, pad, stale, unserved,
    branch, counted, place, aged, positionOf, spanOf, count.1, position, age, Config.ageLimit, decide_true, Bool.and_self,
    if_true]

theorem ofCode_level (x : Level) : Level.ofCode? (octet x.code).toNat = some x := by cases x <;> rfl
theorem ofCode_phase (x : FanPhase) : FanPhase.ofCode? (octet x.code).toNat = some x := by cases x <;> rfl
theorem ofCode_pattern (x : Pattern) : Pattern.ofCode? (octet x.code).toNat = some x := by cases x <;> rfl

theorem roles_octet (r : Roles) : r.toOctet.toNat < 32 ∧ Roles.ofOctet r.toOctet = r := by
  have all : ∀ a b c d e : Bool, (Roles.toOctet ⟨a, b, c, d, e⟩).toNat < 32 ∧
      Roles.ofOctet (Roles.toOctet ⟨a, b, c, d, e⟩) = ⟨a, b, c, d, e⟩ := by decide
  exact all r.sense r.valve r.barrier r.siren r.fan

theorem place_octet : ∀ (z : Zone) (d : System), ((octet (z.val * 16 + d.val)).toNat / 4 % 4 == 0) = true ∧
    Fin.ofNat 16 ((octet (z.val * 16 + d.val)).toNat / 16) = z ∧ Fin.ofNat 4 (octet (z.val * 16 + d.val)).toNat = d := by
  decide

theorem faults_octet : ∀ a b c d e f : Bool,
    let o := octet (bitAt a 0 + bitAt b 1 + bitAt c 2 + bitAt d 3 + bitAt e 4 + bitAt f 5)
    o.toNat < 64 ∧ o.getLsbD 0 = a ∧ o.getLsbD 1 = b ∧ o.getLsbD 2 = c ∧ o.getLsbD 3 = d ∧ o.getLsbD 4 = e ∧
      o.getLsbD 5 = f := by
  decide

theorem causes_octet (m : BitVec 7) : (octet m.toNat).toNat < 128 ∧ BitVec.ofNat 7 (octet m.toNat).toNat = m := by
  have := m.isLt
  have value : (octet m.toNat).toNat = m.toNat := octet_toNat (by omega)
  rw [value]
  exact ⟨this, by rw [BitVec.ofNat_toNat, BitVec.setWidth_eq]⟩

theorem counts_octet {x y : Nat} (hx : x ≤ 4) (hy : y ≤ 4) :
    (octet (x * 16 + y)).toNat / 16 = x ∧ (octet (x * 16 + y)).toNat % 16 = y := by
  rw [octet_toNat (by omega)]
  omega

/-- Table 11.5: a cadence phase in the range of its pattern. -/
theorem cadenceInRange_iff (p : Pattern) (n : Nat) : cadenceInRange p n = true ↔ (match p with
    | .slow => n < 2000
    | .fast => n < 500
    | .none | .allClear | .steady => n = 0) := by
  cases p with
  | slow => exact decide_eq_true_iff
  | fast => exact decide_eq_true_iff
  | none | allClear | steady => exact beq_iff_eq

theorem cadenceInRange_lt {p : Pattern} {n : Nat} (h : cadenceInRange p n = true) : n < 2000 := by
  have range := (cadenceInRange_iff p n).mp h
  cases p <;> simp only at range <;> omega

theorem readState_payload (c : StateContent) (velocity : c.velocity ≤ 1000) (sample : c.sampleAge ≤ 65535)
    (closed : c.closed ≤ 4) (jammed : c.jammed ≤ 4) (cadence : cadenceInRange c.pattern c.cadence = true) :
    StateContent.read? c.payload = some c := by
  obtain ⟨rolesIn, roles⟩ := roles_octet c.roles
  obtain ⟨pad, zone, system⟩ := place_octet c.zone c.system
  obtain ⟨faultsIn, f0, f1, f2, f3, f4, f5⟩ :=
    faults_octet c.sensorFault c.unserved c.valveTrouble c.flood c.supplyLow c.lowFlow
  obtain ⟨causesIn, causes⟩ := causes_octet c.causes
  obtain ⟨closedOf, jammedOf⟩ := counts_octet closed jammed
  have velocityOf := number16_be16 (n := c.velocity) (by omega)
  have sampleOf := number16_be16 (n := c.sampleAge) (by omega)
  have cadenceOf := number16_be16 (n := c.cadence) (Nat.lt_trans (cadenceInRange_lt cadence) (by decide))
  simp only [StateContent.payload, be16, List.cons_append, List.nil_append, StateContent.read?, ofCode_level, ofCode_phase,
    ofCode_pattern, rolesIn, roles, pad, zone, system, faultsIn, f0, f1, f2, f3, f4, f5, causesIn, causes, closedOf, jammedOf,
    velocityOf, sampleOf, cadenceOf, closed, jammed, cadence, velocity, Config.velocityLimit, decide_true, Bool.and_self,
    if_true]

/-- R19: a notice whose payload can be read is valid at every receiver. -/
theorem verdict_sent {α : Type} {read : List Byte → Option α} {x : α} (k : Station) (start : Time) (n : Notice) (hk : k ≠ 0)
    (content : read n.payload = some x) : verdict n.class_ read ⟨start, BitVec.ofNat 5 k.val, n.payload,
      crc (covered n.class_ (BitVec.ofNat 5 k.val) n.payload)⟩ = .valid x := by
  refine verdict_valid rfl (payloadLength_class n) (fun e => hk (Fin.ext ?_)) content
  have zero : (BitVec.ofNat 5 k.val).toNat = 0 := congrArg BitVec.toNat e
  rw [station_toNat] at zero
  exact zero

/-- Settles O54: what is sent, what is received of it, who wins the line, and what each receiver reads. -/
theorem noticesCrossTheLine : Obligations.NoticesCrossTheLine := by
  refine ⟨octets_eq, fun k n => ⟨compareBits_self .., receive_octets k n⟩, fun j k m n h => ?_, fun k start hk => ?_⟩
  · obtain ⟨p, a, b, hm, hn, short⟩ := lineBits_split h
    refine ⟨p.length, short, ?_⟩
    simp only [Notice.heardAs, hm, hn]
    exact contention p a b short
  · refine ⟨fun z => verdict_sent k start (.call z) hk (readCall_octet z),
      fun kind count => verdict_sent k start (.key kind count) hk (readKey_octet kind count),
      fun c r age least most position span old => verdict_sent k start (.spark c r age) hk ?_,
      fun c velocity sample closed jammed cadence => verdict_sent k start (.state c) hk ?_⟩
    · exact readSpark_carried (r.carried age) ⟨least, most⟩ position span old
    · exact readState_payload c velocity sample closed jammed ((cadenceInRange_iff ..).mpr cadence)

end Sys2Proof.Machine
end

section
/-! SUPPORT. What the commands of the station line come to, by Changes: transmission, reception and the peer timers. -/

namespace Sys2Proof.Machine

/-! ## One line changed -/

section
variable {c : Instr} {s t u : State} {l : Line} {x : LineInterface} {now : Time}

/-- The in-transmission place stands or becomes empty, and the error count stands. -/
def LineInterface.ebbs (x y : LineInterface) : Prop :=
  (y.place = x.place ∨ y.place = none) ∧ (y.consecutive = x.consecutive ∨ y.consecutive = 0)

theorem changes_ebb (h : (s.line l).ebbs x) : Changes s (s.withLine l x) := by
  obtain ⟨place, errors⟩ := h
  refine changes_line s l x (fun e => ?_) fun e => ?_
  · rcases place with h | h <;> rw [h] at e
    · exact .inl e
    · cases e
  · rcases errors with h | h <;> rw [h]
    · exact e
    · exact Nat.zero_le _

theorem taken_line (h : Changes (s.takeAt now) ((s.takeAt now).withLine l x)) :
    Taken c s ((s.takeAt now).withLine l x) :=
  ((changes_takeAt s now).trans h).beside rfl

theorem taken_ebb (h : ((s.takeAt now).line l).ebbs x) : Taken c s ((s.takeAt now).withLine l x) := taken_line (changes_ebb h)

theorem changes_assembler (s : State) (x : Assembler) : Changes s { s with assembler := x } := changes_beside rfl

/-- R146, R148: the cadence and the leaders after a STATE. -/
theorem changes_cadenceFromState (s : State) (k : Station) : Changes s (s.cadenceFromState k) := by
  have corrected : Changes s { s with sirens := { s.sirens with
      slow := s.correctedCadence k .slow s.sirens.slowLeader Config.slowCycle s.sirens.slow
      fast := s.correctedCadence k .fast s.sirens.fastLeader Config.fastCycle s.sirens.fast } } :=
    changes_sirens s _ fun _ h => h
  exact corrected.trans ((followCadence_consumes _).trans (chooseLeaders_consumes _)).changes

/-- The slots of both lines changed. -/
theorem changes_slots (s : State) (x y : Slots) : Changes s { s with
    lineA := { s.lineA with slots := x }, lineB := { s.lineB with slots := y } } :=
  changes_lines s _ _ ⟨.inl, .inl⟩ ⟨id, id⟩

end

/-! ## Transmission -/

section
variable (now : Time) (l : Line)

theorem beginAttempt_consecutive (s : State) (x : LineInterface) (slot : Slot) :
    (s.beginAttempt x slot).consecutive = x.consecutive := by
  unfold State.beginAttempt
  split <;> rfl

theorem changes_startAttempt {s : State} (h : s.mayBegin l = true) : Changes s (s.startAttempt l) := by
  have permitted : s.permitted = true := by
    simp only [State.mayBegin, Bool.and_eq_true] at h
    exact h.1.1
  unfold State.startAttempt
  split
  · exact changes_line s l _ (fun _ => .inr permitted) fun e => by rw [beginAttempt_consecutive]; exact e
  · exact changes_refl s

theorem takes_attemptStart : Takes (.attemptStart now l) :=
  takes_of (fun _ => rfl) fun s => taken_if fun h =>
    ((changes_takeAt s now).trans (changes_startAttempt l h)).beside (by
      unfold State.startAttempt
      split <;> rfl)

theorem takes_contentionLost : Takes (.contentionLost now l) :=
  takes_of (fun _ => rfl) fun s => by
    cases (s.takeAt now).line l |>.place with
    | none => exact taken_takeAt _ s now
    | some a => exact taken_ebb ⟨.inr rfl, .inl rfl⟩

theorem moreErrors_fit (x : LineInterface) : x.moreErrors ≤ Config.txErrorLimit := Nat.min_le_left ..

theorem changes_txErrorOn (s : State) (bit : Nat) (a : Attempt) : Changes s (s.txErrorOn l bit a) := by
  have line : Changes s (s.withLine l ((s.line l).txErrorAt s.clock bit a)) :=
    changes_line s l _ (fun e => nomatch e) fun _ => moreErrors_fit (s.line l)
  exact line.trans (changes_marks _ (file_ite_length _ _ _ _) (flagsWithin_ite ..))

theorem takes_txError (place : LineBit) : Takes (.txError now place) :=
  takes_of (fun _ => rfl) fun s => by
    cases (s.takeAt now).line place.line |>.place with
    | none => exact taken_takeAt _ s now
    | some a =>
      exact ((changes_takeAt s now).trans (changes_txErrorOn place.line _ place.bit a)).beside rfl

theorem changes_succeedOn (s : State) (a : Attempt) : Changes s (s.succeedOn l a) := by
  have line : Changes s (s.withLine l ((s.line l).succeed a)) := changes_ebb ⟨.inr rfl, .inr rfl⟩
  exact line.trans (changes_record _ _ (file_ite_length _ _ _ _))

theorem takes_attemptSuccess : Takes (.attemptSuccess now l) :=
  takes_of (fun _ => rfl) fun s => by
    cases (s.takeAt now).line l |>.place with
    | none => exact taken_takeAt _ s now
    | some a =>
      exact ((changes_takeAt s now).trans (changes_succeedOn l _ a)).beside rfl

/-- R17: a fill gives the report outright. -/
theorem fillLine_reportStands (s : State) : (s.fillLine l).reportStands := fun _ => by cases l <;> rfl

theorem changes_fillLine (s : State) : Changes s (s.fillLine l) :=
  (changes_ebb (x := (s.line l).fillStateIf true s.reported) ⟨.inl rfl, .inl rfl⟩).trans (changes_assembler _ _)

theorem takes_probeTimerExpiry : Takes (.probeTimerExpiry now l) :=
  takes_of (fun _ => rfl) fun s => taken_if fun _ =>
    ((changes_takeAt s now).trans ((changes_ebb (l := l)
      (x := { (s.takeAt now).line l with probeTimer := none, probeDue := true }) ⟨.inl rfl, .inl rfl⟩).trans
        (changes_fillLine l _))).taken fun _ => fillLine_reportStands l _

theorem takes_stateRoundHoldClear : Takes (.stateRoundHoldClear now l) :=
  takes_of (fun _ => rfl) fun _ => taken_ebb ⟨.inl rfl, .inl rfl⟩

theorem takes_stateIntervalExpiry : Takes (.stateIntervalExpiry now) :=
  takes_of (fun _ => rfl) fun s => taken_if fun _ =>
    ((changes_takeAt s now).trans (fill_consumes _).changes).taken fun _ _ => rfl

theorem takes_lineIdle : Takes (.lineIdle now l) :=
  takes_of (fun _ => rfl) fun _ => taken_if fun _ => taken_ebb ⟨.inl rfl, .inl rfl⟩

/-! ## Reception -/

theorem takes_receiveFramingError : Takes (.receiveFramingError now l) :=
  takes_of (fun _ => rfl) fun _ => taken_if fun _ => taken_ebb ⟨.inl rfl, .inl rfl⟩

theorem takes_noticeLengthError (length : Byte) : Takes (.noticeLengthError now l length) :=
  takes_of (fun _ => rfl) fun _ => taken_if fun _ => taken_ebb ⟨.inl rfl, .inl rfl⟩

theorem takes_checkError (class_ : BitVec 3) (rx : Received) : Takes (.checkError now l class_ rx) :=
  takes_of (fun _ => rfl) fun s => by
    split
    · exact taken_takeAt _ s now
    · split
      · exact taken_ebb ⟨.inl rfl, .inl rfl⟩
      · split
        · exact taken_ebb ⟨.inl rfl, .inl rfl⟩
        · exact taken_takeAt _ s now

theorem changes_clash (s : State) (class_ : BitVec 3) (rx : Received) : Changes s (s.clash l class_ rx) := by
  have line : Changes s (s.withLine l { (s.line l).takeValid s.clock with lastClash := some (.of s.clock) }) :=
    changes_ebb ⟨.inl rfl, .inl rfl⟩
  exact line.trans (changes_marks _ (ite_file_length _ _ _ _) (flagsWithin_or ..))

/-- R25: a notice heard from a peer, whose entry is not the own one. -/
theorem changes_heardFrom {s : State} (k : Station) (start : Time) (zero : k ≠ 0) (other : k ≠ s.setup.number) :
    Changes s (s.heardFrom l k start) := by
  have line : Changes s (s.withLine l ((s.line l).takeValid s.clock)) := changes_ebb ⟨.inl rfl, .inl rfl⟩
  exact line.trans (changes_entry _ k (fun p => p.hear l start) (fun _ => ⟨zero, fun _ => other⟩) (fileAll_length _ _ _)
    (flagsWithin_refl _))

theorem station_nonzero {rx : Received} (h : rx.sender ≠ 0) : stationOf rx ≠ 0 := fun e =>
  h (BitVec.eq_of_toNat_eq (congrArg Fin.val e))

theorem verdict_valid_iff {α : Type} {class_ : BitVec 3} {read : List Byte → Option α} {rx : Received} {x : α}
    (h : verdict class_ read rx = .valid x) :
    crc (covered class_ rx.sender rx.payload) = rx.check ∧ rx.sender ≠ 0 ∧ read rx.payload = some x := by
  unfold verdict at h
  split at h
  · cases h
  · rename_i check
    split at h
    · cases h
    · split at h
      · cases h
      · rename_i sender
        split at h
        · rename_i content
          cases h
          exact ⟨not_not.mp check, sender, content⟩
        · cases h

/-- R19 to R21: a complete notice, by what its delivery comes to. -/
theorem taken_receive {α : Type} {c : Instr} (s : State) (class_ : BitVec 3) (read : List Byte → Option α) (rx : Received)
    (deliver : State → Station → Time → α → State)
    (delivered : ∀ (k : Station) (start : Time) (x : α), k ≠ 0 → k ≠ s.setup.number → s.started = true →
      stationOf rx = k → ((s.takeAt now).line l).receiveStart rx.start = start → (s.line l).receiving = true →
      verdict class_ read rx = .valid x →
      Taken c s (deliver ((s.takeAt now).heardFrom l k start) k start x)) :
    Taken c s ((s.takeAt now).receive l class_ read rx deliver) := by
  rcases receive_cases (s.takeAt now) l class_ read rx deliver with
    h | h | h | h | ⟨-, h⟩ | ⟨x, started, receiving, valid, other, h⟩ <;> rw [h]
  · exact taken_takeAt c s now
  · exact taken_ebb ⟨.inl rfl, .inl rfl⟩
  · exact taken_ebb ⟨.inl rfl, .inl rfl⟩
  · exact taken_ebb ⟨.inl rfl, .inl rfl⟩
  · exact ((changes_takeAt s now).trans (changes_clash l _ class_ rx)).beside rfl
  · rw [State.takeAt_line] at receiving
    exact delivered _ _ x (station_nonzero (verdict_valid_iff valid).2.1) other started rfl rfl receiving valid

theorem changes_judgeQuiet (s : State) : Changes s (s.judgeQuiet l) := by
  have line : Changes s (s.withLine l { s.line l with quiet := s.quietTests l }) := changes_ebb ⟨.inl rfl, .inl rfl⟩
  exact line.trans (changes_marks _ (file_ite_length _ _ _ _) (flagsWithin_ite ..))

theorem changes_judgeServed (s : State) : Changes s s.judgeServed :=
  (changes_sensing s { s.sensing with unserved := s.anyUnserved }).trans (changes_marks _ id (flagsWithin_ite ..))

theorem changes_afterHearing (s : State) : Changes s s.afterHearing :=
  ((changes_judgeQuiet .a s).trans (changes_judgeQuiet .b _)).trans (changes_judgeServed _)

theorem takes_lineQuiet : Takes (.lineQuiet now l) :=
  takes_of (fun _ => rfl) fun s => ((changes_takeAt s now).trans (changes_judgeQuiet l _)).beside rfl

theorem takes_callNotice (rx : Received) : Takes (.callNotice now l rx) :=
  takes_of (fun _ => rfl) fun s => taken_receive now l s classCall readCall? rx _ fun k start z zero other _ _ _ _ _ => by
    have heard := (changes_takeAt s now).trans (changes_heardFrom l k start zero other)
    have call : Changes _ (((s.takeAt now).heardFrom l k start).deliverCall k start z) :=
      changes_entry _ k (fun p => { p with override := some z }) (fun _ => ⟨zero, fun _ => other⟩)
        (ite_file_length _ _ _ _) (flagsWithin_refl _)
    exact ((heard.trans call).trans (changes_afterHearing _)).settles

theorem takes_stateNotice (rx : Received) : Takes (.stateNotice now l rx) :=
  takes_of (fun _ => rfl) fun s => taken_receive now l s classState StateContent.read? rx _
    fun k start content zero other _ _ _ _ _ => by
      have heard := (changes_takeAt s now).trans (changes_heardFrom l k start zero other)
      have state : Changes _ (((s.takeAt now).heardFrom l k start).deliverState k start content) :=
        changes_peer _ k _ fun _ => ⟨zero, fun _ => other⟩
      exact (((heard.trans state).trans (changes_afterHearing _)).trans (changes_cadenceFromState _ k)).settles

/-! ## Peer timers (R27, R28) -/

/-- R24: a PRESENT entry is not the own one. -/
theorem other_of_present {s : State} {k : Station} (h : (s.peers[k]).presence = .present) (own : s.noOwnEntry) :
    k ≠ 0 ∧ (s.started = true → k ≠ s.setup.number) := by
  obtain ⟨zero, number⟩ := own
  refine ⟨?_, fun started => ?_⟩ <;> rintro rfl
  · rw [zero] at h; cases h
  · rw [number started] at h; cases h

theorem outOfDate_present {p : Peer} (h : p.outOfDate now = true) : p.presence = .present := by
  simp only [Peer.outOfDate, Bool.and_eq_true, beq_iff_eq] at h
  exact h.1

theorem singleTest_present {p : Peer} {m : Line} (h : p.singleTest now = some m) : p.presence = .present := by
  unfold Peer.singleTest at h
  split at h
  · rename_i present
    simp only [Bool.and_eq_true, beq_iff_eq] at present
    exact present.1
  · cases h

theorem takes_peerLost (k : Station) : Takes (.peerLost now k) :=
  takes_of (fun _ => rfl) fun s => taken_if fun h => by
    have lost : Changes (s.takeAt now) ((s.takeAt now).withLost k) :=
      changes_entry _ k Peer.lose (other_of_present (outOfDate_present now h)) (file_length _ _ _) (flagsWithin_or ..)
    exact ((((changes_takeAt s now).trans lost).trans (changes_afterHearing _)).trans
      (chooseLeaders_consumes _).changes).settles

theorem takes_singleLine (k : Station) : Takes (.singleLine now k) :=
  takes_of (f := fun s => match ((s.takeAt now).peers[k]).singleTest now with
      | some m => { s.takeAt now with
          peers := change s.peers k fun p => { p with single := some m }, flags := s.flags ||| Attention.singleLine.mask }
      | none => s.takeAt now) (fun _ => rfl) fun s => by
    split
    · rename_i m h
      exact ((changes_takeAt s now).trans (changes_entry _ k (fun p => { p with single := some m })
        (other_of_present (singleTest_present now h)) id (flagsWithin_or ..))).beside rfl
    · exact taken_takeAt _ s now

end

end Sys2Proof.Machine
end

section
/-! SUPPORT. What the commands of the keys come to, by Changes and Clears: CALL, heat, SILENCE, RESET and the KEY notices. -/

namespace Sys2Proof.Machine

/-! ## CALL and heat -/

section
variable (now : Time)

theorem changes_callActive (s : State) : Changes s s.callActive :=
  changes_marked rfl (file_length _ _ _) (flagsWithin_refl _)

theorem takes_callPress : Takes (.callPress now) :=
  takes_of (fun _ => rfl) fun s => taken_if fun _ => ((changes_takeAt s now).trans (changes_callActive _)).settles

theorem takes_callRelease : Takes (.callRelease now) :=
  takes_of (fun _ => rfl) fun s => taken_if fun _ => ((changes_takeAt s now).trans (changes_inputs _ _)).settles

theorem takes_heatInputChange (active : Bool) : Takes (.heatInputChange now active) :=
  takes_of (fun _ => rfl) fun s => taken_if fun _ => ((changes_takeAt s now).trans (changes_inputs _ _)).settles

theorem takes_stopPress : Takes (.stopPress now) :=
  takes_of (fun _ => rfl) fun s => taken_if fun _ =>
    have pressed := (changes_takeAt s now).trans (changes_inputs _ { s.inputs with stop := .settled true })
    taken_ite (fun _ => pressed.settled [.stopKey]) fun _ => pressed.beside rfl

end

/-! ## SILENCE taken (R143) -/

theorem changes_silence (s : State) : Changes s s.silence := by
  unfold State.silence
  split
  · rename_i h
    have operating := (Bool.and_eq_true_iff.mp h).1
    exact (changes_sirens s { s.sirens with
        units := s.mapSirens fun _ u => u.silence
        resound := if s.setup.resound = 0 then none else some (after s.clock (s.setup.resound * 1000)) }
      fun e => by rw [operating] at e; cases e).trans (choosePatterns_consumes _).changes
  · exact changes_refl s

theorem changes_takeSilence (s : State) : Changes s s.takeSilence :=
  (changes_silence s).trans (fillOnChange_consumes _).changes

/-! ## RESET taken (R43) -/

section
variable {c : Instr} {s t : State}

/-- R35: another zone picture. -/
theorem clears_zones (s : State) (z : ZonePicture) : Clears s { s with zones := z } where
  phase := rfl
  setup := rfl
  place l e := .inl (by cases l <;> exact e)
  errors l e := by cases l <;> exact e
  record h := h
  waits _ w := ⟨w.fan, w.valve, w.barrier, w.queue, w.siren⟩
  entries := noOwnEntry_same rfl rfl rfl
  schedules _ := List.Sublist.refl _
  causes := causesWithin_refl _
  fan := caused_refl _

/-- R161: other attention flags. -/
theorem clears_flags (s : State) (m : BitVec 16) : Clears s { s with flags := m } where
  phase := rfl
  setup := rfl
  place l e := .inl (by cases l <;> exact e)
  errors l e := by cases l <;> exact e
  record h := h
  waits _ w := ⟨w.fan, w.valve, w.barrier, w.queue, w.siren⟩
  entries := noOwnEntry_same rfl rfl rfl
  schedules _ := List.Sublist.refl _
  causes := causesWithin_refl _
  fan := caused_refl _

theorem changes_resetValves (s : State) : Changes s s.resetValves := by
  refine changes_valves s _ (fun o => ?_) fun _ o w => ?_ <;> simp only [Fin.getElem_fin, tabulate_at]
  · split <;> exact List.Sublist.refl _
  · split <;> exact w

/-- R135: before OPERATING there is no barrier to arm again. -/
theorem changes_rearmBarriers (s : State) : Changes s s.rearmBarriers :=
  changes_barriers s _ fun _ w => by
    refine ⟨w.fan, w.valve, fun o => ?_, w.queue, w.siren⟩
    have e : s.rearmBarriers.barrier o =
        if (s.role o).isBarrier && (s.barrier o).state.rearmed && !s.releaseHolds o then (s.barrier o).hold
        else s.barrier o := tabulate_at _ o
    have unarmed := w.barrier o
    refine (congrArg Barrier.state e).trans ?_
    simp only [unarmed, BarrierState.rearmed, Bool.and_false, Bool.false_and, Bool.false_eq_true, if_false]

theorem changes_resetSirens (s : State) : Changes s s.resetSirens := by
  unfold State.resetSirens
  split
  · rename_i operating
    refine Changes.trans ?_ (choosePatterns_consumes _).changes
    exact (changes_fileAll s _).trans (changes_sirens _ _ fun e => by
      have e : s.operating = false := e
      rw [operating] at e
      cases e)
  · exact changes_refl s

/-- R43: the whole of a RESET taken. -/
theorem takeReset_clears (s : State) : Clears s s.takeReset :=
  have own : Clears s s.resetEscalation := (changes_beside rfl).toClears
  have zones := ((own.trans (recomposeOwn_follows _).clears).trans (clears_zones _ _)).trans (changes_resetValves _).toClears
  have marks := zones.trans (changes_fan _ { (_ : State).extraction with
      startFail := false, rundownSlow := false
      gateFail := _ } rfl rfl).toClears
  have fan := (marks.trans (chooseViews_follows _).clears).trans (judgeExtraction_consumes _ []).changes.toClears
  have barriers := fan.trans ((judgeBarriers_consumes _).changes.trans (changes_rearmBarriers _)).toClears
  have sirens := barriers.trans ((followZones_consumes _).changes.trans (changes_resetSirens _)).toClears
  (sirens.trans (fillOnChange_consumes _).changes.toClears).trans (clears_flags _ _)

theorem judgeFlags_reportStands (s : State) (h : s.reportStands) : s.judgeFlags.reportStands := h

theorem takeReset_reportStands (s : State) : s.takeReset.reportStands :=
  judgeFlags_reportStands _ (fillOnChange_reportStands _)

/-- A command by which a RESET is taken. -/
theorem Clears.reset (h : Clears s t) (takes : s.takesReset c) (report : t.reportStands) : Taken c s t :=
  h.toGuards.taken (fun _ => report) (schedulesFit_sublist h.schedules) (fun _ _ => schedulesInOrder_sublist h.schedules h.setup)
    (absurd takes) (absurd takes) (fun _ => h.causes) fun _ => fanMoves_caused h.fan

end

end Sys2Proof.Machine
end

section
/-! SUPPORT. START accepted (R116): with the derived picture standing, STARTING is entered and nothing that follows at the same
instant ends it; and what the commands of the keys RESET and START and the KEY notices come to. -/

namespace Sys2Proof.Machine

/-! ## Consequences that change nothing at the fan -/

/-- R94, R95: a phase entered that leaves every flood state cuts no valve. -/
theorem phaseChanged_valves {s : State} (h : ∀ d : System, s.inFlood d = s.flood[d]) : s.phaseChanged.valves = s.valves := by
  apply vector_eq
  intro o
  refine (phaseChanged_phaseEntered s).flood.stands o ?_
  rintro ⟨-, flood, turn, -⟩
  have stands : s.phaseChanged.floodIn (s.valveSystem o) s.extraction.phase = s.flood[s.valveSystem o] :=
    (floodIn_keeps (phaseChanged_consumes s).stays _ _).trans (h _)
  simp only [List.map_cons, List.map_nil, turns, stands, if_true, List.not_mem_nil] at turn

/-- R94, R95: flood states judged as they stand cut no valve. -/
theorem judgeFlood_still {s : State} (h : ∀ d : System, s.inFlood d = s.flood[d]) : s.judgeFlood = s := by
  have flood : tabulate s.inFlood = s.flood := vector_eq fun d => (tabulate_at s.inFlood d).trans (h d)
  have cut (o : Output) : s.cutByFlood s.flood o = false := by
    simp only [State.cutByFlood, bne_self_eq_false, Bool.and_false, Bool.false_and]
  have none : (indexes 4).filter (s.cutByFlood s.flood) = [] := List.filter_eq_nil_iff.mpr fun o _ => by
    rw [cut]; exact Bool.false_ne_true
  have any : (indexes 4).any (s.cutByFlood s.flood) = false := List.any_eq_false.mpr fun o _ => by
    rw [cut]; exact Bool.false_ne_true
  simp only [State.judgeFlood, flood, none, any, cut, Bool.false_eq_true, if_false, tabulate_self, List.map_nil, fileAll_nil]

/-- R113, R115: conditions judged as they stand bring no cause. -/
theorem judgeCauses_still {s : State} (h : s.conditionsNow = s.extraction.conditions) : s.judgeCauses [] = s := by
  unfold State.judgeCauses
  rw [h, arisen_self]
  rfl

theorem consumers_extraction (s : State) : s.judgeBarriers.judgeSirens.fillOnChange.extraction = s.extraction := by
  have same := (judgeBarriers_sameFan s).2.2.1
  generalize s.judgeBarriers = b at same ⊢
  rw [fillOnChange_frame, judgeSirens_frame]
  exact same

/-- What the own level, the zone picture and the fan views leave alone. -/
theorem front_fields (s : State) : s.front.start = s.start ∧ s.front.setup = s.setup ∧ s.front.peers = s.peers ∧
    s.front.valves = s.valves ∧ s.front.flood = s.flood ∧ s.front.extraction = s.extraction := by
  simp only [State.front, State.chooseViews, State.recomputeZones, State.recomposeOwn, and_self]

/-- R107: with flood states and conditions as they stand the consequences of an event leave the fan phase. -/
theorem settle_phase {s : State} (flood : ∀ d : System, s.front.inFlood d = s.front.flood[d])
    (conditions : s.front.conditionsNow = s.front.extraction.conditions) :
    s.settle.extraction.phase = s.extraction.phase := by
  have still : s.front.judgeExtraction [] = s.front.judgeSampler := by
    unfold State.judgeExtraction
    rw [judgeFlood_still flood, judgeCauses_still conditions, judgeCauses_still conditions]
  rw [State.settle, settleWith_front, still, consumers_extraction]
  exact (judgeMode_extraction ..).2.2

/-! ## The picture after a START -/

section
variable {s u : State}

/-- R95: a flood state is read from the view, its source's content and the own phase and LOW_FLOW, and not from the clock. -/
theorem inFlood_same (views : u.views = s.views) (setup : u.setup = s.setup) (peers : u.peers = s.peers)
    (own : (!u.extraction.phase.steady || u.extraction.lowFlow) = (!s.extraction.phase.steady || s.extraction.lowFlow))
    (d : System) : u.inFlood d = s.inFlood d := by
  unfold State.inFlood State.viewData
  rw [views, setup, peers]
  cases s.views[d].source with
  | none => rfl
  | some k =>
    simp only
    by_cases number : k = s.setup.number
    · simp only [if_pos number, State.ownViewData]
      exact own
    · simp only [if_neg number, Peer.viewData]
      cases (s.peers[k]).content <;> cases (s.peers[k]).received <;> rfl

/-- R95: while the own fan does not move the air steadily its view gives flood, whatever its phase. -/
theorem inFlood_unsteady (hs : s.extraction.phase.steady = false) (hu : u.extraction.phase.steady = false)
    (views : u.views = s.views) (setup : u.setup = s.setup) (peers : u.peers = s.peers) (d : System) :
    u.inFlood d = s.inFlood d :=
  inFlood_same views setup peers (by rw [hs, hu]; rfl) d

/-- What a change of the fan phase alone leaves of the state that an invariant of the picture reads. -/
structure SameSources (s u : State) : Prop where
  start : u.start.phase = s.start.phase
  setup : u.setup = s.setup
  peers : u.peers = s.peers
  own : u.own = s.own
  sensing : u.sensing = s.sensing
  zones : u.zones = s.zones
  views : u.views = s.views
  valves : u.valves = s.valves
  call : u.inputs.call = s.inputs.call
  heat : u.inputs.heat = s.inputs.heat
  conditions : u.extraction.conditions = s.extraction.conditions

theorem SameSources.started (h : SameSources s u) : u.started = s.started := by unfold State.started; rw [h.start]

theorem latchRule_stands {live latched : Level} (h : live.atLeast .fire = true → latched.atLeast live = true) :
    latchRule live latched = latched := by
  revert h
  cases live <;> cases latched <;> decide

/-- R30, R32, R33: with the picture standing the own level and the zone picture are judged as they stand. -/
theorem front_zones (h : SameSources s u) (p : s.pictureStands) : u.front.zones = s.zones := by
  have composed : u.composedLevel = s.own.level := by
    rw [p.own]
    unfold State.composedLevel State.anyStorm
    rw [h.started, h.call, h.heat, h.own, h.sensing]
  have live : u.recomposeOwn.liveLevels = s.zones.live := by
    rw [p.live]
    unfold State.liveLevels State.contributions
    rw [show u.recomposeOwn.own.level = s.own.level from composed, show u.recomposeOwn.setup = s.setup from h.setup,
      show u.recomposeOwn.peers = s.peers from h.peers]
  have latched : (tabulate fun z => latchRule s.zones.live[z] s.zones.latched[z]) = s.zones.latched :=
    vector_eq fun z => (tabulate_at (fun z => latchRule s.zones.live[z] s.zones.latched[z]) z).trans
      (latchRule_stands (p.latched z))
  show (⟨u.recomposeOwn.liveLevels, tabulate fun z => latchRule u.recomposeOwn.liveLevels[z] u.zones.latched[z]⟩ :
    ZonePicture) = s.zones
  rw [live, h.zones, latched]

theorem front_views (h : SameSources s u) (p : s.pictureStands) : u.front.views = s.views := by
  have chosen : u.recomposeOwn.recomputeZones.chosenView = s.chosenView := by
    funext d
    have candidate : u.recomposeOwn.recomputeZones.candidate d = s.candidate d := by
      funext k
      unfold State.candidate State.hasFan
      rw [show u.recomposeOwn.recomputeZones.setup = s.setup from h.setup,
        show u.recomposeOwn.recomputeZones.started = s.started from h.started,
        show u.recomposeOwn.recomputeZones.peers = s.peers from h.peers]
    unfold State.chosenView State.candidates
    rw [candidate]
  rw [p.views, ← chosen]
  rfl

theorem front_conditions (h : SameSources s u) (p : s.pictureStands) : u.front.conditionsNow = s.extraction.conditions := by
  obtain ⟨start, setup, peers, valves, -, -⟩ := front_fields u
  have started : u.front.started = s.started := by unfold State.started; rw [start, h.start]
  rw [p.conditions]
  unfold State.conditionsNow State.anyZone State.zoneLevel State.hasFan State.hasValve State.valveTrouble State.peerTrouble
    State.role
  rw [front_zones h p, started, setup, peers, valves, h.setup, h.peers, h.valves]

/-- R107, R113: with the picture standing, a fan that is unsteady before and after keeps the phase entered. -/
theorem settle_sameSources (h : SameSources s u) (p : s.pictureStands) (hs : s.extraction.phase.steady = false)
    (hu : u.extraction.phase.steady = false) (flood : u.flood = s.flood) :
    u.settle.extraction.phase = u.extraction.phase := by
  obtain ⟨-, setup, peers, -, floods, extraction⟩ := front_fields u
  refine settle_phase (fun d => ?_) ?_
  · rw [inFlood_unsteady (s := s) (u := u.front) hs (by rw [extraction]; exact hu) (front_views h p)
      (setup.trans h.setup) (peers.trans h.peers) d, floods, flood, p.flood]
    exact (tabulate_at s.inFlood d).symm
  · rw [front_conditions h p, extraction]
    exact h.conditions.symm

end

end Sys2Proof.Machine
end

section
/-! SUPPORT. What the presses of SILENCE, RESET and START and the KEY notices come to (R41 to R44, R116). -/

namespace Sys2Proof.Machine

section
variable {c : Instr} {s t u : State} (now : Time)

/-! ## SILENCE and RESET pressed (R41) -/

/-- R41: a press counted, before its effect. -/
def State.counted (s : State) (k : KeyKind) : State :=
  { s with
    press := s.press.press k
    inputs := s.inputs.keyDown k
    record := s.record.file s.clock ⟨k.record, stationOctet s.setup.number, ((s.press.press k).of k).zeroExtend 16⟩ }

theorem changes_counted (s : State) (k : KeyKind) : Changes s (s.counted k) :=
  changes_marked rfl (file_length _ _ _) (flagsWithin_refl _)

theorem changes_fillKey (s : State) (k : KeyKind) (count : Byte) : Changes s (s.fillKey k count) := changes_slots s _ _

theorem fillKey_reportStands (s : State) (k : KeyKind) (count : Byte) (h : s.reportStands) :
    (s.fillKey k count).reportStands := h

theorem takes_silencePress : Takes (.silencePress now) :=
  takes_of (fun _ => rfl) fun s => taken_if fun _ => by
    have pressed := (changes_takeAt s now).trans (changes_counted _ .silence)
    have filled := (pressed.trans (changes_takeSilence _)).trans (changes_fillKey _ .silence (s.press.press .silence).silence)
    exact filled.taken fun _ => fillKey_reportStands _ _ _ (fillOnChange_reportStands _)

theorem takes_resetPress : Takes (.resetPress now) :=
  takes_of (fun _ => rfl) fun s => taken_if fun started => by
    have pressed := (changes_takeAt s now).trans (changes_counted _ .reset)
    have filled := (pressed.toClears.trans (takeReset_clears _)).trans
      (changes_fillKey _ .reset (s.press.press .reset).reset).toClears
    exact filled.reset ⟨started, .inl ⟨now, rfl⟩⟩ (fillKey_reportStands _ _ _ (takeReset_reportStands _))

/-! ## KEY notices (R42) -/

theorem ofCode_key {n : Nat} {k : KeyKind} (h : KeyKind.ofCode? n = some k) : n = k.code := by
  unfold KeyKind.ofCode? at h
  split at h
  · cases h; rfl
  · cases h; rfl
  · cases h

theorem readKey_payload {os : List Byte} {k : KeyKind} {count : Byte} (h : readKey? os = some (k, count)) :
    os = [octet k.code, count] := by
  unfold readKey? at h
  split at h
  · obtain ⟨x, hx, e⟩ := Option.map_eq_some_iff.mp h
    cases e
    rw [← ofCode_key hx, octet, BitVec.ofNat_toNat, BitVec.setWidth_eq]
  · cases h

theorem heardFrom_pressCount (s : State) (l : Line) (k : Station) (start : Time) (key : KeyKind) :
    (((s.takeAt now).heardFrom l k start).afterHearing.peers[k]).pressCount key = (s.peers[k]).pressCount key := by
  rw [heardFrom_eq, present_of_noticed, pressCount_hear]

/-- R41 to R43: a RESET count that the sender's entry does not hold takes a RESET. -/
theorem takesReset_notice {s : State} {l : Line} {rx : Received} {k : Station} {count : Byte} (started : s.started = true)
    (receiving : (s.line l).receiving = true) (valid : verdict classKey readKey? rx = .valid (.reset, count))
    (sender : stationOf rx = k) (zero : k ≠ 0) (other : k ≠ s.setup.number)
    (fresh : (s.peers[k]).pressCount .reset ≠ some count) : s.takesReset (.keyNotice now l rx) := by
  obtain ⟨check, -, content⟩ := verdict_valid_iff valid
  obtain ⟨stage, place⟩ := (receiving_iff _).mp receiving
  exact ⟨started, .inr ⟨now, l, rx, k, count, rfl, stage, place, check, readKey_payload content, congrArg Fin.val sender, zero,
    other, fresh⟩⟩

theorem takes_keyNotice (l : Line) (rx : Received) : Takes (.keyNotice now l rx) :=
  takes_of (fun _ => rfl) fun s => taken_receive now l s classKey readKey? rx _
    fun k start n zero other started sender _ receiving valid => by
      obtain ⟨key, count⟩ := n
      have heard := ((changes_takeAt s now).trans (changes_heardFrom l k start zero other)).trans (changes_afterHearing _)
      have held := heardFrom_pressCount now s l k start key
      unfold State.deliverKey
      by_cases dup : (s.peers[k]).pressCount key = some count
      · rw [if_pos (held.trans dup)]
        exact heard.filled
      · rw [if_neg (by rw [held]; exact dup)]
        have stored := heard.trans (changes_entry _ k (fun p => p.storePress key count) (fun _ => ⟨zero, fun _ => other⟩)
          (file_length _ now ⟨key.record, stationOctet k, count.zeroExtend 16⟩) (flagsWithin_refl _))
        cases key with
        | silence => exact (stored.trans (changes_takeSilence _)).filled
        | reset =>
          exact ((stored.toClears.trans (takeReset_clears _)).trans (fillOnChange_consumes _).changes.toClears).reset
            (takesReset_notice now started receiving valid sender zero other dup) (fillOnChange_reportStands _)

/-! ## START pressed (R116) -/

/-- The extraction controller changed while the station is OPERATING, or from a phase that is not STANDBY. -/
theorem guards_extraction (s : State) (e : Extraction) (h : s.operating = true ∨ s.extraction.phase ≠ .standby) :
    Guards s { s with extraction := e } where
  phase := rfl
  setup := rfl
  place l e := .inl (by cases l <;> exact e)
  errors l e := by cases l <;> exact e
  record h := h
  waits ho w := h.elim (fun h => by rw [ho] at h; cases h) fun h => absurd w.fan h
  entries := noOwnEntry_same rfl rfl rfl

/-- R116: what STARTING is entered with, before what every change of phase brings. -/
def State.begun (s : State) : State :=
  { s with extraction :=
      { s.extraction with
        phase := .starting
        causes := 0
        first := none
        lowFlow := false
        lowCount := 0
        goodCount := 0
        timer := some (after s.clock (s.setup.extraction.startGrace * 1000))
        starts := bump s.extraction.starts } }

theorem enterStarting_eq (s : State) : s.enterStarting = s.begun.phaseChanged := rfl

theorem enterStarting_phase (s : State) : s.enterStarting.extraction.phase = .starting := phaseChanged_phase _

theorem phaseChanged_conditions (s : State) : s.phaseChanged.extraction.conditions = s.extraction.conditions := by
  conv_lhs => rw [(phaseChanged_phaseEntered s).frame]

/-- R95: STARTING is entered from a phase that does not move the air steadily, and no flood state changes. -/
theorem begun_flood {s : State} (steady : s.extraction.phase.steady = false) (p : s.pictureStands) (d : System) :
    s.begun.inFlood d = s.begun.flood[d] := by
  rw [inFlood_unsteady (s := s) (u := s.begun) steady rfl rfl rfl rfl d, show s.begun.flood = s.flood from rfl, p.flood]
  exact (tabulate_at s.inFlood d).symm

theorem enterStarting_sources {s : State} (steady : s.extraction.phase.steady = false) (p : s.pictureStands) :
    SameSources s s.enterStarting := by
  have frame := phaseChanged_frame s.begun
  have consumes := phaseChanged_consumes s.begun
  exact
    { start := congrArg Start.phase consumes.start
      setup := consumes.setup
      peers := consumes.peers
      own := consumes.own
      sensing := consumes.sensing
      zones := consumes.zones
      views := consumes.views
      valves := phaseChanged_valves (begun_flood steady p)
      call := congrArg Inputs.call consumes.inputs
      heat := congrArg Inputs.heat consumes.inputs
      conditions := phaseChanged_conditions s.begun }

theorem enterStarting_flood {s : State} (steady : s.extraction.phase.steady = false) (p : s.pictureStands) :
    s.enterStarting.flood = s.flood := by
  have consumes := phaseChanged_consumes s.begun
  rw [enterStarting_eq, (phaseChanged_phaseEntered s.begun).flood.flood, p.flood]
  refine congrArg tabulate (funext fun d => ?_)
  exact inFlood_unsteady (s := s) steady (by rw [phaseChanged_phase]; rfl) consumes.views consumes.setup consumes.peers d

theorem startFan_cases (s : State) : s.startFan = s ∨ s.startFan = s.refuseStart ∨
    ((s.extraction.phase = .standby ∨ s.extraction.phase = .stopped) ∧
      s.extraction.conditions = ⟨false, false, false⟩ ∧ s.startFan = s.enterStarting) := by
  have none {c : Conditions} (h : c.any = false) : c = ⟨false, false, false⟩ := by
    obtain ⟨fire, storm, trouble⟩ := c
    simp only [Conditions.any, Bool.or_eq_false_iff] at h
    obtain ⟨⟨rfl, rfl⟩, rfl⟩ := h
    rfl
  have start (phase : s.extraction.phase = .standby ∨ s.extraction.phase = .stopped)
      (h : s.startFan = if s.extraction.conditions.any then s.refuseStart else s.enterStarting) :
      s.startFan = s ∨ s.startFan = s.refuseStart ∨
        ((s.extraction.phase = .standby ∨ s.extraction.phase = .stopped) ∧
          s.extraction.conditions = ⟨false, false, false⟩ ∧ s.startFan = s.enterStarting) := by
    rcases Bool.eq_false_or_eq_true s.extraction.conditions.any with any | any <;> rw [any] at h
    · exact .inr (.inl h)
    · exact .inr (.inr ⟨phase, none any, h⟩)
  cases phase : s.extraction.phase with
  | standby => exact phase ▸ start (.inl phase) (by simp only [State.startFan, phase])
  | stopped => exact phase ▸ start (.inr phase) (by simp only [State.startFan, phase])
  | starting | running | diverting | rundown => exact .inl (by simp only [State.startFan, phase])

theorem changes_refuseStart (s : State) : Changes s s.refuseStart :=
  (changes_fan s { s.extraction with refusals := bump s.extraction.refusals } rfl rfl).trans
    (changes_marks _ (file_length _ _ _) (flagsWithin_or ..))

/-- A press taken at another instant leaves the picture as it stands. -/
theorem pictureStands_pressed (p : s.pictureStands) (start : Debounced) :
    ({ s.takeAt now with inputs := { s.inputs with start := start } } : State).pictureStands where
  peers := p.peers
  own := p.own
  live := p.live
  latched := p.latched
  views := p.views
  flood := p.flood.trans (congrArg tabulate (funext fun d => (inFlood_same (s := s)
    (u := { s.takeAt now with inputs := { s.inputs with start := start } }) rfl rfl rfl rfl d).symm))
  unserved := p.unserved
  conditions := p.conditions

theorem fanMoves_starting (accepts : s.acceptsStart c) (phase : t.extraction.phase = .starting) : FanMoves c s t := by
  constructor <;> rw [phase] <;> intro e
  case starting => exact .inr accepts
  all_goals cases e

theorem takes_startPress : Takes (.startPress now) :=
  takes_of (fun _ => rfl) fun s => taken_if fun started => by
    let v : State := { s.takeAt now with inputs := { s.inputs with start := .settled true } }
    have pressed : Changes s v := (changes_takeAt s now).trans (changes_inputs _ _)
    refine taken_ite (t := v.startFan.settle) (fun takes => ?_) fun _ => pressed.beside rfl
    obtain ⟨operating, fan⟩ := Bool.and_eq_true_iff.mp takes
    rcases startFan_cases v with h | h | ⟨phase, clear, h⟩ <;> rw [h]
    · exact pressed.settles
    · exact (pressed.trans (changes_refuseStart v)).settles
    · have accepts : s.acceptsStart (.startPress now) := ⟨⟨now, rfl⟩, operating, fan, phase, clear⟩
      have steady : v.extraction.phase.steady = false := by
        rcases phase with phase | phase <;> rw [phase] <;> rfl
      have consumes := (phaseChanged_consumes v.begun).changes
      refine Guards.settled (u := v.enterStarting)
        (pressed.toGuards.trans ((guards_extraction v _ (.inl operating)).trans consumes.toGuards)) []
        consumes.schedules consumes.zones consumes.flags (absurd accepts) fun p => fanMoves_starting accepts ?_
      have stands : v.pictureStands := pictureStands_pressed now p _
      exact (settle_sameSources (enterStarting_sources steady stands) stands steady (by rw [enterStarting_phase]; rfl)
        (enterStarting_flood steady stands)).trans (enterStarting_phase v)

end

end Sys2Proof.Machine
end

section
/-! SUPPORT. What the commands of the spark channels, the valves, the supply monitor and the maintenance port come to, but for a
spark. -/

namespace Sys2Proof.Machine

/-! ## Spark channels -/

section
variable {c : Instr} {s t u : State} (now : Time) (k : Channel)

/-- R58: a change of a channel that leaves its faults is not reported. -/
theorem withChannel_reported {x : SparkChannel} (h : x.fault = (s.channel k).fault) :
    (s.withChannel k x).reported = s.reported := by
  have same : (s.withChannel k x).anySensorFault = s.anySensorFault := by
    refine congrArg (fun f => (indexes 4).any f) (funext fun j => congrArg (s.channelActive j && ·) ?_)
    by_cases e : j = k
    · subst e
      refine (congrArg SparkChannel.fault (put_same s.sensing.channels j x)).trans h
    · exact congrArg SparkChannel.fault (put_other _ _ _ _ e)
  show { s.reported with sensorFault := (s.withChannel k x).anySensorFault } = s.reported
  rw [same]
  rfl

theorem changes_withChannel (s : State) (x : SparkChannel) : Changes s (s.withChannel k x) := changes_beside rfl

theorem changes_changeFlags (s : State) (set : Bool) (x : SparkChannel) : Changes s (s.changeFlags k set x) :=
  changes_marked rfl (file_length _ _ _) (flagsWithin_ite ..)

theorem taken_pin (level : Bool) : Taken c s ((s.takeAt now).setSparkPin k level) := Changes.beside (changes_beside rfl) rfl

theorem changes_pin (level : Bool) : Changes s ((s.takeAt now).setSparkPin k level) := changes_beside rfl

theorem takes_sensorPulseStart : Takes (.sensorPulseStart now k) :=
  takes_of (fun _ => rfl) fun s => taken_ite (fun _ => by
    refine ((changes_pin now k true).trans (changes_withChannel k _ _)).still (withChannel_reported k ?_) rfl
    split <;> rfl) fun _ => taken_pin now k true

theorem changes_becomeBlinded (s : State) : Changes s (s.becomeBlinded k) :=
  (changes_changeFlags k s _ _).trans (fillOnChange_consumes _).changes

/-- A change that leaves what is reported after a fill. -/
theorem becomeBlinded_reportStands (s : State) : (s.becomeBlinded k).reportStands := fillOnChange_reportStands _

theorem changes_noisePulse (s : State) : Changes s (s.noisePulse k) := by
  unfold State.noisePulse
  refine Changes.trans ?_ (fillOnChange_consumes _).changes
  split
  · exact changes_changeFlags ..
  · exact changes_withChannel ..

theorem changes_testPulse (s : State) : Changes s (s.testPulse k) := by
  unfold State.testPulse
  refine Changes.trans ?_ (fillOnChange_consumes _).changes
  split
  · exact changes_changeFlags ..
  · exact changes_withChannel ..

theorem takes_blinded : Takes (.blinded now k) :=
  takes_of (fun _ => rfl) fun s => taken_if fun _ => ((changes_takeAt s now).trans (changes_changeFlags k _ _ _)).filled

theorem takes_blindedClear : Takes (.blindedClear now k) :=
  takes_of (fun _ => rfl) fun s => taken_if fun _ => ((changes_takeAt s now).trans (changes_changeFlags k _ _ _)).filled

theorem takes_silent : Takes (.silent now k) :=
  takes_of (fun _ => rfl) fun s => taken_if fun _ => ((changes_takeAt s now).trans (changes_changeFlags k _ _ _)).filled

theorem takes_bucketBoundary : Takes (.bucketBoundary now) :=
  takes_of (fun _ => rfl) fun _ => taken_if fun _ =>
    Changes.settles (changes_marked rfl (fileAll_length _ _ _) (flagsWithin_refl _))

theorem takes_escalated : Takes (.escalated now) :=
  takes_of (fun _ => rfl) fun s => taken_if fun _ => by
    split
    · exact Changes.settles (changes_marked rfl (file_length _ _ _) (flagsWithin_refl _))
    · exact taken_takeAt _ s now

theorem takes_watchHoldExpiry : Takes (.watchHoldExpiry now) :=
  takes_of (fun _ => rfl) fun _ => taken_if fun _ => Changes.settles (changes_beside rfl)

end

/-! ## Valves -/

section
variable {c : Instr} {s t u : State} (now : Time) (o : Output)

/-- R97: a change of a valve that leaves its trouble is not reported. -/
theorem withValve_reported {v : Valve} (h : v.trouble = s.valves[o].trouble) :
    (s.withValve o v).reported = s.reported := by
  have same : (s.withValve o v).valveTrouble = s.valveTrouble := by
    refine congrArg (fun f => (indexes 4).any f) (funext fun p => congrArg ((s.role p).isValve && ·) ?_)
    by_cases e : p = o
    · subst e
      exact (congrArg Valve.trouble (put_same s.valves p v)).trans h
    · exact congrArg Valve.trouble (put_other _ _ _ _ e)
  show { s.reported with valveTrouble := (s.withValve o v).valveTrouble } = s.reported
  rw [same]
  rfl

/-- An operation on a valve that leaves its schedule and its trouble. -/
def Valve.works (v w : Valve) : Prop := w.schedule = v.schedule ∧ w.trouble = v.trouble

variable (confirm : Nat) (feedback : Bool) (v : Valve)

theorem openIfDue_works : v.works (v.openIfDue now confirm feedback) := by
  unfold Valve.openIfDue Valve.enterOpening Valve.confirmWater
  split
  · simp only
    split <;> exact ⟨rfl, rfl⟩
  · exact ⟨rfl, rfl⟩

theorem endWindow_works : v.works (v.endWindow now confirm feedback) := by
  unfold Valve.endWindow Valve.turnOff
  split <;> exact ⟨rfl, rfl⟩

theorem takeFlow_works : v.works (v.takeFlow now confirm feedback) := by
  unfold Valve.takeFlow Valve.confirmWater
  split
  · split <;> exact ⟨rfl, rfl⟩
  · exact ⟨rfl, rfl⟩
  · split <;> exact ⟨rfl, rfl⟩
  · exact ⟨rfl, rfl⟩
  · exact ⟨rfl, rfl⟩

/-- A valve that works while the station is OPERATING. -/
theorem changes_works {s : State} {w : Valve} (h : s.valves[o].works w) (operating : s.operating = true) :
    Changes s (s.withValve o w) :=
  changes_valve s o w (by rw [h.1]) fun e => by rw [operating] at e; cases e

theorem openValve_step (s : State) : Changes s (s.openValve o) ∧ (s.openValve o).reported = s.reported ∧
    (s.openValve o).assembler = s.assembler := by
  unfold State.openValve
  split
  · rename_i h
    have works := openIfDue_works s.clock s.confirmMs (s.feedback o) (s.valve o)
    exact ⟨changes_works o works (Bool.and_eq_true_iff.mp h).1, withValve_reported o works.2, rfl⟩
  · exact ⟨changes_refl s, rfl, rfl⟩

theorem takes_windowOpen : Takes (.windowOpen now o) :=
  takes_of (fun _ => rfl) fun s => by
    obtain ⟨changes, reported, assembler⟩ := openValve_step o (s.takeAt now)
    exact ((changes_takeAt s now).trans changes).still reported (congrArg Assembler.last assembler)

/-- R88: the first window gone, and the valve at its end while the station is OPERATING. -/
theorem closedWindow_step (s : State) {w : Valve} (h : w = if s.operating then
      (s.valve o).dropWindow.endWindow s.clock s.confirmMs (s.feedback o) else (s.valve o).dropWindow) :
    Changes s (s.withValve o w) ∧ (s.withValve o w).reported = s.reported := by
  have works := endWindow_works s.clock s.confirmMs (s.feedback o) (s.valve o).dropWindow
  rcases Bool.eq_false_or_eq_true s.operating with operating | waiting
  · rw [if_pos operating] at h
    subst h
    refine ⟨changes_valve s o _ ?_ fun e => ?_, withValve_reported o works.2⟩
    · rw [works.1]
      exact List.drop_sublist ..
    · rw [operating] at e
      cases e
  · rw [if_neg (by rw [waiting]; exact Bool.false_ne_true)] at h
    subst h
    exact ⟨changes_valve s o _ (List.drop_sublist ..) fun _ w => w, withValve_reported o rfl⟩

theorem takes_windowClose : Takes (.windowClose now o) :=
  takes_of (fun _ => rfl) fun s => taken_if fun _ => by
    obtain ⟨closes, closed⟩ := closedWindow_step o (s.takeAt now) rfl
    obtain ⟨opens, opened, assembler⟩ := openValve_step o ((s.takeAt now).withValve o _)
    exact ((changes_takeAt s now).trans (closes.trans opens)).still (opened.trans closed)
      (congrArg Assembler.last assembler)

theorem changes_setFeedback (s : State) (active : Bool) : Changes s (s.setFeedback o active) := changes_beside rfl

theorem takes_flowSwitchChange (active : Bool) : Takes (.flowSwitchChange now o active) :=
  takes_of (fun _ => rfl) fun s => taken_if fun _ => by
    have fed := (changes_takeAt s now).trans (changes_setFeedback o _ active)
    unfold State.flowChange
    refine taken_ite (fun operating => ?_) fun _ => fed.beside rfl
    have works := takeFlow_works now s.confirmMs active (s.valve o)
    exact (fed.trans (changes_works o works operating)).still (withValve_reported o works.2) rfl

/-- R97: a sticky fault of a valve that is not idle, or that stays as it stands. -/
theorem changes_stickyFault (s : State) {v : Valve} (kind : RecordKind) (value : Count)
    (schedule : v.schedule = s.valves[o].schedule)
    (idle : s.valves[o].state = .idle ∧ s.valves[o].confirmTimer = none → v.state = .idle ∧ v.confirmTimer = none) :
    Changes s (s.stickyFault o v kind value) :=
  (changes_valve s o v (by rw [schedule]) fun _ => idle).trans (changes_marks _ (file_length _ _ _) (flagsWithin_or ..))

theorem due_none (now : Time) : due now none = false := rfl

theorem takes_confirmTimerExpiry : Takes (.confirmTimerExpiry now o) :=
  takes_of (fun _ => rfl) fun s => taken_if fun h =>
    ((changes_takeAt s now).trans (changes_stickyFault o _ (v := ((s.takeAt now).valve o).failWater) .waterFail
      (sat16 s.confirmMs) rfl fun idle => by
        have runs := (Bool.and_eq_true_iff.mp h).2
        rw [show ((s.takeAt now).valve o).confirmTimer = none from idle.2, due_none] at runs
        cases runs)).settles

theorem takes_cutOff : Takes (.cutOff now o) :=
  takes_of (fun _ => rfl) fun s => taken_if fun h =>
    ((changes_takeAt s now).trans (changes_stickyFault o _
      (v := ((s.takeAt now).valve o).forceOff now s.confirmMs (s.feedback o)) .cutOff
      (cutOffFiling now o (s.valve o)).value rfl fun idle => by
        have on := (Bool.and_eq_true_iff.mp h).2
        simp only [Valve.overtime, show ((s.takeAt now).valve o).state = .idle from idle.1, ValveState.on,
          Bool.false_and] at on
        cases on)).settles

theorem takes_valveStuck : Takes (.valveStuck now o) :=
  takes_of (fun _ => rfl) fun s => taken_if fun _ =>
    ((changes_takeAt s now).trans (changes_stickyFault o _ (v := ((s.takeAt now).valve o).setStuck) .valveStuck 0 rfl
      fun idle => idle)).settles

end

/-! ## Maintenance port -/

section
variable {c : Instr} {s : State} (now : Time) (argument : Byte)

theorem taken_transact (request : Byte) : Taken c s ((s.takeAt now).transact request argument) :=
  Changes.beside (changes_marked rfl (fun h => h) (flagsWithin_refl _)) rfl

theorem takes_status : Takes (.status now argument) := takes_of (fun _ => rfl) fun _ => taken_transact ..
theorem takes_zones : Takes (.zones now argument) := takes_of (fun _ => rfl) fun _ => taken_transact ..
theorem takes_peer : Takes (.peer now argument) := takes_of (fun _ => rfl) fun _ => taken_transact ..
theorem takes_valve : Takes (.valve now argument) := takes_of (fun _ => rfl) fun _ => taken_transact ..
theorem takes_barriers : Takes (.barriers now argument) := takes_of (fun _ => rfl) fun _ => taken_transact ..
theorem takes_sirens : Takes (.sirens now argument) := takes_of (fun _ => rfl) fun _ => taken_transact ..
theorem takes_fan : Takes (.fan now argument) := takes_of (fun _ => rfl) fun _ => taken_transact ..
theorem takes_counters : Takes (.counters now argument) := takes_of (fun _ => rfl) fun _ => taken_transact ..
theorem takes_takeRecord : Takes (.takeRecord now argument) := takes_of (fun _ => rfl) fun _ => taken_transact ..
theorem takes_unknown (request : Byte) : Takes (.unknown now request argument) :=
  takes_of (fun _ => rfl) fun _ => taken_transact ..

theorem completeTake_length (r : EventRecord) (h : r.entries.length ≤ Config.recordPlaces) :
    r.completeTake.entries.length ≤ Config.recordPlaces := by
  unfold EventRecord.completeTake
  simp only
  split
  · exact Nat.le_trans (List.drop_sublist ..).length_le h
  · exact h

theorem takes_takeRecordComplete : Takes (.takeRecordComplete now) :=
  takes_of (fun _ => rfl) fun _ => Changes.beside (changes_marked rfl (completeTake_length _) (flagsWithin_refl _)) rfl

end

end Sys2Proof.Machine
end

section
/-! SUPPORT. What the commands of the extraction controller come to: the samples, the phase timers and the feedbacks. -/

namespace Sys2Proof.Machine

/-! ## Changes of the fan phase by other than causes -/

/-- What Changes says, but for the moves of the fan. -/
structure Advances (s t : State) : Prop extends Guards s t where
  schedules : ∀ o : Output, (t.valves[o].schedule).Sublist s.valves[o].schedule
  causes : causesWithin s.extraction.causes t.extraction.causes
  zones : t.zones = s.zones
  flags : flagsWithin s.flags t.flags

section
variable {c : Instr} {s t u : State}

theorem Changes.advances (h : Changes s t) : Advances s t := ⟨h.toGuards, h.schedules, h.causes, h.zones, h.flags⟩

theorem Advances.trans (h : Advances s t) (h' : Advances t u) : Advances s u where
  toGuards := h.toGuards.trans h'.toGuards
  schedules o := (h'.schedules o).trans (h.schedules o)
  causes := causesWithin_trans h.causes h'.causes
  zones := h'.zones.trans h.zones
  flags := flagsWithin_trans h.flags h'.flags

theorem Advances.settled (h : Advances s u) (event : List Cause) (fan : FanMoves c s (u.settleWith event)) :
    Taken c s (u.settleWith event) :=
  h.toGuards.settled event h.schedules h.zones h.flags (fun _ => h.causes) fun _ => fan

/-- Another phase entered from a phase that is not STANDBY. -/
theorem advances_extraction (s : State) (e : Extraction) (causes : e.causes = s.extraction.causes)
    (phase : s.extraction.phase ≠ .standby) : Advances s { s with extraction := e } where
  toGuards := guards_extraction s e (.inr phase)
  schedules _ := List.Sublist.refl _
  causes := by
    show causesWithin s.extraction.causes e.causes
    rw [causes]; exact causesWithin_refl _
  zones := rfl
  flags := flagsWithin_refl _

theorem advances_enterRunning (phase : s.extraction.phase ≠ .standby) : Advances s s.enterRunning :=
  (advances_extraction s { s.extraction with phase := .running, timer := none } rfl phase).trans
    (phaseChanged_consumes _).changes.advances

theorem advances_enterRundown (phase : s.extraction.phase ≠ .standby) : Advances s s.enterRundown :=
  (advances_extraction s { s.extraction with
    phase := .rundown
    timer := some (after s.clock (s.setup.extraction.rundownLimit * 1000))
    stopCount := 0 } rfl phase).trans (phaseChanged_consumes _).changes.advances

theorem advances_enterStopped (phase : s.extraction.phase ≠ .standby) : Advances s s.enterStopped :=
  (advances_extraction s { s.extraction with phase := .stopped, timer := none } rfl phase).trans
    (phaseChanged_consumes _).changes.advances

theorem enterRunning_phase (s : State) : s.enterRunning.extraction.phase = .running := phaseChanged_phase _

/-- R115: causes lead from no phase but STARTING and RUNNING. -/
theorem caused_rest {p q : FanPhase} (h : p.caused q = true) (starting : p ≠ .starting) (running : p ≠ .running) : q = p := by
  revert h starting running
  cases p <;> cases q <;> simp [FanPhase.caused]

theorem fanMoves_running (h : s.extraction.phase = .starting) (now : Time)
    (caused : FanPhase.running.caused t.extraction.phase = true) : FanMoves (.sampleComplete now) s t := by
  constructor <;> intro e <;> rw [e] at caused
  case running => exact .inr ⟨h, now, rfl⟩
  case diverting => exact .inr (.inl h)
  case rundown => exact .inr (.inr (.inl h))
  all_goals cases caused

theorem fanMoves_rundown (h : s.extraction.phase = .diverting) (phase : t.extraction.phase = .rundown) : FanMoves c s t := by
  constructor <;> rw [phase] <;> intro e
  case rundown => exact .inr (.inl h)
  all_goals cases e

theorem fanMoves_stopped (h : s.extraction.phase = .rundown) (phase : t.extraction.phase = .stopped) : FanMoves c s t := by
  constructor <;> rw [phase] <;> intro e
  case stopped => exact .inr h
  all_goals cases e

theorem settleWith_rest {p : FanPhase} (h : u.extraction.phase = p) (starting : p ≠ .starting) (running : p ≠ .running)
    (event : List Cause) : (u.settleWith event).extraction.phase = p := by
  have fan := (settleWith_follows u event).fan
  rw [h] at fan
  exact caused_rest fan starting running

end

/-! ## Samples (R103, R106, R108, R111) -/

section
variable {s : State} (now : Time)

theorem takes_flowPulse : Takes (.flowPulse now) :=
  takes_of (fun _ => rfl) fun s =>
    ((changes_takeAt s now).trans (changes_fan _ { s.extraction with
      window := s.extraction.window.map (SampleWindow.count now) } rfl rfl)).still rfl rfl

theorem judgeLowFlow_stands (p : ExtractionParameters) (e : Extraction) :
    (e.judgeLowFlow p).causes = e.causes ∧ (e.judgeLowFlow p).phase = e.phase := by
  unfold Extraction.judgeLowFlow
  split
  · split <;> exact ⟨rfl, rfl⟩
  · split
    · split <;> exact ⟨rfl, rfl⟩
    · exact ⟨rfl, rfl⟩

theorem changes_judgeFlow (s : State) : Changes s s.judgeFlow :=
  changes_fan s _ (judgeLowFlow_stands ..).1 (judgeLowFlow_stands ..).2

theorem changes_planWindow (s : State) : Changes s s.planWindow :=
  changes_fan s _ (nextWindow_extraction ..).2.1 (nextWindow_extraction ..).2.2

theorem planWindow_phase (s : State) : s.planWindow.extraction.phase = s.extraction.phase :=
  (nextWindow_extraction ..).2.2

theorem changes_takeSample (s : State) (w : SampleWindow) : Changes s (s.takeSample w) := changes_fan s _ rfl rfl

/-- R108: the good count kept, or RUNNING entered. -/
theorem judgeGood_moves (phase : s.extraction.phase = .starting) : Changes s s.judgeGood ∨
    (Advances s s.judgeGood ∧ s.judgeGood.extraction.phase = .running) := by
  have sb : s.extraction.phase ≠ .standby := by rw [phase]; decide
  unfold State.judgeGood
  simp only
  generalize (if s.setup.extraction.floor ≤ s.extraction.velocity then s.extraction.goodCount + 1 else 0) = good
  have counted : Changes s { s with extraction := { s.extraction with goodCount := good } } := changes_fan s _ rfl rfl
  split
  · exact .inr ⟨counted.advances.trans (advances_enterRunning sb), enterRunning_phase _⟩
  · exact .inl counted

/-- R111: the slow count kept, or STOPPED entered. -/
theorem judgeStop_moves (phase : s.extraction.phase = .rundown) : Changes s s.judgeStop ∨
    (Advances s s.judgeStop ∧ s.judgeStop.extraction.phase = .stopped) := by
  have sb : s.extraction.phase ≠ .standby := by rw [phase]; decide
  unfold State.judgeStop
  simp only
  generalize (if s.extraction.velocity < s.setup.extraction.stop then s.extraction.stopCount + 1 else 0) = slow
  have counted : Changes s { s with extraction := { s.extraction with stopCount := slow } } := changes_fan s _ rfl rfl
  split
  · exact .inr ⟨counted.advances.trans (advances_enterStopped sb), enterStopped_phase _⟩
  · exact .inl counted

/-- R103: a sample judged leaves the phase, ends STARTING in RUNNING, or ends RUNDOWN in STOPPED. -/
theorem judgeSample_moves (s : State) : Changes s s.judgeSample ∨
    (Advances s s.judgeSample ∧ s.extraction.phase = .starting ∧ s.judgeSample.extraction.phase = .running) ∨
    (Advances s s.judgeSample ∧ s.extraction.phase = .rundown ∧ s.judgeSample.extraction.phase = .stopped) := by
  cases phase : s.extraction.phase with
  | starting =>
    have e : s.judgeSample = s.judgeGood := by simp only [State.judgeSample, phase]
    rw [e]
    exact (judgeGood_moves phase).imp id fun h => .inl ⟨h.1, rfl, h.2⟩
  | rundown =>
    have e : s.judgeSample = s.judgeFlow.judgeStop := by simp only [State.judgeSample, phase]
    have flow := changes_judgeFlow s
    have stays : s.judgeFlow.extraction.phase = .rundown := (judgeLowFlow_stands ..).2.trans phase
    rw [e]
    exact (judgeStop_moves stays).imp flow.trans fun h => .inr ⟨flow.advances.trans h.1, rfl, h.2⟩
  | standby | running | diverting | stopped =>
    have e : s.judgeSample = s.judgeFlow := by simp only [State.judgeSample, phase]
    rw [e]
    exact .inl (changes_judgeFlow s)

theorem takes_sampleComplete : Takes (.sampleComplete now) :=
  takes_of (fun _ => rfl) fun s => by
    cases (s.takeAt now).extraction.window with
    | none => exact taken_takeAt _ s now
    | some w =>
      refine taken_ite (fun _ => ?_) fun _ => taken_takeAt _ s now
      have sampled := (changes_takeAt s now).trans (changes_takeSample _ w)
      have plan := changes_planWindow ((s.takeAt now).takeSample w).judgeSample
      have planned := planWindow_phase ((s.takeAt now).takeSample w).judgeSample
      rcases judgeSample_moves ((s.takeAt now).takeSample w) with h | ⟨h, from_, phase⟩ | ⟨h, from_, phase⟩
      · exact ((sampled.trans h).trans plan).settled _
      · refine ((sampled.advances.trans h).trans plan.advances).settled _ (fanMoves_running (s := s) from_ now ?_)
        rw [← phase, ← planned]
        exact (settleWith_follows _ _).fan
      · exact ((sampled.advances.trans h).trans plan.advances).settled _
          (fanMoves_stopped (s := s) from_ (settleWith_rest (planned.trans phase) (by decide) (by decide) _))

theorem takes_periodicWindowStart : Takes (.periodicWindowStart now) :=
  takes_of (fun _ => rfl) fun s => taken_if fun _ =>
    ((changes_takeAt s now).trans (changes_fan _ (s.extraction.startWindow now) rfl rfl)).still rfl rfl

/-! ## Phase timers (R108, R110, R111, R118) -/

/-- R118: a mark of the extraction controller and the flag. -/
theorem changes_fanMark (s : State) (e : Extraction) (causes : e.causes = s.extraction.causes)
    (phase : e.phase = s.extraction.phase) :
    Changes s { s with extraction := e, flags := s.flags ||| Attention.fanFault.mask } :=
  (changes_fan s e causes phase).trans (changes_raise { s with extraction := e } .fanFault)

theorem takes_startGraceExpiry : Takes (.startGraceExpiry now) :=
  takes_of (fun _ => rfl) fun s => taken_if fun _ =>
    ((changes_takeAt s now).trans (changes_fanMark (s.takeAt now)
      { s.extraction with startFail := true } rfl rfl)).settled [.startFail]

theorem phaseTimerDue_phase {p : FanPhase} (h : s.phaseTimerDue p = true) : s.extraction.phase = p := by
  simp only [State.phaseTimerDue, Bool.and_eq_true, beq_iff_eq] at h
  exact h.1

theorem takes_gateTimerExpiry : Takes (.gateTimerExpiry now) :=
  takes_of (fun _ => rfl) fun s => taken_if fun h => by
    have phase : s.extraction.phase = .diverting := phaseTimerDue_phase (s := s.takeAt now) h
    have marked := (changes_takeAt s now).trans
      (changes_fanMark (s.takeAt now) { s.extraction with gateFail := true } rfl rfl)
    exact (marked.advances.trans (advances_enterRundown (by
      show s.extraction.phase ≠ .standby
      rw [phase]; decide))).settled [] (fanMoves_rundown phase
        (settleWith_rest (enterRundown_phase _) (by decide) (by decide) []))

theorem takes_rundownLimitExpiry : Takes (.rundownLimitExpiry now) :=
  takes_of (fun _ => rfl) fun s => taken_if fun h => by
    have phase : s.extraction.phase = .rundown := phaseTimerDue_phase (s := s.takeAt now) h
    have marked := (changes_takeAt s now).trans
      (changes_fanMark (s.takeAt now) { s.extraction with rundownSlow := true } rfl rfl)
    exact (marked.advances.trans (advances_enterStopped (by
      show s.extraction.phase ≠ .standby
      rw [phase]; decide))).settled [] (fanMoves_stopped phase
        (settleWith_rest (enterStopped_phase _) (by decide) (by decide) []))

/-! ## Feedbacks and mismatches (R101, R102, R110) -/

theorem judgeMismatches_reported (s : State) : s.judgeMismatches.reported = s.reported := by
  unfold State.judgeMismatches
  simp only
  split <;> rfl

theorem takes_gateFeedbackChange (active : Bool) : Takes (.gateFeedbackChange now active) :=
  takes_of (fun _ => rfl) fun s => by
    cases (s.takeAt now).gateOutput with
    | none => exact taken_takeAt _ s now
    | some o =>
      refine taken_ite (fun _ => ?_) fun _ => taken_takeAt _ s now
      have judged := ((changes_takeAt s now).trans (changes_setFeedback o _ active)).trans (judgeMismatches_consumes _).changes
      have stays : ((s.takeAt now).setFeedback o active).judgeMismatches.extraction.phase = s.extraction.phase :=
        (judgeMismatches_extraction _).2.2
      unfold State.endDiverting
      rcases Bool.eq_false_or_eq_true (((s.takeAt now).setFeedback o active).judgeMismatches.extraction.phase == .diverting &&
        active) with ends | goes
      · rw [if_pos ends]
        have phase := beq_iff_eq.mp (Bool.and_eq_true_iff.mp ends).1
        exact (judged.advances.trans (advances_enterRundown (by rw [phase]; decide))).settled []
          (fanMoves_rundown (stays.symm.trans phase) (settleWith_rest (enterRundown_phase _) (by decide) (by decide) []))
      · rw [if_neg (by rw [goes]; exact Bool.false_ne_true)]
        exact judged.settles

theorem takes_runningContactChange (active : Bool) : Takes (.runningContactChange now active) :=
  takes_of (fun _ => rfl) fun s => by
    cases (s.takeAt now).contactorOutput with
    | none => exact taken_takeAt _ s now
    | some o =>
      refine taken_ite (fun _ => ?_) fun _ => taken_takeAt _ s now
      exact (((changes_takeAt s now).trans (changes_setFeedback o _ active)).trans
        (judgeMismatches_consumes _).changes).still (judgeMismatches_reported _) rfl

theorem takes_contactorMismatch : Takes (.contactorMismatch now) :=
  takes_of (fun _ => rfl) fun s => taken_if fun _ =>
    ((changes_takeAt s now).trans (changes_fanMark (s.takeAt now)
      { s.extraction with contactor := ⟨none, true⟩ } rfl rfl)).still rfl rfl

theorem takes_gateMismatch : Takes (.gateMismatch now) :=
  takes_of (fun _ => rfl) fun s => taken_if fun _ =>
    ((changes_takeAt s now).trans (changes_fanMark (s.takeAt now)
      { s.extraction with gate := ⟨none, true⟩ } rfl rfl)).still rfl rfl

end

end Sys2Proof.Machine
end

section
/-! SUPPORT. What the commands of the barriers, the sirens and the supply monitor come to. -/

namespace Sys2Proof.Machine

/-! ## Barriers (R125 to R134) -/

section
variable {s : State} (now : Time) (o : Output)

theorem withBarrier_operating (s : State) (b : Barrier) (operating : s.operating = true) : Changes s (s.withBarrier o b) :=
  changes_barriers_operating s _ operating

/-- R136: what a barrier files, and the flag. -/
theorem changes_report (s : State) (fs : List Filing) (a : Attention) : Changes s ((s.fileAll fs).raise a) :=
  (changes_fileAll s fs).trans (changes_raise _ a)

theorem changes_fileJam (s : State) (value : Nat) : Changes s (s.fileJam o value) :=
  changes_marks s (file_length _ _ _) (flagsWithin_or ..)

theorem changes_reopenMotor (operating : s.operating = true) : Changes s (s.reopenMotor o) := by
  unfold State.reopenMotor
  simp only
  split
  · exact (changes_barriers_operating s _ operating).trans (changes_report _ _ _)
  · exact (changes_barriers_operating s _ operating).trans (changes_report _ _ _)

theorem changes_magnetFeedback (operating : s.operating = true) (active : Bool) : Changes s (s.magnetFeedback o active) := by
  unfold State.magnetFeedback
  simp only
  split
  · exact (withBarrier_operating o s _ operating).trans (changes_fileAll _ _)
  · exact (withBarrier_operating o s _ operating).trans (changes_fileAll _ _)
  · exact (withBarrier_operating o s _ operating).trans (changes_fileAll _ _)
  · split
    · exact (withBarrier_operating o s _ operating).trans (changes_report _ _ _)
    · exact withBarrier_operating o s _ operating
  · exact changes_refl s

theorem changes_motorFeedback (operating : s.operating = true) (active : Bool) : Changes s (s.motorFeedback o active) := by
  unfold State.motorFeedback
  simp only
  split
  · exact (changes_barriers_operating s _ operating).trans (changes_fileAll _ _)
  · exact (changes_barriers_operating s _ operating).trans (changes_fileAll _ _)
  · exact (withBarrier_operating o s _ operating).trans (changes_fileAll _ _)
  · split
    · exact changes_reopenMotor o operating
    · exact withBarrier_operating o s _ operating
  · exact changes_refl s

theorem changes_barrierFeedback (operating : s.operating = true) (active : Bool) : Changes s (s.barrierFeedback o active) := by
  unfold State.barrierFeedback
  split
  · exact changes_motorFeedback o operating active
  · split
    · exact changes_magnetFeedback o operating active
    · exact changes_refl s

theorem takes_barrierFeedbackChange (active : Bool) : Takes (.barrierFeedbackChange now o active) :=
  takes_of (fun _ => rfl) fun s => taken_if fun _ => by
    have fed := (changes_takeAt s now).trans (changes_setFeedback o _ active)
    unfold State.barrierChange
    refine taken_ite (fun operating => ?_) fun _ => fed.beside rfl
    exact ((fed.trans (changes_barrierFeedback o operating active)).trans (considerQueue_consumes _).changes).filled

/-- R125: a travel timer runs at a closing barrier, which no station before OPERATING has. -/
theorem takes_travelTimerExpiry : Takes (.travelTimerExpiry now o) :=
  takes_of (fun _ => rfl) fun s => taken_if fun h => by
    refine (((changes_takeAt s now).trans (changes_barriers _ _ fun _ w => ?_)).trans (changes_fileJam o _ 0)).filled
    have unarmed := w.barrier o
    simp only [State.travelDue, unarmed, Bool.and_eq_true] at h
    cases h.1.2

/-- R132: a motor runs, which no station before OPERATING has. -/
theorem takes_travelExhausted : Takes (.travelExhausted now o) :=
  takes_of (fun _ => rfl) fun s => taken_if fun h => by
    refine ((((changes_takeAt s now).trans (changes_barriers _ _ fun _ w => ?_)).trans (changes_fileJam o _ _)).trans
      (considerQueue_consumes _).changes).filled
    simp only [State.travelOut, w.queue.2, Bool.and_eq_true] at h
    cases h.1

theorem takes_damperWaitExpiry : Takes (.damperWaitExpiry now o) :=
  takes_of (fun _ => rfl) fun s => taken_if fun _ =>
    (((changes_takeAt s now).trans (withBarrier_consumes (s.takeAt now) o { s.barrier o with wait := .expired } rfl rfl
      rfl).changes).trans (considerQueue_consumes _).changes).filled

end

/-! ## Sirens (R138, R139, R144, R145) -/

section
variable {s t : State} (now : Time) (o : Output)

/-- R146: what is reported when only the siren outputs change, and none of them its pattern. -/
theorem sirens_reported (s : State) (x : Sirens)
    (patterns : ∀ p : Output, (x.units[p]).pattern = (s.sirens.units[p]).pattern) :
    ({ s with sirens := x } : State).reported = s.reported := by
  have same : ({ s with sirens := x } : State).reportedPattern = s.reportedPattern :=
    congrArg (fun f => (indexes 4).foldl f Pattern.none) (funext fun p => funext fun q => by
      show (if (s.role q).isSiren then p.higher (x.units[q]).pattern else p) = _
      rw [patterns q])
  show { s.reported with pattern := ({ s with sirens := x } : State).reportedPattern } = s.reported
  rw [same]
  rfl

theorem withSiren_pattern {u : Siren} (h : u.pattern = (s.siren o).pattern) (p : Output) :
    ((put s.sirens.units o u)[p]).pattern = (s.sirens.units[p]).pattern := by
  by_cases e : p = o
  · subst e; simp only [Fin.getElem_fin, put_same]; exact h
  · simp only [Fin.getElem_fin, put_other _ _ _ _ e]

/-- A siren output changed, that is not driven unless it was. -/
theorem changes_withSiren (s : State) (u : Siren) (driven : u.driven = (s.siren o).driven) : Changes s (s.withSiren o u) :=
  changes_sirens s _ fun _ off p => by
    by_cases e : p = o
    · subst e; simp only [Fin.getElem_fin, put_same]; exact driven.trans (off p)
    · simp only [Fin.getElem_fin, put_other _ _ _ _ e]; exact off p

theorem takes_sirenFeedbackChange (active : Bool) : Takes (.sirenFeedbackChange now o active) :=
  takes_of (fun _ => rfl) fun s => taken_if fun _ =>
    (((changes_takeAt s now).trans (changes_setFeedback o _ active)).trans (changes_withSiren o _
      ((s.siren o).takeFeedback now active) rfl)).still
      ((sirens_reported ((s.takeAt now).setFeedback o active) _
        (withSiren_pattern (s := (s.takeAt now).setFeedback o active) (u := (s.siren o).takeFeedback now active) o rfl)).trans
        (reported_beside rfl)) rfl

theorem takes_sirenFault : Takes (.sirenFault now o) :=
  takes_of (fun _ => rfl) fun s => taken_if fun _ =>
    (((changes_takeAt s now).trans (changes_withSiren o _ ((s.takeAt now).siren o).failCurrent rfl)).trans
      (changes_marks _ (file_length _ _ _) (flagsWithin_or ..))).still
      (sirens_reported (s.takeAt now) _ (withSiren_pattern o rfl)) rfl

theorem takes_cadenceLevelChange : Takes (.cadenceLevelChange now) :=
  takes_of (fun _ => rfl) fun s =>
    ((changes_takeAt s now).trans (followCadence_consumes _).changes).still
      (sirens_reported (s.takeAt now) _ fun p => (followCadence_output (s.takeAt now) p).2.1) rfl

theorem takes_resoundTimerExpiry : Takes (.resoundTimerExpiry now) :=
  takes_of (fun _ => rfl) fun s => taken_if fun _ => by
    refine (((changes_takeAt s now).trans (changes_sirens _ _ fun _ off p => ?_)).trans
      (choosePatterns_consumes _).changes).filled
    simp only [State.mapSirens, Fin.getElem_fin, tabulate_at]
    split
    · exact off p
    · exact off p

theorem takes_allClearEnd : Takes (.allClearEnd now o) :=
  takes_of (fun _ => rfl) fun s => taken_if fun _ =>
    (((changes_takeAt s now).trans (changes_withSiren o _ { (s.takeAt now).siren o with allClear := none } rfl)).trans
      (choosePatterns_consumes _).changes).filled

end

/-! ## Supply monitor (R155, R156) -/

section
variable {s : State} (now : Time)

/-- R133: the motor that LOW stops is one of a station that is OPERATING. -/
theorem changes_pauseRun (s : State) : Changes s s.pauseRun := by
  unfold State.pauseRun
  split
  · exact changes_refl s
  · rename_i o running
    exact changes_barriers s _ fun _ w => by rw [w.queue.2] at running; cases running

/-- R156: the low count, LOW, and what follows from LOW. -/
theorem judgeSupply_taken {c : Instr} {u : State} (h : Changes s u) (reported : u.reported = s.reported)
    (last : u.assembler.last = s.assembler.last) : Taken c s u.judgeSupply := by
  unfold State.judgeSupply
  refine taken_ite (fun _ => ?_) fun _ => ?_
  · split
    · exact (((h.trans (changes_supply u { u.supply with low := false })).trans (changes_file _ _)).trans
        (considerQueue_consumes _).changes).filled
    · exact h.still reported last
  · split
    · split
      · exact ((((h.trans (changes_supply u { u.supply with low := true, count := 0 })).trans
          (changes_marks _ (file_length _ _ _) (flagsWithin_or ..))).trans (changes_pauseRun _)).trans
          (considerQueue_consumes _).changes).filled
      · exact (h.trans (changes_supply u { u.supply with count := u.supply.count + 1 })).still reported last
    · exact (h.trans (changes_supply u { u.supply with count := 0 })).still reported last

theorem takes_supplySample (millivolts : Nat) : Takes (.supplySample now millivolts) :=
  takes_of (fun _ => rfl) fun s => taken_if fun _ => by
    have graded : Changes s ((s.takeAt now).gradeSupply (supplyLevel millivolts)) := changes_beside rfl
    refine taken_ite (fun _ => judgeSupply_taken graded rfl rfl) fun _ => graded.still rfl rfl

end

end Sys2Proof.Machine
end

section
/-! SUPPORT. What the commands of the start sequencer come to (R150 to R154), and the ageing of the instants (R149). -/

namespace Sys2Proof.Machine

/-! ## The image read (R150 to R153) -/

section
variable {c : Instr} {s t u : State}

theorem started_of_load (h : s.start.phase = .load) : s.started = false := by simp only [State.started, h]
theorem permitted_of_load (h : s.start.phase = .load) : s.permitted = false := by simp only [State.permitted, h]
theorem operating_of_load (h : s.start.phase = .load) : s.operating = false := by simp only [State.operating, h]; rfl

theorem reading_phase (h : s.reading = true) : s.start.phase = .load :=
  beq_iff_eq.mp (Bool.and_eq_true_iff.mp h).1

/-- R150: LOAD goes on or ends in CONFIG_FAULT. -/
theorem taken_load (load : s.start.phase = .load)
    (same : t = { s with clock := t.clock, agings := t.agings, start := t.start, supply := t.supply, record := t.record })
    (unstarted : t.started = false) (unpermitted : t.permitted = false) (record : s.recordFits → t.recordFits) :
    Taken c s t where
  started e := by rw [started_of_load load] at e; cases e
  quiet q := by
    refine ⟨fun e => ?_, fun e => ?_⟩ <;> rw [same] at e
    · have := q.1 e; rw [permitted_of_load load] at this; cases this
    · have := q.2 e; rw [permitted_of_load load] at this; cases this
  fault e := by rw [load] at e; cases e
  waits w _ := by
    have waiting := w (operating_of_load load)
    rw [same]
    exact ⟨waiting.fan, waiting.valve, waiting.barrier, waiting.queue, waiting.siren⟩
  report _ e := by rw [unpermitted] at e; cases e
  record := record
  schedules fits := by rw [same]; exact fits
  errors fits := by rw [same]; exact fits
  entries _ own := by
    refine ⟨?_, fun e => ?_⟩
    · rw [same]; exact own.1
    · rw [unstarted] at e; cases e
  ranges _ e := by rw [unstarted] at e; cases e
  order _ _ _ order := by rw [same]; exact order
  flags _ := by rw [same]; exact flagsWithin_refl _
  latches _ := latchesRise_same (by rw [same])
  causes _ := by rw [same]; exact causesWithin_refl _
  fan _ := fanMoves_caused (by rw [same]; exact caused_refl _)

theorem takes_imageReadFailed (now : Time) : Takes (.imageReadFailed now) :=
  takes_of (fun _ => rfl) fun s => taken_if fun h => by
    have load : s.start.phase = .load := reading_phase (s := s.takeAt now) h
    unfold State.failRead
    split
    · exact (changes_beside (s := s) rfl).beside rfl
    · exact taken_load load rfl rfl rfl fun fits => file_length _ _ _ (file_length _ _ _ fits)

theorem takes_imageReadRetry (now : Time) : Takes (.imageReadRetry now) :=
  takes_of (fun _ => rfl) fun s => taken_if fun _ => (changes_beside (s := s) rfl).beside rfl

/-- R153, R154: a usable image put to use, before the consequences. -/
def State.listening (s : State) (image : List Byte) : State :=
  { s with
    start :=
      { s.start with
        phase := .listen
        readBegan := none
        retry := none
        phaseTimer := some (after s.clock Config.listen)
        listenStart := some (.of s.clock)
        image := some image }
    setup := imageSetup image
    supply := { s.supply with next := some s.clock }
    inputs := s.inputs.beginKeys s.clock
    record := (s.fileStart (image.getD 1 0)).record.fileAll s.clock (clampFilings image)
    flags := if (clampFilings image).isEmpty then s.flags else s.flags ||| Attention.configClamped.mask }

theorem enterListen_eq (s : State) (image : List Byte) : s.enterListen image = (s.listening image).settle := rfl

theorem clamp_ge (low high n : Nat) : low ≤ clamp low high n := Nat.le_max_left ..

theorem clamp_le {low high : Nat} (n : Nat) (h : low ≤ high) : clamp low high n ≤ high :=
  Nat.max_le.mpr ⟨h, Nat.min_le_left ..⟩

theorem imageOutput_valve {image : List Byte} {o : Output} {e : Branch} {pe reach : Nat}
    (h : imageOutput image o = .valve e pe reach) : reach = (reachItem image o).used := by
  unfold imageOutput at h
  split at h
  case h_1 =>
    injection h with _ _ reads
    exact reads.symm
  all_goals cases h

/-- R153: what a usable image makes of the release parameters stands in their ranges. -/
theorem imageSetup_releaseRanges (image : List Byte) : (imageSetup image).releaseRanges where
  spread := clamp_le _ (by decide)
  lead := clamp_le _ (by decide)
  hold := clamp_le _ (by decide)
  floor := ⟨clamp_ge .., clamp_le _ (by decide)⟩
  floodHold := ⟨clamp_ge .., clamp_le _ (by decide)⟩
  gap := ⟨clamp_ge .., clamp_le _ (by decide)⟩
  reach o e pe reach h := by
    rw [imageOutput_valve ((tabulate_at (imageOutput image) o).symm.trans h)]
    exact ⟨clamp_ge .., clamp_le _ (by decide)⟩

/-- R152: a station before LISTEN holds no entry and no window. -/
theorem inert_empty (h : s.inert) (unstarted : s.started = false) :
    (∀ k : Station, s.peers[k] = .powerOn) ∧ ∀ o : Output, s.valves[o].schedule = [] := by
  obtain ⟨same, -⟩ := h unstarted
  refine ⟨fun k => ?_, fun o => ?_⟩
  · rw [same]
    exact reset_peer k
  · rw [same]
    exact congrArg Valve.schedule (reset_valve o)

theorem inSchedule_nil (g : Nat) : inSchedule g [] := ⟨fun _ m => absurd m List.not_mem_nil, List.Pairwise.nil⟩

theorem taken_enterListen (now : Time) (image : List Byte) (load : s.start.phase = .load) :
    Taken c s ((s.takeAt now).enterListen image) := by
  rw [enterListen_eq]
  have follows := settle_follows ((s.takeAt now).listening image)
  have schedules (o : Output) : (((s.takeAt now).listening image).settle.valves[o]).schedule = s.valves[o].schedule :=
    cutFrom_schedule (follows.valves o)
  exact {
    started e := by rw [started_of_load load] at e; cases e
    quiet q := by
      refine ⟨fun e => ?_, fun e => ?_⟩
      · rw [show ((s.takeAt now).listening image).settle.lineA.place = s.lineA.place from follows.place .a] at e
        have := q.1 e; rw [permitted_of_load load] at this; cases this
      · rw [show ((s.takeAt now).listening image).settle.lineB.place = s.lineB.place from follows.place .b] at e
        have := q.2 e; rw [permitted_of_load load] at this; cases this
    fault e := by rw [load] at e; cases e
    waits w _ := by
      have waiting := w (operating_of_load load)
      exact follows.waits rfl ⟨waiting.fan, waiting.valve, waiting.barrier, waiting.queue, waiting.siren⟩
    report _ e := by rw [follows.permitted] at e; cases e
    record fits := follows.recordFits (fileAll_length _ _ _ (file_length _ _ _ fits))
    schedules fits o := by rw [schedules]; exact fits o
    errors fits := ⟨by
      rw [show ((s.takeAt now).listening image).settle.lineA.consecutive = s.lineA.consecutive from follows.consecutive .a]
      exact fits.1, by
      rw [show ((s.takeAt now).listening image).settle.lineB.consecutive = s.lineB.consecutive from follows.consecutive .b]
      exact fits.2⟩
    entries inert _ := by
      have empty := (inert_empty inert (started_of_load load)).1
      refine ⟨?_, fun _ => ?_⟩
      · rw [follows.peers]; exact empty 0
      · simp only [follows.peers]; exact empty _
    ranges _ _ := by rw [follows.setup]; exact imageSetup_releaseRanges image
    order inert _ _ _ o := by
      rw [schedules, (inert_empty inert (started_of_load load)).2 o]
      exact inSchedule_nil _
    flags _ := by
      refine flagsWithin_trans ?_ follows.flags
      show flagsWithin s.flags (if (clampFilings image).isEmpty then s.flags else _)
      split
      · exact flagsWithin_refl _
      · exact flagsWithin_or ..
    latches _ := latchesRise_from (u := (s.takeAt now).listening image) rfl (settleWith_latchesRise _ [])
    causes _ := follows.causes
    fan _ := fanMoves_caused follows.fan }

theorem takes_imageReadComplete (now : Time) (image : List Byte) : Takes (.imageReadComplete now image) :=
  takes_of (fun _ => rfl) fun s => taken_if fun h => by
    have load : s.start.phase = .load :=
      reading_phase (s := s.takeAt now) (Bool.and_eq_true_iff.mp (Bool.and_eq_true_iff.mp h).1).1
    unfold State.completeRead
    split
    · exact taken_enterListen now image load
    · exact taken_load load rfl rfl rfl fun fits => file_length _ _ _ (file_length _ _ _ fits)

end

/-! ## LISTEN and SETTLE end (R154) -/

section
variable {c : Instr} {s t u : State}

/-- The start phase moved on from LISTEN or SETTLE, and then a command's effects. -/
theorem Taken.later (h : Taken c u t)
    (same : u = { s with clock := u.clock, start := u.start, inputs := u.inputs, sensing := u.sensing })
    (from_ : s.started = true) (permitted : u.permitted = true) (waiting : s.operating = false) (report : t.reportStands)
    (command : (∃ now, c = .listenEnd now) ∨ ∃ now, c = .settleEnd now)
    (fan : s.extraction.phase.caused t.extraction.phase = true) : Taken c s t := by
  have begun : u.started = true := by
    unfold State.permitted at permitted
    unfold State.started
    revert permitted
    cases u.start.phase <;> simp
  have noReset : ¬u.takesReset c := by
    rintro ⟨-, ⟨now, e⟩ | ⟨now, l, rx, k, count, e, -⟩⟩ <;>
      obtain ⟨at_, f⟩ | ⟨at_, f⟩ := command <;> rw [f] at e <;> cases e
  have noStart : ¬u.acceptsStart c := by
    rintro ⟨⟨now, e⟩, -⟩
    obtain ⟨at_, f⟩ | ⟨at_, f⟩ := command <;> rw [f] at e <;> cases e
  exact {
    started _ := h.started begun
    quiet _ := h.quiet ⟨fun _ => permitted, fun _ => permitted⟩
    fault e := by simp only [State.started, e] at from_; cases from_
    waits w := h.waits fun _ => by
      have waits := w waiting
      rw [same]
      exact ⟨waits.fan, waits.valve, waits.barrier, waits.queue, waits.siren⟩
    report _ := report
    record fits := h.record (by rw [same]; exact fits)
    schedules fits := h.schedules (by rw [same]; exact fits)
    errors fits := h.errors (by rw [same]; exact fits)
    entries _ own := h.entries (fun e => by rw [begun] at e; cases e)
      (noOwnEntry_same (by rw [same]) (by rw [same]) (by rw [begun, from_]) own)
    ranges r := h.ranges fun _ => by rw [same]; exact r from_
    order _ r near order := h.order (fun e => by rw [begun] at e; cases e) (fun _ => by rw [same]; exact r from_)
      (fun now e => by
        refine ⟨by rw [same]; exact (near now e).1, fun _ _ f => ?_, fun _ _ _ f => ?_⟩
        all_goals obtain ⟨at_, g⟩ | ⟨at_, g⟩ := command <;> rw [g] at f <;> cases f)
      (by rw [same]; exact order)
    flags _ := by have := h.flags noReset; rw [same] at this; exact this
    latches _ := latchesRise_from (by rw [same]) (h.latches noReset)
    causes _ := by have := h.causes noStart; rw [same] at this; exact this
    fan _ := fanMoves_caused fan }

theorem phaseDue_phase {p : StartPhase} (h : s.phaseDue p = true) : s.start.phase = p :=
  beq_iff_eq.mp (Bool.and_eq_true_iff.mp h).1

theorem takes_listenEnd (now : Time) : Takes (.listenEnd now) :=
  takes_of (fun _ => rfl) fun s => taken_if fun h => by
    have phase : s.start.phase = .listen := phaseDue_phase (s := s.takeAt now) h
    have settles : Changes (s.takeAt now).settling (s.takeAt now).enterSettle :=
      ((judgeSampler_consumes _).changes.trans (changes_judgeServed _)).trans (fill_consumes _).changes
    have report : (s.takeAt now).enterSettle.reportStands := fun _ => rfl
    exact (settles.taken fun _ => report).later rfl (by simp only [State.started, phase]) rfl
      (by simp only [State.operating, phase]; rfl) report (.inl ⟨now, rfl⟩) settles.fan

theorem beginValve_schedule (s : State) (o : Output) : (s.beginValve o).schedule = s.valves[o].schedule := by
  have stuck (confirm : Nat) (i : Option Instant) (v : Valve) : (v.beginStuck s.clock confirm i).schedule = v.schedule := by
    unfold Valve.beginStuck
    split
    · rfl
    · split <;> rfl
  unfold State.beginValve
  simp only [(openIfDue_works _ _ _ _).1]
  split
  · exact stuck _ _ _
  · rfl

theorem changes_beginValves (operating : s.operating = true) : Changes s s.beginValves := by
  refine (changes_valves s (tabulate fun o => if (s.role o).isValve then s.beginValve o else s.valves[o]) (fun o => ?_)
    fun e => ?_).trans (changes_marks _ (fileAll_length _ _ _) ?_)
  · simp only [Fin.getElem_fin, tabulate_at]
    split
    · exact (beginValve_schedule s o) ▸ List.Sublist.refl _
    · exact List.Sublist.refl _
  · rw [operating] at e; cases e
  · split
    · exact flagsWithin_or ..
    · exact flagsWithin_refl _

theorem changes_beginMismatches (s : State) : Changes s s.beginMismatches := by
  refine (changes_fan s s.beginMismatches.extraction ?_ ?_).trans (changes_marks _ id ?_)
  · unfold State.beginMismatches
    simp only
    split <;> rfl
  · unfold State.beginMismatches
    simp only
    split <;> rfl
  · split
    · exact flagsWithin_or ..
    · exact flagsWithin_refl _

theorem changes_formFireSeen (s : State) : Changes s s.formFireSeen :=
  changes_sirens s _ fun _ off o => by
    simp only [State.mapSirens, Fin.getElem_fin, tabulate_at]
    split
    · exact off o
    · exact off o

theorem takes_settleEnd (now : Time) : Takes (.settleEnd now) :=
  takes_of (fun _ => rfl) fun s => taken_if fun h => by
    have phase : s.start.phase = .settle := phaseDue_phase (s := s.takeAt now) h
    have begins : Changes
        ({ s.takeAt now with start := { s.start with phase := .operating, phaseTimer := none } } : State).beginTests
        (({ s.takeAt now with start := { s.start with phase := .operating, phaseTimer := none }
          } : State).beginTests.beginValves.beginMismatches.armBarriers).formFireSeen :=
      (((changes_beginValves rfl).trans (changes_beginMismatches _)).trans (changes_barriers_operating _ _ rfl)).trans
        (changes_formFireSeen _)
    exact begins.settles.later rfl (by simp only [State.started, phase]) rfl (by simp only [State.operating, phase]; rfl)
      (settleWith_report _ []) (.inr ⟨now, rfl⟩) (caused_trans begins.fan (settle_follows _).fan)

end

/-! ## Ageing (R149) -/

section

/-- R149: the difference of two readings, counted from a third. -/
theorem toInt_between (now x y : Time) (low : -2147483648 ≤ (x - now).toInt - (y - now).toInt)
    (high : (x - now).toInt - (y - now).toInt < 2147483648) : (x - y).toInt = (x - now).toInt - (y - now).toInt := by
  have split : x - y = (x - now) - (y - now) := by bv_omega
  rw [split, BitVec.toInt_sub (x := x - now)]
  exact Int.bmod_eq_of_le_mul_two (by omega) (by omega)

variable (s : State) (f : Instant → Instant)

/-- A barrier's share of State.mapInstants. -/
def Barrier.mapInstants (b : Barrier) : Barrier := { b with released := b.released.map f }

theorem getElem_map_fin {α β : Type} {n : Nat} (v : Vector α n) (g : α → β) (i : Fin n) : (v.map g)[i] = g v[i] := by
  simp

/-- R17: no kept instant is reported. -/
theorem mapInstants_reported : (s.mapInstants f).reported = s.reported := by
  have sensors : (s.mapInstants f).anySensorFault = s.anySensorFault := by
    refine congrArg (fun g => (indexes 4).any g) (funext fun k => congrArg (s.channelActive k && ·) ?_)
    exact (congrArg SparkChannel.fault (getElem_map_fin s.sensing.channels (SparkChannel.mapInstants f) k)).trans rfl
  have valves : (s.mapInstants f).valveTrouble = s.valveTrouble := by
    refine congrArg (fun g => (indexes 4).any g) (funext fun o => congrArg ((s.role o).isValve && ·) ?_)
    exact (congrArg Valve.trouble (getElem_map_fin s.valves (Valve.mapInstants f) o)).trans rfl
  have barriers (b : BarrierState) : (s.mapInstants f).barriersIn b = s.barriersIn b := by
    refine congrArg (fun g => ((indexes 4).filter g).length) (funext fun o => congrArg ((s.role o).isBarrier && ·) ?_)
    exact (congrArg (fun x : Barrier => x.state == b) (getElem_map_fin s.barriers.units (Barrier.mapInstants f) o)).trans rfl
  have pattern : (s.mapInstants f).reportedPattern = s.reportedPattern :=
    congrArg (fun g => (indexes 4).foldl g Pattern.none) (funext fun p => funext fun o => congrArg
      (fun q : Pattern => if (s.role o).isSiren then p.higher q else p)
      ((congrArg Siren.pattern (getElem_map_fin s.sirens.units (Siren.mapInstants f) o)).trans rfl))
  show { s.reported with
    sensorFault := (s.mapInstants f).anySensorFault
    valveTrouble := (s.mapInstants f).valveTrouble
    closed := (s.mapInstants f).barriersIn .closed
    jammed := (s.mapInstants f).barriersIn .jammed
    pattern := (s.mapInstants f).reportedPattern } = s.reported
  rw [sensors, valves, barriers, barriers, pattern]
  rfl

theorem mapInstants_schedule (o : Output) :
    ((s.mapInstants f).valves[o]).schedule = (s.valves[o].schedule).map (Window.mapInstants f) :=
  congrArg Valve.schedule (getElem_map_fin s.valves (Valve.mapInstants f) o)

theorem mapInstants_peer (k : Station) : (s.mapInstants f).peers[k] = (s.peers[k]).mapInstants f :=
  getElem_map_fin s.peers (Peer.mapInstants f) k

theorem mapInstants_outputsWait (h : s.outputsWait) : (s.mapInstants f).outputsWait where
  fan := h.fan
  valve o := by
    rw [show (s.mapInstants f).valves[o] = (s.valves[o]).mapInstants f from getElem_map_fin s.valves (Valve.mapInstants f) o]
    exact h.valve o
  barrier o := (congrArg Barrier.state (getElem_map_fin s.barriers.units (Barrier.mapInstants f) o)).trans (h.barrier o)
  queue := h.queue
  siren o := by
    rw [show (s.mapInstants f).sirens.units[o] = (s.sirens.units[o]).mapInstants f from
      getElem_map_fin s.sirens.units (Siren.mapInstants f) o]
    exact h.siren o

/-- R149: an instant that is near does not age. -/
theorem age_near {now : Time} {i : Instant} (h : i.near now) (rank : Nat) : i.age now rank = i := by
  refine if_neg fun ages => ?_
  have far : (Config.agedAfter : Int) ≤ (now - i.reading).toInt := of_decide_eq_true (Bool.and_eq_true_iff.mp ages).2
  have near := h.2
  rw [show Config.agedAfter = 2 ^ 30 from rfl] at far
  have back := toInt_between now now i.reading
  rw [BitVec.sub_self] at back
  simp only [BitVec.toInt_zero] at back
  omega

end

section
variable {c : Instr} {s : State}

theorem taken_ageInstants (now : Time) : Taken (.instantAged now) s (s.takeAt now).ageInstants := by
  have schedule (o : Output) : ((s.takeAt now).ageInstants.valves[o]).schedule =
      (s.valves[o].schedule).map (Window.mapInstants (Instant.age now s.agings)) :=
    mapInstants_schedule (s.takeAt now) _ o
  have peer (k : Station) (h : s.peers[k] = .powerOn) : (s.takeAt now).ageInstants.peers[k] = .powerOn := by
    refine (mapInstants_peer (s.takeAt now) (Instant.age now s.agings) k).trans ?_
    rw [State.takeAt_peers, h]
    rfl
  exact {
    started e := e
    quiet q := ⟨fun e => q.1 (Option.isSome_map.symm.trans e), fun e => q.2 (Option.isSome_map.symm.trans e)⟩
    fault e := e
    waits w e := by
      have waiting := w e
      have mapped := mapInstants_outputsWait (s.takeAt now) (Instant.age now s.agings)
        ⟨waiting.fan, waiting.valve, waiting.barrier, waiting.queue, waiting.siren⟩
      exact ⟨mapped.fan, mapped.valve, mapped.barrier, mapped.queue, mapped.siren⟩
    report := reportStands_same rfl (mapInstants_reported (s.takeAt now) _) rfl
    record fits := fits
    schedules fits o := by rw [schedule, List.length_map]; exact fits o
    errors fits := fits
    entries _ own := ⟨peer 0 own.1, fun e => peer _ (own.2 e)⟩
    ranges r := r
    order _ _ near order o := by
      rw [schedule, List.map_congr_left (g := id) fun w m => ?_, List.map_id]
      · exact order o
      · obtain ⟨opens, closes⟩ := (near now rfl).1 o w m
        simp only [Window.mapInstants, age_near opens, age_near closes, id]
    flags _ := flagsWithin_refl _
    latches _ := latchesRise_same rfl
    causes _ := causesWithin_refl _
    fan _ := fanMoves_caused (caused_refl _) }

theorem takes_instantAged (now : Time) : Takes (.instantAged now) :=
  takes_of (fun _ => rfl) fun _ => taken_if fun _ => taken_ageInstants now

end

end Sys2Proof.Machine
end

section
/-! SUPPORT. The insertion of a window into a release schedule (R85, R86): how many windows it leaves, and, while all of them lie
near the clock, that they stay in order and apart. -/

namespace Sys2Proof.Machine

/-! ## How many windows (R83, R86) -/

theorem length_place (W : Window) (ws : List Window) : (place W ws).length = ws.length + 1 := by
  induction ws with
  | nil => rfl
  | cons w ws ih =>
    unfold place
    split
    · rfl
    · exact congrArg Nat.succ ih

theorem mem_place {W x : Window} {ws : List Window} : x ∈ place W ws ↔ x = W ∨ x ∈ ws := by
  induction ws with
  | nil => exact List.mem_cons
  | cons w ws ih =>
    unfold place
    split
    · exact List.mem_cons
    · rw [List.mem_cons, ih, List.mem_cons]
      exact or_left_comm

/-- R85: a merge takes at least one window out of the list, and without one nothing changes. -/
theorem mergeAll_rest (g fuel : Nat) (W : Window) (ws : List Window) :
    ((mergeAll g fuel W ws).2.1).Sublist ws ∧
    ((mergeAll g fuel W ws).2.2 = true → (mergeAll g fuel W ws).2.1.length < ws.length) ∧
    ((mergeAll g fuel W ws).2.2 = false → (mergeAll g fuel W ws).1 = W ∧ (mergeAll g fuel W ws).2.1 = ws) := by
  induction fuel generalizing W ws with
  | zero => exact ⟨List.Sublist.refl _, (fun e => by cases e), fun _ => ⟨rfl, rfl⟩⟩
  | succ fuel ih =>
    unfold mergeAll
    split
    · exact ⟨List.Sublist.refl _, (fun e => by cases e), fun _ => ⟨rfl, rfl⟩⟩
    · rename_i w found
      have sub := (ih (W.merge w) (ws.eraseP (W.within g))).1
      have shorter := List.length_eraseP_of_mem (List.mem_of_find?_eq_some found) (List.find?_some found)
      have some_ := List.length_pos_of_mem (List.mem_of_find?_eq_some found)
      refine ⟨sub.trans List.eraseP_sublist, fun _ => ?_, (fun e => by cases e)⟩
      have := sub.length_le
      simp only
      omega

/-- R86: the nearest window is one of the list. -/
theorem nearest_mem {W w : Window} {ws : List Window} (h : nearest W ws = some w) : w ∈ ws := by
  have step (ws : List Window) (best : Option Window) (h : ws.foldl (fun best w => match best with
      | none => some w
      | some b => if openDistance W w < openDistance W b then some w else some b) best = some w) :
      w ∈ ws ∨ best = some w := by
    induction ws generalizing best with
    | nil => exact .inr h
    | cons x xs ih =>
      rcases ih _ h with m | e
      · exact .inl (List.mem_cons_of_mem _ m)
      · cases best with
        | none =>
          cases e
          exact .inl (List.mem_cons_self ..)
        | some b =>
          simp only at e
          split at e
          · cases e
            exact .inl (List.mem_cons_self ..)
          · exact .inr e
  exact (step ws none h).resolve_right fun e => by cases e

theorem nearest_none {W : Window} {ws : List Window} (h : nearest W ws = none) : ws = [] := by
  have step (ws : List Window) (b : Window) : ws.foldl (fun best w => match best with
      | none => some w
      | some b => if openDistance W w < openDistance W b then some w else some b) (some b) ≠ none := by
    induction ws generalizing b with
    | nil => exact fun e => by cases e
    | cons x xs ih =>
      rw [List.foldl_cons]
      simp only
      split
      · exact ih x
      · exact ih b
  cases ws with
  | nil => rfl
  | cons w ws => exact absurd h (step ws w)

/-- R83, R86: a schedule keeps its limit. -/
theorem length_insertWindow (g : Nat) (W : Window) (ws : List Window) (fits : ws.length ≤ Config.windows) :
    (insertWindow g W ws).schedule.length ≤ Config.windows := by
  unfold insertWindow
  simp only
  split
  · rename_i merged
    rw [length_place]
    exact Nat.le_trans ((mergeAll_rest g ws.length W ws).2.1 merged) fits
  · split
    · rename_i room
      rw [length_place]
      exact room
    · rename_i full
      split
      · rename_i none_
        rw [nearest_none none_]
        exact (by decide : 1 ≤ Config.windows)
      · rename_i w found
        have sub := (mergeAll_rest g ws.length (W.merge w) (ws.erase w)).1.length_le
        have shorter := List.length_erase_of_mem (nearest_mem found)
        have some_ := List.length_pos_of_mem (nearest_mem found)
        simp only [length_place]
        omega

/-! ## Order (R83, R85)

Near the clock an instant is an integer: its reading counted from the clock. -/

section
variable {now : Time} {x y : Instant} {W v w : Window} {ws : List Window} {g : Nat}

/-- R149: the reading a time after another. -/
theorem toInt_after {t : Time} (hg : g < 1073741824) (low : -1073741824 ≤ (t - now).toInt)
    (high : (t - now).toInt < 1073741824) : (after t g - now).toInt = (t - now).toInt + g := by
  have gap : (BitVec.ofNat 32 g).toInt = g :=
    (BitVec.toInt_ofNat' g).trans (Int.bmod_eq_of_le_mul_two (by omega) (by omega))
  have split : after t g - now = (t - now) + BitVec.ofNat 32 g := by
    unfold after
    bv_omega
  rw [split, BitVec.toInt_add, gap]
  exact Int.bmod_eq_of_le_mul_two (by omega) (by omega)

/-- R149: the reading a time before another. -/
theorem toInt_back {t : Time} (hg : g < 1073741824) (low : -1073741824 ≤ (t - now).toInt)
    (high : (t - now).toInt < 1073741824) : (t - BitVec.ofNat 32 g - now).toInt = (t - now).toInt - g := by
  have gap : (BitVec.ofNat 32 g).toInt = g :=
    (BitVec.toInt_ofNat' g).trans (Int.bmod_eq_of_le_mul_two (by omega) (by omega))
  have split : t - BitVec.ofNat 32 g - now = (t - now) - BitVec.ofNat 32 g := by bv_omega
  rw [split, BitVec.toInt_sub (x := t - now), gap]
  exact Int.bmod_eq_of_le_mul_two (by omega) (by omega)

/-- The reading of an instant, counted from the clock. -/
def Instant.from_ (now : Time) (x : Instant) : Int := (x.reading - now).toInt

/-- A window that lies near the clock and closes after its open. -/
structure Window.sound (now : Time) (w : Window) : Prop where
  opens : w.opens.near now
  closes : w.closes.near now
  proper : w.opens.from_ now < w.closes.from_ now

theorem near_from (h : x.near now) : -536870912 < x.from_ now ∧ x.from_ now < 536870912 := by
  have := h.2
  unfold Instant.from_
  omega

theorem later_iff (hx : x.near now) (hy : y.near now) : x.later y = true ↔ y.from_ now < x.from_ now := by
  have bx := near_from hx
  have by_ := near_from hy
  unfold Instant.from_ at *
  simp only [Instant.later, hx.1, hy.1, later, decide_eq_true_eq]
  rw [toInt_between now x.reading y.reading (by omega) (by omega)]
  omega

theorem later_after_iff (hx : x.near now) (hy : y.near now) (hg : g ≤ 1000) :
    x.later (y.after g) = true ↔ y.from_ now + g < x.from_ now := by
  have bx := near_from hx
  have by_ := near_from hy
  unfold Instant.from_ at *
  have moved := toInt_after (now := now) (t := y.reading) (by omega : g < 1073741824) (by omega) (by omega)
  simp only [Instant.later, Instant.after, hx.1, hy.1, later, decide_eq_true_eq]
  rw [toInt_between now x.reading (after y.reading g) (by omega) (by omega), moved]
  omega

/-- R83, R85: v closes more than g before w opens. -/
def Window.before (now : Time) (g : Nat) (v w : Window) : Prop := v.closes.from_ now + g < w.opens.from_ now

theorem sound_iff (opens : w.opens.near now) (closes : w.closes.near now) :
    w.closes.later w.opens = true ↔ w.sound now :=
  (later_iff closes opens).trans ⟨fun h => ⟨opens, closes, h⟩, Window.sound.proper⟩

/-- R85, step 1. -/
theorem within_false (hg : g ≤ 1000) (hW : W.sound now) (hw : w.sound now) (h : W.within g w = false) :
    w.before now g W ∨ W.before now g w := by
  simp only [Window.within, Bool.and_eq_false_iff, Bool.not_eq_false'] at h
  rw [later_after_iff hW.opens hw.closes hg, later_after_iff hw.opens hW.closes hg] at h
  exact h

theorem before_irrefl_open (h : v.before now g w) (hv : v.sound now) : v.opens.from_ now < w.opens.from_ now := by
  have := hv.proper
  unfold Window.before at h
  omega

/-- R83, R85: a schedule that lies near the clock, as integers. -/
theorem inSchedule_iff (hg : g ≤ 1000) (near : ∀ w ∈ ws, w.opens.near now ∧ w.closes.near now) :
    inSchedule g ws ↔ (∀ w ∈ ws, w.sound now) ∧ ws.Pairwise (Window.before now g) := by
  have sound (w : Window) (m : w ∈ ws) : w.closes.later w.opens = true ↔ w.sound now :=
    sound_iff (near w m).1 (near w m).2
  refine ⟨fun h => ?_, fun h => ?_⟩
  · refine ⟨fun w m => (sound w m).mp (h.1 w m), h.2.imp_of_mem fun mv mw e => ?_⟩
    exact (later_after_iff (near _ mw).1 (near _ mv).2 hg).mp e.2
  · refine ⟨fun w m => (sound w m).mpr (h.1 w m), h.2.imp_of_mem fun mv mw e => ⟨?_, ?_⟩⟩
    · exact (later_iff (near _ mw).1 (near _ mv).1).mpr (before_irrefl_open e (h.1 _ mv))
    · exact (later_after_iff (near _ mw).1 (near _ mv).2 hg).mpr e

/-- R85, step 2: the window merged of two. -/
theorem merge_sound (hW : W.sound now) (hw : w.sound now) : (W.merge w).sound now := by
  have opens := later_iff hW.opens hw.opens
  have closes := later_iff hw.closes hW.closes
  have pW := hW.proper
  have pw := hw.proper
  have o : (W.merge w).opens = if W.opens.later w.opens then w.opens else W.opens := rfl
  have c : (W.merge w).closes = if w.closes.later W.closes then w.closes else W.closes := rfl
  refine ⟨?_, ?_, ?_⟩
  · rw [o]
    split
    · exact hw.opens
    · exact hW.opens
  · rw [c]
    split
    · exact hw.closes
    · exact hW.closes
  · rw [o, c]
    split <;> split <;> rename_i e f <;> simp only [opens, closes] at e f <;> omega

/-- R85: what merging leaves lies apart from the merged window. -/
theorem mergeAll_apart (fuel : Nat) (W : Window) (ws : List Window) (enough : ws.length ≤ fuel) (hW : W.sound now)
    (hws : ∀ w ∈ ws, w.sound now) : ((mergeAll g fuel W ws).1).sound now ∧
      ∀ w ∈ (mergeAll g fuel W ws).2.1, (mergeAll g fuel W ws).1.within g w = false := by
  induction fuel generalizing W ws with
  | zero =>
    cases List.length_eq_zero_iff.mp (Nat.le_zero.mp enough)
    exact ⟨hW, fun w m => absurd m List.not_mem_nil⟩
  | succ fuel ih =>
    unfold mergeAll
    split
    · rename_i alone
      exact ⟨hW, fun w m => by simpa using List.find?_eq_none.mp alone w m⟩
    · rename_i w found
      have m := List.mem_of_find?_eq_some found
      have shorter := List.length_eraseP_of_mem m (List.find?_some found)
      exact ih (W.merge w) _ (by omega) (merge_sound hW (hws w m)) fun v mv => hws v (List.mem_of_mem_eraseP mv)

/-- R83: a window apart from every one of a schedule in order has its place there. -/
theorem place_order (hg : g ≤ 1000) (hW : W.sound now) (hws : ∀ w ∈ ws, w.sound now)
    (apart : ∀ w ∈ ws, W.within g w = false) (order : ws.Pairwise (Window.before now g)) :
    (place W ws).Pairwise (Window.before now g) := by
  induction ws with
  | nil => exact List.pairwise_singleton ..
  | cons w ws ih =>
    have hw := hws w (List.mem_cons_self ..)
    obtain ⟨first, rest⟩ := List.pairwise_cons.mp order
    have side := within_false hg hW hw (apart w (List.mem_cons_self ..))
    unfold place
    split
    · rename_i later_
      rw [later_iff hw.opens hW.opens] at later_
      have ahead : W.before now g w := side.resolve_left fun e => by
        have := before_irrefl_open e hw
        omega
      refine List.pairwise_cons.mpr ⟨fun v mv => ?_, order⟩
      rcases List.mem_cons.mp mv with rfl | mv
      · exact ahead
      · have between := first v mv
        have := hw.proper
        unfold Window.before at *
        omega
    · rename_i notLater
      rw [later_iff hw.opens hW.opens] at notLater
      have behind : w.before now g W := side.resolve_right fun e => notLater (before_irrefl_open e hW)
      refine List.pairwise_cons.mpr ⟨fun v mv => ?_, ih (fun v mv => hws v (List.mem_cons_of_mem _ mv))
        (fun v mv => apart v (List.mem_cons_of_mem _ mv)) rest⟩
      rcases mem_place.mp mv with rfl | mv
      · exact behind
      · exact first v mv

/-- R85: merging from a schedule in order, and the place of what it gives. -/
theorem placed_inSchedule (fuel : Nat) (hg : g ≤ 1000) (enough : ws.length ≤ fuel) (hW : W.sound now)
    (near : ∀ w ∈ ws, w.opens.near now ∧ w.closes.near now) (order : inSchedule g ws) :
    inSchedule g (place (mergeAll g fuel W ws).1 (mergeAll g fuel W ws).2.1) := by
  obtain ⟨sound, before⟩ := (inSchedule_iff hg near).mp order
  obtain ⟨merged, apart⟩ := mergeAll_apart (g := g) fuel W ws enough hW sound
  have sub := (mergeAll_rest g fuel W ws).1
  have rest (v : Window) (m : v ∈ (mergeAll g fuel W ws).2.1) : v.sound now := sound v (sub.subset m)
  have all (v : Window) (m : v ∈ place (mergeAll g fuel W ws).1 (mergeAll g fuel W ws).2.1) : v.sound now := by
    rcases mem_place.mp m with rfl | m
    · exact merged
    · exact rest v m
  exact (inSchedule_iff hg fun v m => ⟨(all v m).opens, (all v m).closes⟩).mpr
    ⟨all, place_order hg merged rest apart (before.sublist sub)⟩

/-- R83, R85, R86: a schedule near the clock stays in order at an insertion. -/
theorem insertWindow_inSchedule (hg : g ≤ 1000) (hW : W.sound now)
    (near : ∀ w ∈ ws, w.opens.near now ∧ w.closes.near now) (order : inSchedule g ws) :
    inSchedule g (insertWindow g W ws).schedule := by
  have placed := placed_inSchedule ws.length hg (Nat.le_refl _) hW near order
  unfold insertWindow
  simp only
  split
  · exact placed
  · rename_i unmerged
    obtain ⟨same, rest⟩ := (mergeAll_rest g ws.length W ws).2.2 (Bool.eq_false_iff.mpr unmerged)
    rw [same, rest] at placed
    split
    · exact placed
    · split
      · exact placed
      · rename_i w found
        have m := nearest_mem found
        have sound := ((inSchedule_iff hg near).mp order).1 w m
        have sub : (ws.erase w).Sublist ws := List.erase_sublist
        exact placed_inSchedule ws.length hg sub.length_le (merge_sound hW sound) (fun v mv => near v (sub.subset mv))
          (inSchedule_sublist order sub)

end

end Sys2Proof.Machine
end

section
/-! SUPPORT. The windows that release timing computes (R70 to R77), the reports handed to it, and what the SPARK notices and the
sparks of the own channels come to. -/

namespace Sys2Proof.Machine

/-! ## Transit times (R74, R75) -/

section
variable {u : Setup} {gs : List Velocities} {now o c : Time}

/-- R74: a segment that is timed. -/
structure Velocities.timed (g : Velocities) : Prop where
  length : 0 < g.length
  floor : 20 ≤ g.low
  spread : g.low ≤ g.high

theorem early_le_late {g : Velocities} (h : g.timed) : g.early ≤ g.late :=
  Nat.div_le_div (Nat.le_add_right ..) h.spread (by have := h.floor; omega)

theorem late_le {g : Velocities} (h : g.timed) : g.late ≤ 51 * g.length := by
  have length := h.length
  have floor : 20 * (51 * g.length) ≤ g.low * (51 * g.length) := Nat.mul_le_mul_right _ h.floor
  have slow := h.floor
  have product : (51 * g.length + 1) * g.low = g.low * (51 * g.length) + g.low := by ring
  refine Nat.lt_succ_iff.mp ((Nat.div_lt_iff_lt_mul (by omega)).mpr ?_)
  rw [Nat.succ_eq_add_one]
  omega

theorem sums_le (h : ∀ g ∈ gs, g.timed) : earlySum gs ≤ lateSum gs ∧
    lateSum gs ≤ 51 * (gs.map Velocities.length).sum := by
  induction gs with
  | nil => exact ⟨Nat.zero_le _, Nat.zero_le _⟩
  | cons g gs ih =>
    obtain ⟨early, late⟩ := ih fun v m => h v (List.mem_cons_of_mem _ m)
    have timed := h g (List.mem_cons_self ..)
    have first := early_le_late timed
    have bound := late_le timed
    simp only [earlySum, lateSum, List.map_cons, List.sum_cons] at *
    omega

theorem timedSegments_length (fan : Nat) (path : List Segment) :
    ((u.timedSegments fan path).map Velocities.length).sum ≤ pathLength path := by
  induction path with
  | nil => exact Nat.le_refl _
  | cons g gs ih =>
    unfold Setup.timedSegments pathLength at *
    rw [List.filter_cons]
    split
    · simp only [List.map_cons, List.sum_cons]
      exact Nat.add_le_add_left ih _
    · simp only [List.map_cons, List.sum_cons]
      exact Nat.le_trans ih (Nat.le_add_left ..)

theorem timing_ok {view : Option ViewData} {path : List Segment} (floor : 20 ≤ u.timing.floor)
    (h : u.timing? view path = .ok gs) :
    (∀ g ∈ gs, g.timed) ∧ (gs.map Velocities.length).sum ≤ pathLength path := by
  cases view with
  | none => cases h
  | some v =>
    simp only [Setup.timing?] at h
    iterate 4 (split at h; · cases h)
    split at h
    · cases h
    · rename_i above
      cases h
      refine ⟨fun g m => ?_, timedSegments_length _ path⟩
      have low : u.timing.floor ≤ g.low := by
        have : ¬g.low < u.timing.floor := fun e => above (List.any_eq_true.mpr ⟨g, m, decide_eq_true e⟩)
        omega
      obtain ⟨x, mx, e⟩ := List.mem_map.mp m
      have long : 0 < x.length := of_decide_eq_true (List.mem_filter.mp mx).2
      subst e
      exact ⟨long, Nat.le_trans floor low, Nat.div_le_div_right (Nat.mul_le_mul_left _ (by omega))⟩

/-! ## The windows (R76, R77) -/

theorem of_near {t : Time} (low : -536870912 < (t - now).toInt) (high : (t - now).toInt < 536870912) :
    (Instant.of t).near now := by
  refine ⟨rfl, ?_⟩
  show (t - now).toInt.natAbs < 2 ^ 29
  omega

theorem sound_of {marks : Marks} (low : -536870912 < (o - now).toInt) (proper : (o - now).toInt < (c - now).toInt)
    (high : (c - now).toInt < 536870912) : (⟨.of o, .of c, marks⟩ : Window).sound now where
  opens := of_near low (by omega)
  closes := of_near (by omega) high
  proper := proper

theorem later_now_iff {t : Time} : later t now = true ↔ 0 < (t - now).toInt := decide_eq_true_iff

/-- R76: the window of a TIMED outcome. -/
theorem timedWindow_sound {w : Window} (low : -300000000 < (o - now).toInt) (ordered : (o - now).toInt ≤ (c - now).toInt)
    (high : (c - now).toInt < 300000000) (h : (timedWindow now o c).window = some w) : w.sound now := by
  have self : (now - now).toInt = 0 := by rw [BitVec.sub_self, BitVec.toInt_zero]
  unfold timedWindow at h
  split at h
  · cases h
  · rename_i closes
    have after_now : 0 < (c - now).toInt := later_now_iff.mp (by simpa using closes)
    simp only [Computed.window, Option.some.injEq] at h
    generalize opens : (if later now o = true then now else o) = x at h
    have hx : -300000000 < (x - now).toInt ∧ (x - now).toInt ≤ (c - now).toInt := by
      subst opens
      split
      · rw [self]
        omega
      · exact ⟨low, ordered⟩
    generalize clipped : (if Config.windowLimit < (c - x).toNat then after x Config.windowLimit else c) = y at h
    have limit : (after x Config.windowLimit - now).toInt = (x - now).toInt + Config.windowLimit :=
      toInt_after (by decide) (by omega) (by omega)
    have hy : (x - now).toInt ≤ (y - now).toInt ∧ (y - now).toInt < 300010000 := by
      subst clipped
      have ten : ((Config.windowLimit : Nat) : Int) = 10000 := rfl
      split <;> omega
    generalize closing : (if y = x then after x 1 else y) = z at h
    have one : (after x 1 - now).toInt = (x - now).toInt + 1 := toInt_after (by decide) (by omega) (by omega)
    have hz : (x - now).toInt < (z - now).toInt ∧ (z - now).toInt < 300020000 := by
      subst closing
      split
      · omega
      · rename_i apart
        have : (y - now).toInt ≠ (x - now).toInt := fun e => apart (by
          have := BitVec.eq_of_toInt_eq e
          bv_omega)
        omega
    subst h
    exact sound_of (by omega) hz.1 (by omega)

/-- R70: a report whose origin lies near the clock. -/
structure Report.timely (now : Time) (r : Report) : Prop where
  origin : (r.t0 - now).toInt.natAbs < 2 ^ 28 + 2048
  span : r.span ≤ 4095

/-- R69 to R78: the window that a report hands on. -/
theorem compute_sound {view : Option ViewData} {r : Report} {e : Branch} {pe reach : Nat} {w : Window}
    (ranges : u.releaseRanges) (near : reach ≤ 2000) (timely : r.timely now)
    (h : (u.compute now view r e pe reach).window = some w) : w.sound now := by
  have flood (reason : FloodReason) (h : (u.floodWindow now reason).window = some w) : w.sound now := by
    obtain ⟨least, most⟩ := ranges.floodHold
    have self : (now - now).toInt = 0 := by rw [BitVec.sub_self, BitVec.toInt_zero]
    have closes := toInt_after (now := now) (t := now) (g := u.timing.floodHold) (by omega) (by omega) (by omega)
    simp only [Setup.floodWindow, Computed.window, Option.some.injEq] at h
    subst h
    exact sound_of (by omega) (by omega) (by omega)
  unfold Setup.compute at h
  split at h
  · cases h
  · rename_i path _
    split at h
    · cases h
    · rename_i within_
      split at h
      · exact flood _ h
      · split at h
        · exact flood _ h
        · rename_i gs timing
          obtain ⟨timed, total⟩ := timing_ok ranges.floor.1 timing
          obtain ⟨ordered, bound⟩ := sums_le timed
          have lead := ranges.lead
          have hold := ranges.hold
          have origin := timely.origin
          have span := timely.span
          have opened := toInt_after (now := now) (t := r.t0) (g := earlySum gs) (by omega) (by omega) (by omega)
          have opens := toInt_back (now := now) (t := after r.t0 (earlySum gs)) (g := u.timing.lead) (by omega) (by omega)
            (by omega)
          have closes := toInt_after (now := now) (t := r.t0) (g := r.span + lateSum gs + u.timing.hold) (by omega)
            (by omega) (by omega)
          exact timedWindow_sound (by omega) (by omega) (by omega) h

end

/-! ## Reports handed to release timing (R69, R78) -/

section
variable {c : Instr} {s u : State}

/-- What a report makes of a valve: its schedule with the window that the report gives, and no state before OPERATING. -/
theorem valveAfter_schedule (s : State) (o : Output) (r : Report) (x : Computed) :
    ((s.valveAfter o r x).1.schedule = s.valves[o].schedule ∨ ∃ w, x.window = some w ∧
      (s.valveAfter o r x).1.schedule = (insertWindow s.setup.valves.gap w s.valves[o].schedule).schedule) ∧
    (s.operating = false → (s.valveAfter o r x).1.state = s.valves[o].state ∧
      (s.valveAfter o r x).1.confirmTimer = s.valves[o].confirmTimer) := by
  unfold State.valveAfter
  simp only
  split
  · exact ⟨.inl rfl, fun _ => ⟨rfl, rfl⟩⟩
  · rename_i w window
    refine ⟨.inr ⟨w, window, ?_⟩, fun waiting => ?_⟩
    · split
      · exact (openIfDue_works ..).1
      · rfl
    · rw [waiting]
      exact ⟨rfl, rfl⟩

theorem releasedValve_schedule (s : State) (r : Report) (o : Output) :
    ((s.releasedValve r o).schedule = s.valves[o].schedule ∨ ∃ (w : Window) (e : Branch) (pe reach : Nat),
      s.role o = .valve e pe reach ∧ (s.computedFor r e pe reach).window = some w ∧
      (s.releasedValve r o).schedule = (insertWindow s.setup.valves.gap w s.valves[o].schedule).schedule) ∧
    (s.operating = false → (s.releasedValve r o).state = s.valves[o].state ∧
      (s.releasedValve r o).confirmTimer = s.valves[o].confirmTimer) := by
  rcases Bool.eq_false_or_eq_true (s.role o).isValve with valve | other
  · cases role : s.role o with
    | valve e pe reach =>
      rw [releasedValve_of role]
      obtain ⟨schedule, state⟩ := valveAfter_schedule s o r (s.computedFor r e pe reach)
      exact ⟨schedule.imp id fun ⟨w, window, e'⟩ => ⟨w, e, pe, reach, rfl, window, e'⟩, state⟩
    | _ => rw [role] at valve; cases valve
  · rw [releasedValve_none other]
    exact ⟨.inl rfl, fun _ => ⟨rfl, rfl⟩⟩

theorem release_valve (s : State) (r : Report) (o : Output) :
    (s.release r).valves[o] = if s.permitted then s.releasedValve r o else s.valves[o] := by
  rw [release_valves]
  split
  · exact tabulate_at _ o
  · rfl

theorem guards_release (s : State) (r : Report) : Guards s (s.release r) := by
  have valve := release_valve s r
  rw [release_eq] at valve ⊢
  exact {
    phase := rfl
    setup := rfl
    place l e := .inl (by cases l <;> exact e)
    errors l e := by cases l <;> exact e
    record := fileAll_length _ _ _
    waits waiting w := ⟨w.fan, fun o => by
      rw [valve o]
      split
      · obtain ⟨state, timer⟩ := (releasedValve_schedule s r o).2 waiting
        rw [state, timer]
        exact w.valve o
      · exact w.valve o, w.barrier, w.queue, w.siren⟩
    entries := noOwnEntry_same rfl rfl rfl }

theorem release_schedulesFit (s : State) (r : Report) (h : s.schedulesFit) : (s.release r).schedulesFit := fun o => by
  rw [release_valve]
  split
  · rcases (releasedValve_schedule s r o).1 with e | ⟨w, b, pe, reach, -, -, e⟩ <;> rw [e]
    · exact h o
    · exact length_insertWindow _ _ _ (h o)
  · exact h o

/-- R83, R85: the schedules stay in order at a report. -/
theorem release_schedulesInOrder {r : Report} (ranges : s.permitted = true → s.setup.releaseRanges)
    (timely : r.timely s.clock) (near : s.schedulesNear s.clock) (h : s.schedulesInOrder) :
    (s.release r).schedulesInOrder := fun o => by
  have setup : (s.release r).setup = s.setup := (guards_release s r).setup
  rw [release_valve, setup]
  split
  · rename_i permitted
    have ranges := ranges permitted
    rcases (releasedValve_schedule s r o).1 with e | ⟨w, b, pe, reach, role, window, e⟩ <;> rw [e]
    · exact h o
    · exact insertWindow_inSchedule ranges.gap.2
        (compute_sound ranges (ranges.reach o b pe reach role).2 timely window) (near o) (h o)
  · exact h o

/-- A command that hands a report to release timing, after some effects of its own. -/
theorem taken_release (h : Changes s u) {r : Report} (now : Time) (command : c.clockOf = some now) (clock : u.clock = now)
    (timely : s.nearFor c → r.timely now) (event : List Cause) : Taken c s ((u.release r).settleWith event) := by
  have released := guards_release u r
  have schedule (o : Output) : ((u.release r).settleWith event).valves[o].schedule = (u.release r).valves[o].schedule :=
    settleWith_schedules _ event o
  have follows := settleWith_follows (u.release r) event
  have extraction : (u.release r).extraction = u.extraction := by rw [release_eq]
  have zones : (u.release r).zones = u.zones := by rw [release_eq]
  have flags : flagsWithin u.flags (u.release r).flags := by
    rw [release_flags]
    exact flagsWithin_or ..
  refine ((h.toGuards.trans released).trans follows.toKeeps.guards).taken (fun _ => settleWith_report _ event)
    (fun fits o => ?_) (fun ranges near order o => ?_) (fun _ => flagsWithin_trans (flagsWithin_trans h.flags flags) follows.flags)
    (fun _ => latchesRise_from (zones.trans h.zones) (settleWith_latchesRise _ event)) (fun _ => ?_) fun _ => ?_
  · rw [schedule]
    exact release_schedulesFit u r (schedulesFit_sublist h.schedules fits) o
  · rw [schedule, follows.setup]
    refine release_schedulesInOrder (s := u) (r := r) (fun permitted => ?_) ?_ (fun p w m => ?_)
      (schedulesInOrder_sublist h.schedules h.setup order) o
    · rw [h.setup]
      refine ranges ?_
      rw [h.permitted] at permitted
      unfold State.permitted at permitted
      unfold State.started
      revert permitted
      cases s.start.phase <;> simp
    · rw [clock]
      exact timely near
    · rw [clock]
      exact (near now command).1 p w ((h.schedules p).subset m)
  · refine causesWithin_trans ?_ follows.causes
    rw [extraction]
    exact h.causes
  · refine fanMoves_caused (caused_trans h.fan ?_)
    rw [← extraction]
    exact follows.fan

/-! ## SPARK_NOTICE (R69, R70) -/

theorem read_spark_bounds {os : List Byte} {p : SparkPayload} (h : SparkPayload.read? os = some p) :
    p.age ≤ 1023 ∧ p.span ≤ 4095 := by
  unfold SparkPayload.read? at h
  split at h
  · split at h
    · rename_i bounds
      cases h
      have age := (Bool.and_eq_true_iff.mp bounds).2
      exact ⟨of_decide_eq_true age, Nat.le_of_lt_succ (Nat.mod_lt _ (by decide))⟩
    · cases h
  · cases h

theorem receivedReport_timely {now start : Time} {l : Line} {k : Station} {p : SparkPayload}
    (near : (start - now).toInt.natAbs < 2 ^ 28) (age : p.age ≤ 1023) (span : p.span ≤ 4095) :
    (receivedReport l k start p).timely now := by
  refine ⟨?_, span⟩
  show (start - BitVec.ofNat 32 p.age - now).toInt.natAbs < 2 ^ 28 + 2048
  rw [toInt_back (by omega) (by omega) (by omega)]
  omega

theorem takes_sparkNotice (now : Time) (l : Line) (rx : Received) : Takes (.sparkNotice now l rx) :=
  takes_of (fun _ => rfl) fun s => taken_receive now l s classSpark SparkPayload.read? rx _
    fun k start p zero other _ _ began _ valid => by
      have heard := ((changes_takeAt s now).trans (changes_heardFrom l k start zero other)).trans (changes_afterHearing _)
      refine taken_release heard now rfl ?_ (fun near => ?_) _
      · rw [afterHearing_eq]
        rfl
      · obtain ⟨age, span⟩ := read_spark_bounds (verdict_valid_iff valid).2.2
        refine receivedReport_timely ?_ age span
        rw [← began, State.takeAt_line]
        exact (near now rfl).2.1 l rx rfl

/-! ## SENSOR_PULSE_END (R46 to R49, R63) -/

theorem changes_sparkAtChannel (s : State) (k : Channel) : Changes s (s.sparkAtChannel k) := by
  unfold State.sparkAtChannel
  simp only
  split
  · exact changes_marked rfl (file_length _ _ _) (flagsWithin_refl _)
  · exact changes_withChannel ..

theorem changes_sparkSlots (s : State) (k : Channel) (pulse : Time) : Changes s (s.sparkSlots k pulse) :=
  changes_beside rfl

theorem taken_spark {now : Time} (h : Changes s u) (command : c.clockOf = some now) (clock : u.clock = now) (k : Channel)
    (pulse : Time) (near : s.nearFor c → (pulse - now).toInt.natAbs < 2 ^ 28) : Taken c s (u.spark k pulse) := by
  have watched : Changes (u.sparkAtChannel k) (u.sparkAtChannel k).restartWatch := changes_beside rfl
  have taken := ((h.trans (changes_sparkAtChannel u k)).trans watched).trans (changes_sparkSlots _ k pulse)
  have same : ((u.sparkAtChannel k).restartWatch.sparkSlots k pulse).clock = now := by
    refine Eq.trans ?_ clock
    show (u.sparkAtChannel k).clock = u.clock
    unfold State.sparkAtChannel
    simp only
    split <;> rfl
  unfold State.spark State.handOff
  split
  · refine taken_release taken now command same (fun n => ⟨?_, Nat.zero_le _⟩) _
    have := near n
    show (pulse - now).toInt.natAbs < 2 ^ 28 + 2048
    omega
  · exact taken.settled _

theorem takes_sensorPulseEnd (now : Time) (k : Channel) (width : Nat) : Takes (.sensorPulseEnd now k width) :=
  takes_of (fun _ => rfl) fun s => taken_ite (fun _ => by
    have pinned := changes_pin (s := s) now k false
    have low (x : State) (h : Changes s x) (report : s.reportStands → x.reportStands) :
        Taken (.sensorPulseEnd now k width) s (x.lowBegins k) :=
      (h.trans (changes_withChannel k x { x.channel k with lowSince := some x.clock })).taken fun stands =>
        reportStands_same (s := x) (t := x.withChannel k { x.channel k with lowSince := some x.clock }) rfl
          (withChannel_reported k rfl) rfl (report stands)
    unfold State.pulseEnd
    split
    · exact low _ pinned (reportStands_same rfl (reported_beside rfl) rfl)
    · split
      · rename_i pulse began
        unfold State.classify
        split
        · exact (pinned.trans (changes_withChannel k _ _)).still ((withChannel_reported (s := (s.takeAt now).setSparkPin k false)
            (x := { ((s.takeAt now).setSparkPin k false).channel k with pulse := none }) k rfl).trans (reported_beside rfl)) rfl
        · split
          · exact taken_spark pinned rfl rfl k pulse fun near => (near now rfl).2.2 k width pulse rfl began
          · split
            · exact (pinned.trans (changes_noisePulse k _)).taken fun _ => fillOnChange_reportStands _
            · split
              · exact (pinned.trans (changes_testPulse k _)).taken fun _ => fillOnChange_reportStands _
              · split
                · exact (pinned.trans (changes_noisePulse k _)).taken fun _ => fillOnChange_reportStands _
                · exact low _ (pinned.trans (changes_becomeBlinded k _)) fun _ => becomeBlinded_reportStands k _
      · exact taken_pin now k false) fun _ => taken_pin now k false

end

end Sys2Proof.Machine
end

section
/-! SUPPORT. What a step of the station comes to, and the whole-machine rules read off it (R7, R14, R17, R24, R33, R83, R85, R86,
R107, R115, R153, R159, R161). -/

namespace Sys2Proof.Machine

/-! ## Every command and every step -/

/-- What Taken says holds of every command but POWER_ON. -/
theorem takes_command (c : Instr) (h : c ≠ .powerOn) : Takes c := by
  cases c with
  | powerOn => exact absurd rfl h
  | imageReadFailed now => exact takes_imageReadFailed now
  | imageReadRetry now => exact takes_imageReadRetry now
  | imageReadComplete now image => exact takes_imageReadComplete now image
  | listenEnd now => exact takes_listenEnd now
  | settleEnd now => exact takes_settleEnd now
  | attemptStart now line => exact takes_attemptStart now line
  | contentionLost now line => exact takes_contentionLost now line
  | txError now place => exact takes_txError now place
  | attemptSuccess now line => exact takes_attemptSuccess now line
  | probeTimerExpiry now line => exact takes_probeTimerExpiry now line
  | stateRoundHoldClear now line => exact takes_stateRoundHoldClear now line
  | stateIntervalExpiry now => exact takes_stateIntervalExpiry now
  | receiveFramingError now line => exact takes_receiveFramingError now line
  | noticeLengthError now line length => exact takes_noticeLengthError now line length
  | callNotice now line rx => exact takes_callNotice now line rx
  | sparkNotice now line rx => exact takes_sparkNotice now line rx
  | keyNotice now line rx => exact takes_keyNotice now line rx
  | stateNotice now line rx => exact takes_stateNotice now line rx
  | lineQuiet now line => exact takes_lineQuiet now line
  | peerLost now peer => exact takes_peerLost now peer
  | singleLine now peer => exact takes_singleLine now peer
  | callPress now => exact takes_callPress now
  | callRelease now => exact takes_callRelease now
  | heatInputChange now active => exact takes_heatInputChange now active
  | silencePress now => exact takes_silencePress now
  | resetPress now => exact takes_resetPress now
  | startPress now => exact takes_startPress now
  | stopPress now => exact takes_stopPress now
  | sensorPulseStart now channel => exact takes_sensorPulseStart now channel
  | sensorPulseEnd now channel width => exact takes_sensorPulseEnd now channel width
  | blinded now channel => exact takes_blinded now channel
  | blindedClear now channel => exact takes_blindedClear now channel
  | bucketBoundary now => exact takes_bucketBoundary now
  | escalated now => exact takes_escalated now
  | watchHoldExpiry now => exact takes_watchHoldExpiry now
  | silent now channel => exact takes_silent now channel
  | windowOpen now output => exact takes_windowOpen now output
  | windowClose now output => exact takes_windowClose now output
  | flowSwitchChange now output active => exact takes_flowSwitchChange now output active
  | confirmTimerExpiry now output => exact takes_confirmTimerExpiry now output
  | cutOff now output => exact takes_cutOff now output
  | valveStuck now output => exact takes_valveStuck now output
  | flowPulse now => exact takes_flowPulse now
  | sampleComplete now => exact takes_sampleComplete now
  | periodicWindowStart now => exact takes_periodicWindowStart now
  | startGraceExpiry now => exact takes_startGraceExpiry now
  | gateFeedbackChange now active => exact takes_gateFeedbackChange now active
  | gateTimerExpiry now => exact takes_gateTimerExpiry now
  | rundownLimitExpiry now => exact takes_rundownLimitExpiry now
  | runningContactChange now active => exact takes_runningContactChange now active
  | contactorMismatch now => exact takes_contactorMismatch now
  | gateMismatch now => exact takes_gateMismatch now
  | barrierFeedbackChange now output active => exact takes_barrierFeedbackChange now output active
  | travelTimerExpiry now output => exact takes_travelTimerExpiry now output
  | travelExhausted now output => exact takes_travelExhausted now output
  | damperWaitExpiry now output => exact takes_damperWaitExpiry now output
  | sirenFeedbackChange now output active => exact takes_sirenFeedbackChange now output active
  | sirenFault now output => exact takes_sirenFault now output
  | cadenceLevelChange now => exact takes_cadenceLevelChange now
  | resoundTimerExpiry now => exact takes_resoundTimerExpiry now
  | allClearEnd now output => exact takes_allClearEnd now output
  | supplySample now millivolts => exact takes_supplySample now millivolts
  | status now argument => exact takes_status now argument
  | zones now argument => exact takes_zones now argument
  | peer now argument => exact takes_peer now argument
  | valve now argument => exact takes_valve now argument
  | barriers now argument => exact takes_barriers now argument
  | sirens now argument => exact takes_sirens now argument
  | fan now argument => exact takes_fan now argument
  | counters now argument => exact takes_counters now argument
  | takeRecord now argument => exact takes_takeRecord now argument
  | takeRecordComplete now => exact takes_takeRecordComplete now
  | unknown now request argument => exact takes_unknown now argument request
  | lineIdle now line => exact takes_lineIdle now line
  | checkError now line class_ rx => exact takes_checkError now line class_ rx
  | instantAged now => exact takes_instantAged now

section
variable {s t : State}

/-- R150: the station after POWER_ON. -/
def State.restarted (s : State) : State := { State.reset with inputs := s.inputs.atPowerOn, pending := s.pending }

theorem exec_powerOn (s : State) : exec .powerOn s = .next s.restarted := rfl

/-- R149: a millisecond with no command waiting. -/
theorem taken_tick (s : State) : Taken .powerOn (s.withPending []) s.tick :=
  (changes_beside (s := s.withPending []) rfl).beside rfl

/-- A step takes the command in front, starts the station again, or lets a millisecond pass. -/
theorem step_taken (h : step s = .next t) :
    (∃ (c : Instr) (rest : List Instr),
      (s.commandNear → (s.withPending rest).nearFor c) ∧ Taken c (s.withPending rest) t) ∨
    (s.pending.head? = some .powerOn ∧ ∃ u : State, t = u.restarted) := by
  unfold step at h
  split at h
  · rename_i c rest waiting
    by_cases power : c = .powerOn
    · subst power
      rw [exec_powerOn] at h
      cases h
      exact .inr ⟨by rw [waiting]; rfl, _, rfl⟩
    · exact .inl ⟨c, rest, fun near => near c (by rw [waiting]; rfl), takes_command c power _ _ h⟩
  · cases h
    exact .inl ⟨.powerOn, [], (fun _ _ e => by cases e), taken_tick s⟩

/-- What every command but POWER_ON keeps, and POWER_ON brings, every step keeps; the waiting commands are not looked at. -/
theorem step_keeps {p : State → Prop} (queue : ∀ (s : State) (q : List Instr), p s → p (s.withPending q))
    (taken : ∀ (c : Instr) (s t : State), Taken c s t → p s → p t) (restarted : ∀ s : State, p s.restarted) (hs : p s)
    (h : step s = .next t) : p t := by
  rcases step_taken h with ⟨c, rest, -, run⟩ | ⟨-, u, rfl⟩
  · exact taken c _ _ run (queue s rest hs)
  · exact restarted u

theorem inert_withPending (q : List Instr) (h : s.inert) : (s.withPending q).inert := fun unstarted => by
  obtain ⟨same, inactive⟩ := h unstarted
  exact ⟨congrArg (fun x : State => x.withPending q) same, inactive⟩

theorem restarted_valve (s : State) (o : Output) : s.restarted.valves[o] = .powerOn := reset_valve o

theorem restarted_peer (s : State) (k : Station) : s.restarted.peers[k] = .powerOn := reset_peer k

theorem reportStands_step (hs : s.reportStands) (h : step s = .next t) : t.reportStands :=
  step_keeps (fun _ _ h => h) (fun _ _ _ run => run.report) (fun _ permitted => by cases permitted) hs h

theorem recordFits_step (hs : s.recordFits) (h : step s = .next t) : t.recordFits :=
  step_keeps (fun _ _ h => h) (fun _ _ _ run => run.record) (fun _ => Nat.zero_le _) hs h

theorem schedulesFit_step (hs : s.schedulesFit) (h : step s = .next t) : t.schedulesFit :=
  step_keeps (fun _ _ h => h) (fun _ _ _ run => run.schedules)
    (fun s o => by rw [restarted_valve]; exact Nat.zero_le _) hs h

theorem errorsFit_step (hs : s.errorsFit) (h : step s = .next t) : t.errorsFit :=
  step_keeps (fun _ _ h => h) (fun _ _ _ run => run.errors) (fun _ => ⟨Nat.zero_le _, Nat.zero_le _⟩) hs h

theorem noOwnEntry_step (inert : s.inert) (hs : s.noOwnEntry) (h : step s = .next t) : t.noOwnEntry := by
  rcases step_taken h with ⟨c, rest, -, run⟩ | ⟨-, u, rfl⟩
  · exact run.entries (inert_withPending rest inert) hs
  · exact ⟨restarted_peer u 0, fun _ => restarted_peer u _⟩

theorem releaseRanges_step (hs : s.started = true → s.setup.releaseRanges) (h : step s = .next t) (started : t.started = true) :
    t.setup.releaseRanges :=
  step_keeps (p := fun s => s.started = true → s.setup.releaseRanges) (fun _ _ h => h) (fun _ _ _ run => run.ranges)
    (fun _ e => by cases e) hs h started

theorem schedulesInOrder_step (inert : s.inert) (ranges : s.started = true → s.setup.releaseRanges) (near : s.commandNear)
    (hs : s.schedulesInOrder) (h : step s = .next t) : t.schedulesInOrder := by
  rcases step_taken h with ⟨c, rest, nears, run⟩ | ⟨-, u, rfl⟩
  · exact run.order (inert_withPending rest inert) ranges (nears near) hs
  · intro o
    rw [restarted_valve]
    exact inSchedule_nil _

end

/-- Settles O58: every command that changes what is reported fills the STATE slots. -/
theorem reportStands : Obligations.ReportStands := fun _ _ => reportStands_step

/-- Settles O60: each rule read off what a command comes to. -/
theorem boundsAndMoves : Obligations.BoundsAndMoves := by
  refine ⟨fun _ _ => recordFits_step, fun _ _ => schedulesFit_step, fun _ _ => errorsFit_step, fun _ _ => noOwnEntry_step,
    imageSetup_releaseRanges, fun _ _ => releaseRanges_step, fun _ _ => schedulesInOrder_step,
    fun c s t h power => ?_⟩
  have run := takes_command c power s t h
  exact ⟨fun keeps => ⟨run.flags keeps, run.latches keeps⟩, run.causes, fun picture =>
    have moves := run.fan picture
    ⟨moves.standby, moves.starting, moves.running, moves.diverting, moves.rundown, moves.stopped⟩⟩

end Sys2Proof.Machine
end

section
/-! SUPPORT. A station before LISTEN (R39, R150, R152): what every command leaves of it, and the start phases' guard. -/

namespace Sys2Proof.Machine

/-! ## A station before LISTEN -/

/-- R150, R152: a station in LOAD or in CONFIG_FAULT as it stands. -/
structure Dormant (s : State) : Prop where
  same : s = s.before
  inactive : s.inputs.inactive = true
  unstarted : s.started = false

section
variable {s t : State}

theorem Dormant.unpermitted (d : Dormant s) : s.permitted = false := by
  have := d.unstarted
  unfold State.started at this
  unfold State.permitted
  revert this
  cases s.start.phase <;> simp

theorem Dormant.waiting (d : Dormant s) : s.operating = false := by
  have := d.unstarted
  unfold State.started at this
  unfold State.operating
  revert this
  cases s.start.phase <;> simp

theorem Dormant.setup (d : Dormant s) : s.setup = .blank := by rw [d.same]; rfl
theorem Dormant.extraction (d : Dormant s) : s.extraction = .powerOn := by rw [d.same]; rfl
theorem Dormant.sensing (d : Dormant s) : s.sensing = State.reset.sensing := by rw [d.same]; rfl
theorem Dormant.own (d : Dormant s) : s.own = State.reset.own := by rw [d.same]; rfl
theorem Dormant.assembler (d : Dormant s) : s.assembler = State.reset.assembler := by rw [d.same]; rfl
theorem Dormant.barriers (d : Dormant s) : s.barriers = State.reset.barriers := by rw [d.same]; rfl
theorem Dormant.sirens (d : Dormant s) : s.sirens = State.reset.sirens := by rw [d.same]; rfl

theorem Dormant.line (d : Dormant s) (l : Line) : s.line l = (s.line l).before := by
  cases l
  · exact congrArg State.lineA d.same
  · exact congrArg State.lineB d.same

theorem Dormant.peer (d : Dormant s) (k : Station) : s.peers[k] = .powerOn := by
  rw [show s.peers = State.reset.peers by rw [d.same]; rfl]
  exact reset_peer k

theorem Dormant.valve (d : Dormant s) (o : Output) : s.valve o = .powerOn := by
  rw [State.valve, show s.valves = State.reset.valves by rw [d.same]; rfl]
  exact reset_valve o

theorem Dormant.barrier (d : Dormant s) (o : Output) : s.barrier o = .powerOn := by
  rw [State.barrier, d.barriers]
  exact reset_barrier o

theorem Dormant.channel (d : Dormant s) (c : Channel) : s.channel c = .powerOn := by
  rw [State.channel, d.sensing]
  simp [State.reset]

theorem Dormant.role (d : Dormant s) (o : Output) : s.role o = .none := by
  rw [State.role, d.setup]
  exact reset_role o

/-- What may change of such a station: the clock, the start sequencer, the receive stages and counters of the lines, the pins,
the graded supply, the event record, the port and the queue. -/
theorem Dormant.change (d : Dormant s) (unstarted : t.started = false) (inactive : t.inputs.inactive = true)
    (same : t = { s with
      clock := t.clock, agings := t.agings, start := t.start
      lineA := { s.lineA with stage := t.lineA.stage, counters := t.lineA.counters }
      lineB := { s.lineB with stage := t.lineB.stage, counters := t.lineB.counters }
      inputs := t.inputs, supply := { s.supply with level := t.supply.level, next := t.supply.next }
      record := t.record, port := t.port, pending := t.pending }) : Dormant t where
  same := by
    have e := d.same
    calc t = _ := same
      _ = { s.before with
        clock := t.clock, agings := t.agings, start := t.start
        lineA := { s.before.lineA with stage := t.lineA.stage, counters := t.lineA.counters }
        lineB := { s.before.lineB with stage := t.lineB.stage, counters := t.lineB.counters }
        inputs := t.inputs, supply := { s.before.supply with level := t.supply.level, next := t.supply.next }
        record := t.record, port := t.port, pending := t.pending } := by rw [← e]
      _ = t.before := rfl
  inactive := inactive
  unstarted := unstarted

/-- A change that leaves the phase and the inputs. -/
theorem Dormant.aside (d : Dormant s) (phase : t.start.phase = s.start.phase) (inputs : t.inputs = s.inputs)
    (same : t = { s with
      clock := t.clock, agings := t.agings, start := t.start
      lineA := { s.lineA with stage := t.lineA.stage, counters := t.lineA.counters }
      lineB := { s.lineB with stage := t.lineB.stage, counters := t.lineB.counters }
      inputs := t.inputs, supply := { s.supply with level := t.supply.level, next := t.supply.next }
      record := t.record, port := t.port, pending := t.pending }) : Dormant t :=
  d.change (by simp only [State.started, phase]; exact d.unstarted) (by rw [inputs]; exact d.inactive) same

theorem Dormant.takeAt (d : Dormant s) (now : Time) : Dormant (s.takeAt now) := d.aside rfl rfl rfl

theorem Dormant.withLine (d : Dormant s) (l : Line) (x : LineInterface)
    (h : x = { s.line l with stage := x.stage, counters := x.counters }) : Dormant (s.withLine l x) := by
  cases l <;> exact d.aside rfl rfl (by rw [h]; rfl)

end

/-- What a command leaves of a station before LISTEN, unless LISTEN begins. -/
def Sleeps (c : Instr) : Prop := ∀ s t : State, Dormant s → exec c s = .next t → t.started = false → Dormant t

section
variable {c : Instr} {now : Time}

theorem sleeps_of {f : State → State} (h : ∀ s, exec c s = .next (f s))
    (sleeps : ∀ s, Dormant s → (f s).started = false → Dormant (f s)) : Sleeps c := fun s t d e unstarted => by
  rw [h s] at e
  cases e
  exact sleeps s d unstarted

/-- A command whose event cannot occur before LISTEN. -/
theorem sleeps_unless {b : State → Bool} {f : State → State} (h : ∀ s, exec c s = .next (if b s then f s else s.takeAt now))
    (off : ∀ s, Dormant (s.takeAt now) → b s = false) : Sleeps c :=
  sleeps_of h fun s d _ => by
    have d := d.takeAt now
    rw [off s d]
    exact d

end

/-! ### The start sequencer and the lines -/

section
variable {c : Instr} (now : Time) (l : Line)

theorem Dormant.phaseDue {s : State} (d : Dormant s) {p : StartPhase} (h : p = .listen ∨ p = .settle) :
    s.phaseDue p = false := by
  refine Bool.eq_false_iff.mpr fun e => ?_
  have phase := phaseDue_phase e
  have unstarted := d.unstarted
  simp only [State.started, phase] at unstarted
  rcases h with rfl | rfl <;> cases unstarted

theorem sleeps_imageReadFailed : Sleeps (.imageReadFailed now) :=
  sleeps_of (fun _ => rfl) fun s d unstarted => by
    have d := d.takeAt now
    split at unstarted
    · rename_i h
      rw [if_pos h]
      unfold State.failRead at unstarted ⊢
      split
      · exact d.aside rfl rfl rfl
      · exact d.change rfl d.inactive rfl
    · rename_i h
      rw [if_neg h]
      exact d

theorem sleeps_imageReadRetry : Sleeps (.imageReadRetry now) :=
  sleeps_of (fun _ => rfl) fun s d _ => by
    have d := d.takeAt now
    split
    · exact d.aside rfl rfl rfl
    · exact d

theorem sleeps_imageReadComplete (image : List Byte) : Sleeps (.imageReadComplete now image) :=
  sleeps_of (fun _ => rfl) fun s d unstarted => by
    have d := d.takeAt now
    split at unstarted
    · rename_i h
      rw [if_pos h]
      unfold State.completeRead at unstarted ⊢
      split
      · rename_i usable
        rw [usable, enterListen_eq] at unstarted
        simp only [(settle_follows ((s.takeAt now).listening image)).started] at unstarted
        cases unstarted
      · exact d.change rfl d.inactive rfl
    · rename_i h
      rw [if_neg h]
      exact d

theorem sleeps_placed {f : State → Attempt → State} (h : ∀ s, exec c s = .next (match ((s.takeAt now).line l).place with
    | some a => f s a
    | none => s.takeAt now)) : Sleeps c :=
  sleeps_of h fun s d _ => by
    have d := d.takeAt now
    have place : ((s.takeAt now).line l).place = none := by rw [d.line]; rfl
    simp only [place]
    exact d

theorem sleeps_stateRoundHoldClear : Sleeps (.stateRoundHoldClear now l) :=
  sleeps_of (fun _ => rfl) fun s d _ => (d.takeAt now).withLine l _ (by
    have hold : ((s.takeAt now).line l).roundHold = false := by rw [(d.takeAt now).line]; rfl
    rw [← hold])

/-- A receive stage that goes on or ends. -/
theorem sleeps_counted {f : State → State} (h : ∀ s, exec c s = .next (f s)) (counted : ∀ s, f s = s.takeAt now ∨ ∃ x,
    f s = (s.takeAt now).withLine l x ∧ x = { (s.takeAt now).line l with stage := x.stage, counters := x.counters }) :
    Sleeps c :=
  sleeps_of h fun s d _ => by
    rcases counted s with e | ⟨x, e, same⟩ <;> rw [e]
    · exact d.takeAt now
    · exact (d.takeAt now).withLine l x same

theorem counted_ite {s : State} {b : Bool} {x : LineInterface}
    (h : x = { (s.takeAt now).line l with stage := x.stage, counters := x.counters }) :
    (if b then (s.takeAt now).withLine l x else s.takeAt now) = s.takeAt now ∨ ∃ y,
      (if b then (s.takeAt now).withLine l x else s.takeAt now) = (s.takeAt now).withLine l y ∧
      y = { (s.takeAt now).line l with stage := y.stage, counters := y.counters } := by
  cases b
  · exact .inl rfl
  · exact .inr ⟨x, rfl, h⟩

theorem sleeps_lineIdle : Sleeps (.lineIdle now l) :=
  sleeps_counted now l (fun _ => rfl) fun _ => counted_ite now l rfl

theorem sleeps_receiveFramingError : Sleeps (.receiveFramingError now l) :=
  sleeps_counted now l (fun _ => rfl) fun _ => counted_ite now l rfl

theorem sleeps_noticeLengthError (length : Byte) : Sleeps (.noticeLengthError now l length) :=
  sleeps_counted now l (fun _ => rfl) fun _ => counted_ite now l rfl

theorem sleeps_checkError (class_ : BitVec 3) (rx : Received) : Sleeps (.checkError now l class_ rx) :=
  sleeps_counted now l (fun _ => rfl) fun s => by
    simp only
    split
    · exact .inl rfl
    · split
      · exact .inr ⟨_, rfl, rfl⟩
      · exact counted_ite now l rfl

/-- R21: a notice is heard from LISTEN on; before it is counted at most. -/
theorem sleeps_receive {α : Type} {class_ : BitVec 3} {read : List Byte → Option α} {rx : Received}
    {deliver : State → Station → Time → α → State}
    (h : ∀ s, exec c s = .next ((s.takeAt now).receive l class_ read rx deliver)) : Sleeps c :=
  sleeps_of h fun s d _ => by
    have d := d.takeAt now
    rcases receive_cases (s.takeAt now) l class_ read rx deliver with
      e | e | e | e | ⟨started, -⟩ | ⟨x, started, -⟩
    · rw [e]; exact d
    · rw [e]; exact d.withLine l _ rfl
    · rw [e]; exact d.withLine l _ rfl
    · rw [e]; exact d.withLine l _ rfl
    · rw [d.unstarted] at started; cases started
    · rw [d.unstarted] at started; cases started

theorem sleeps_lineQuiet : Sleeps (.lineQuiet now l) :=
  sleeps_of (fun _ => rfl) fun s d _ => by
    have d := d.takeAt now
    have loud : (s.takeAt now).quietTests l = false := by simp only [State.quietTests, d.unstarted, Bool.false_and]
    have stays : ((s.takeAt now).line l).quiet = false := by rw [d.line]; rfl
    rw [judgeQuiet_eq, loud]
    have quiet := d.withLine l { (s.takeAt now).line l with quiet := false } (by rw [← stays])
    exact quiet.aside rfl rfl (by
      simp only [Bool.false_and, Bool.false_eq_true, if_false, flags_or_zero]
      rfl)

theorem sleeps_singleLine (k : Station) : Sleeps (.singleLine now k) :=
  sleeps_of (f := fun s => match ((s.takeAt now).peers[k]).singleTest now with
      | some m => { s.takeAt now with
          peers := change s.peers k fun p => { p with single := some m }, flags := s.flags ||| Attention.singleLine.mask }
      | none => s.takeAt now) (fun _ => rfl) fun s d _ => by
    have d := d.takeAt now
    simp only [d.peer k]
    exact d

end

/-! ### The channels, the valves and the outputs -/

section
variable {c : Instr} (now : Time)

theorem sleeps_pin (level : Bool) (k : Channel) {f : State → State}
    (h : ∀ s, exec c s = .next (if ((s.takeAt now).setSparkPin k level).channelActive k then f s
      else (s.takeAt now).setSparkPin k level)) : Sleeps c :=
  sleeps_of h fun s d _ => by
    have d : Dormant ((s.takeAt now).setSparkPin k level) := (d.takeAt now).change d.unstarted d.inactive rfl
    rw [State.channelActive, d.unpermitted, Bool.false_and]
    exact d

theorem sleeps_windowOpen (o : Output) : Sleeps (.windowOpen now o) :=
  sleeps_of (fun _ => rfl) fun s d _ => by
    have d := d.takeAt now
    rw [State.openValve, d.waiting, Bool.false_and]
    exact d

theorem sleeps_flowPulse : Sleeps (.flowPulse now) :=
  sleeps_of (fun _ => rfl) fun s d _ => by
    have d := d.takeAt now
    have still : { (s.takeAt now).extraction with
        window := (s.takeAt now).extraction.window.map (SampleWindow.count now) } = (s.takeAt now).extraction := by
      rw [d.extraction]
      rfl
    exact (congrArg (fun e => Dormant { s.takeAt now with extraction := e }) still).mpr d

theorem sleeps_sampleComplete : Sleeps (.sampleComplete now) :=
  sleeps_of (fun _ => rfl) fun s d _ => by
    have d := d.takeAt now
    have idle : (s.takeAt now).extraction.window = none := by rw [d.extraction]; rfl
    simp only [idle]
    exact d

theorem sleeps_cadenceLevelChange : Sleeps (.cadenceLevelChange now) :=
  sleeps_of (fun _ => rfl) fun s d _ => by
    have d := d.takeAt now
    have still : (s.takeAt now).followCadence.sirens = (s.takeAt now).sirens := by
      simp only [State.followCadence, d.waiting, Bool.false_and, Bool.false_eq_true, if_false, d.sirens]
      rw [tabulate_self]
      rfl
    exact (congrArg (fun x => Dormant { s.takeAt now with sirens := x }) still).mpr d

theorem sleeps_gateFeedbackChange (active : Bool) : Sleeps (.gateFeedbackChange now active) :=
  sleeps_of (fun _ => rfl) fun s d _ => by
    have d := d.takeAt now
    have none_ : (s.takeAt now).gateOutput = none := List.find?_eq_none.mpr fun o _ => by rw [d.role o]; decide
    simp only [none_]
    exact d

theorem sleeps_runningContactChange (active : Bool) : Sleeps (.runningContactChange now active) :=
  sleeps_of (fun _ => rfl) fun s d _ => by
    have d := d.takeAt now
    have none_ : (s.takeAt now).contactorOutput = none := List.find?_eq_none.mpr fun o _ => by rw [d.role o]; decide
    simp only [none_]
    exact d

theorem sleeps_supplySample (millivolts : Nat) : Sleeps (.supplySample now millivolts) :=
  sleeps_of (fun _ => rfl) fun s d _ => by
    have d := d.takeAt now
    rw [d.unstarted]
    split
    · exact d.aside rfl rfl rfl
    · exact d

/-- R149: no block but the start sequencer and the feedbacks keeps an instant before LISTEN. -/
theorem Dormant.mapInstants {s : State} (d : Dormant s) (f : Instant → Instant) : Dormant (s.mapInstants f) := by
  have line (x : LineInterface) : x.before.mapInstants f = x.before := by
    have slots : (Vector.replicate 4 none : Vector (Option SparkReport) 4).map (fun r => r.map (SparkReport.mapInstants f)) =
        Vector.replicate 4 none := Vector.map_replicate
    unfold LineInterface.mapInstants LineInterface.before
    simp only [LineInterface.powerOn, Option.map_none, slots]
  have inactive : (s.mapInstants f).inputs.inactive = s.inputs.inactive := by
    simp only [State.mapInstants, Inputs.inactive, Vector.toList_map, List.all_map]
    rfl
  have lineA : s.lineA.mapInstants f = s.lineA := by
    rw [show s.lineA = s.lineA.before from d.line .a]
    exact line _
  have lineB : s.lineB.mapInstants f = s.lineB := by
    rw [show s.lineB = s.lineB.before from d.line .b]
    exact line _
  have peers : s.peers.map (Peer.mapInstants f) = s.peers := vector_eq fun k => by
    rw [getElem_map_fin, d.peer]
    rfl
  have channels : s.sensing.channels.map (SparkChannel.mapInstants f) = s.sensing.channels := vector_eq fun k => by
    rw [getElem_map_fin, show s.sensing.channels[k] = .powerOn from d.channel k]
    rfl
  have valves : s.valves.map (Valve.mapInstants f) = s.valves := vector_eq fun o => by
    rw [getElem_map_fin, show s.valves[o] = .powerOn from d.valve o]
    rfl
  have barriers : s.barriers.units.map (fun b => { b with released := b.released.map f }) = s.barriers.units :=
    vector_eq fun o => by
      rw [getElem_map_fin, show s.barriers.units[o] = .powerOn from d.barrier o]
      rfl
  have sirens : s.sirens.units.map (Siren.mapInstants f) = s.sirens.units := vector_eq fun o => by
    rw [getElem_map_fin, d.sirens, reset_siren o]
    rfl
  have extraction : { s.extraction with
      lastSample := s.extraction.lastSample.map f, lastStart := s.extraction.lastStart.map f } = s.extraction := by
    rw [d.extraction]
    rfl
  refine d.change d.unstarted (inactive.trans d.inactive) ?_
  unfold State.mapInstants
  rw [lineA, lineB, peers, channels, valves, barriers, sirens, extraction]

theorem sleeps_instantAged : Sleeps (.instantAged now) :=
  sleeps_of (fun _ => rfl) fun s d _ => by
    have d := d.takeAt now
    split
    · exact (d.mapInstants (Instant.age now s.agings)).aside rfl rfl rfl
    · exact d

end

/-- R150, R152: what every command but POWER_ON leaves of a station before LISTEN. -/
theorem sleeps_command (c : Instr) (h : c ≠ .powerOn) : Sleeps c := by
  cases c with
  | powerOn => exact absurd rfl h
  | imageReadFailed now => exact sleeps_imageReadFailed now
  | imageReadRetry now => exact sleeps_imageReadRetry now
  | imageReadComplete now image => exact sleeps_imageReadComplete now image
  | listenEnd now => exact sleeps_unless (now := now) (fun _ => rfl) fun s d => d.phaseDue (.inl rfl)
  | settleEnd now => exact sleeps_unless (now := now) (fun _ => rfl) fun s d => d.phaseDue (.inr rfl)
  | attemptStart now _ =>
    exact sleeps_unless (now := now) (fun _ => rfl) fun s d => by simp only [State.mayBegin, d.unpermitted, Bool.false_and]
  | contentionLost now line => exact sleeps_placed now line fun _ => rfl
  | txError now place => exact sleeps_placed now place.line fun _ => rfl
  | attemptSuccess now line => exact sleeps_placed now line fun _ => rfl
  | probeTimerExpiry now line => exact sleeps_unless (now := now) (fun _ => rfl) fun s d => by rw [d.line]; rfl
  | stateRoundHoldClear now line => exact sleeps_stateRoundHoldClear now line
  | stateIntervalExpiry now => exact sleeps_unless (now := now) (fun _ => rfl) fun s d => by rw [d.assembler]; rfl
  | receiveFramingError now line => exact sleeps_receiveFramingError now line
  | noticeLengthError now line length => exact sleeps_noticeLengthError now line length
  | callNotice now line _ => exact sleeps_receive now line fun _ => rfl
  | sparkNotice now line _ => exact sleeps_receive now line fun _ => rfl
  | keyNotice now line _ => exact sleeps_receive now line fun _ => rfl
  | stateNotice now line _ => exact sleeps_receive now line fun _ => rfl
  | lineQuiet now line => exact sleeps_lineQuiet now line
  | peerLost now peer => exact sleeps_unless (now := now) (fun _ => rfl) fun s d => by rw [d.peer]; rfl
  | singleLine now peer => exact sleeps_singleLine now peer
  | callPress now => exact sleeps_unless (now := now) (fun _ => rfl) fun s d => by simp only [d.unstarted, Bool.false_and]
  | callRelease now => exact sleeps_unless (now := now) (fun _ => rfl) fun s d => by simp only [d.unstarted, Bool.false_and]
  | heatInputChange now _ =>
    exact sleeps_unless (now := now) (fun _ => rfl) fun s d => by simp only [d.unstarted, Bool.false_and]
  | silencePress now => exact sleeps_unless (now := now) (fun _ => rfl) fun s d => d.unstarted
  | resetPress now => exact sleeps_unless (now := now) (fun _ => rfl) fun s d => d.unstarted
  | startPress now => exact sleeps_unless (now := now) (fun _ => rfl) fun s d => d.unstarted
  | stopPress now => exact sleeps_unless (now := now) (fun _ => rfl) fun s d => d.unstarted
  | sensorPulseStart now channel => exact sleeps_pin now true channel fun _ => rfl
  | sensorPulseEnd now channel _ => exact sleeps_pin now false channel fun _ => rfl
  | blinded now _ =>
    exact sleeps_unless (now := now) (fun _ => rfl) fun s d => by simp only [State.channelActive, d.unpermitted, Bool.false_and]
  | blindedClear now _ =>
    exact sleeps_unless (now := now) (fun _ => rfl) fun s d => by simp only [State.channelActive, d.unpermitted, Bool.false_and]
  | bucketBoundary now =>
    exact sleeps_unless (now := now) (fun _ => rfl) fun s d => by simp only [State.boundaryDue, d.unpermitted, Bool.false_and]
  | escalated now => exact sleeps_unless (now := now) (fun _ => rfl) fun s d => by rw [d.sensing]; rfl
  | watchHoldExpiry now => exact sleeps_unless (now := now) (fun _ => rfl) fun s d => by rw [d.own]; rfl
  | silent now channel => exact sleeps_unless (now := now) (fun _ => rfl) fun s d => by rw [d.channel]; rfl
  | windowOpen now output => exact sleeps_windowOpen now output
  | windowClose now _ => exact sleeps_unless (now := now) (fun _ => rfl) fun s d => by rw [d.role]; rfl
  | flowSwitchChange now _ _ =>
    exact sleeps_unless (now := now) (fun _ => rfl) fun s d => by rw [State.takesFeedback, d.role]; rfl
  | confirmTimerExpiry now _ => exact sleeps_unless (now := now) (fun _ => rfl) fun s d => by rw [d.role]; rfl
  | cutOff now _ => exact sleeps_unless (now := now) (fun _ => rfl) fun s d => by rw [State.cutOffDue, d.role]; rfl
  | valveStuck now _ => exact sleeps_unless (now := now) (fun _ => rfl) fun s d => by rw [d.role]; rfl
  | flowPulse now => exact sleeps_flowPulse now
  | sampleComplete now => exact sleeps_sampleComplete now
  | periodicWindowStart now => exact sleeps_unless (now := now) (fun _ => rfl) fun s d => by rw [d.extraction]; rfl
  | startGraceExpiry now =>
    exact sleeps_unless (now := now) (fun _ => rfl) fun s d => by rw [State.phaseTimerDue, d.extraction]; rfl
  | gateFeedbackChange now active => exact sleeps_gateFeedbackChange now active
  | gateTimerExpiry now =>
    exact sleeps_unless (now := now) (fun _ => rfl) fun s d => by rw [State.phaseTimerDue, d.extraction]; rfl
  | rundownLimitExpiry now =>
    exact sleeps_unless (now := now) (fun _ => rfl) fun s d => by rw [State.phaseTimerDue, d.extraction]; rfl
  | runningContactChange now active => exact sleeps_runningContactChange now active
  | contactorMismatch now => exact sleeps_unless (now := now) (fun _ => rfl) fun s d => by rw [d.extraction]; rfl
  | gateMismatch now => exact sleeps_unless (now := now) (fun _ => rfl) fun s d => by rw [d.extraction]; rfl
  | barrierFeedbackChange now _ _ =>
    exact sleeps_unless (now := now) (fun _ => rfl) fun s d => by rw [State.takesFeedback, d.role]; rfl
  | travelTimerExpiry now _ => exact sleeps_unless (now := now) (fun _ => rfl) fun s d => by rw [State.travelDue, d.role]; rfl
  | travelExhausted now _ => exact sleeps_unless (now := now) (fun _ => rfl) fun s d => by rw [State.travelOut, d.barriers]; rfl
  | damperWaitExpiry now _ => exact sleeps_unless (now := now) (fun _ => rfl) fun s d => by rw [State.waitDue, d.barrier]; rfl
  | sirenFeedbackChange now _ _ =>
    exact sleeps_unless (now := now) (fun _ => rfl) fun s d => by rw [State.takesFeedback, d.role]; rfl
  | sirenFault now _ => exact sleeps_unless (now := now) (fun _ => rfl) fun s d => by rw [d.role]; rfl
  | cadenceLevelChange now => exact sleeps_cadenceLevelChange now
  | resoundTimerExpiry now => exact sleeps_unless (now := now) (fun _ => rfl) fun s d => by rw [d.sirens]; rfl
  | allClearEnd now _ => exact sleeps_unless (now := now) (fun _ => rfl) fun s d => by rw [d.role]; rfl
  | supplySample now millivolts => exact sleeps_supplySample now millivolts
  | status now _ => exact sleeps_of (fun _ => rfl) fun _ d _ => (d.takeAt now).aside rfl rfl rfl
  | zones now _ => exact sleeps_of (fun _ => rfl) fun _ d _ => (d.takeAt now).aside rfl rfl rfl
  | peer now _ => exact sleeps_of (fun _ => rfl) fun _ d _ => (d.takeAt now).aside rfl rfl rfl
  | valve now _ => exact sleeps_of (fun _ => rfl) fun _ d _ => (d.takeAt now).aside rfl rfl rfl
  | barriers now _ => exact sleeps_of (fun _ => rfl) fun _ d _ => (d.takeAt now).aside rfl rfl rfl
  | sirens now _ => exact sleeps_of (fun _ => rfl) fun _ d _ => (d.takeAt now).aside rfl rfl rfl
  | fan now _ => exact sleeps_of (fun _ => rfl) fun _ d _ => (d.takeAt now).aside rfl rfl rfl
  | counters now _ => exact sleeps_of (fun _ => rfl) fun _ d _ => (d.takeAt now).aside rfl rfl rfl
  | takeRecord now _ => exact sleeps_of (fun _ => rfl) fun _ d _ => (d.takeAt now).aside rfl rfl rfl
  | takeRecordComplete now => exact sleeps_of (fun _ => rfl) fun _ d _ => (d.takeAt now).aside rfl rfl rfl
  | unknown now _ _ => exact sleeps_of (fun _ => rfl) fun _ d _ => (d.takeAt now).aside rfl rfl rfl
  | lineIdle now line => exact sleeps_lineIdle now line
  | checkError now line class_ rx => exact sleeps_checkError now line class_ rx
  | instantAged now => exact sleeps_instantAged now

/-! ## Every step (R14, R39, R152, R154, R162) -/

section
variable {s t : State}

theorem release_state {d : Debounced} (h : d.state = false) (now : Time) : ((d.watch now).release now).state = false := by
  unfold Debounced.release
  split
  · rfl
  · exact h

theorem inactive_iff (i : Inputs) : i.inactive = true ↔ i.call.state = false ∧ i.silence.state = false ∧
    i.reset.state = false ∧ i.start.state = false ∧ i.stop.state = false ∧ i.heat.state = false ∧
    ∀ f ∈ i.feedback.toList, f.input.state = false := by
  simp only [Inputs.inactive, Bool.and_eq_true, Bool.not_eq_true', List.all_eq_true, and_assoc]

/-- R39: inputs that are debounced inactive stay so while their pins are only watched. -/
theorem watch_inactive {i : Inputs} (h : i.inactive = true) (now : Time) : (i.watch now).inactive = true := by
  obtain ⟨call, silence, reset, start, stop, heat, feedback⟩ := (inactive_iff i).mp h
  refine (inactive_iff _).mpr ⟨call, release_state silence now, release_state reset now, release_state start now,
    release_state stop now, heat, fun f m => ?_⟩
  rw [Inputs.watch, Vector.toList_map] at m
  obtain ⟨g, mg, rfl⟩ := List.mem_map.mp m
  exact feedback g mg

theorem restarted_dormant (s : State) : Dormant s.restarted where
  same := rfl
  inactive := (inactive_iff _).mpr ⟨rfl, rfl, rfl, rfl, rfl, rfl, fun f m => by
    obtain ⟨o, ho, e⟩ := List.mem_iff_getElem.mp m
    rw [← e, Vector.getElem_toList]
    have at_ := tabulate_at (fun o : Output => (⟨(s.inputs.feedback[o]).input.atPowerOn, none⟩ : Feedback))
      ⟨o, by simpa using ho⟩
    exact (congrArg (fun x : Feedback => x.input.state) at_).trans rfl⟩
  unstarted := rfl

/-- R39, R152: a station before LISTEN stays as it is, step by step. -/
theorem inert_step (hs : s.inert) (h : step s = .next t) : t.inert := fun unstarted => by
  have dormant (q : List Instr) (before : s.started = false) : Dormant (s.withPending q) :=
    have queued := inert_withPending q hs before
    ⟨queued.1, queued.2, before⟩
  have result : Dormant t := by
    unfold step at h
    split at h
    · rename_i c rest waiting
      by_cases power : c = .powerOn
      · subst power
        rw [exec_powerOn] at h
        cases h
        exact restarted_dormant _
      · have run := takes_command c power _ t h
        have before : s.started = false := Bool.eq_false_iff.mpr fun e => by
          have := run.started e
          rw [unstarted] at this
          cases this
        exact sleeps_command c power _ t (dormant rest before) h unstarted
    · cases h
      have d := dormant [] unstarted
      exact d.change unstarted (watch_inactive d.inactive _) rfl
  exact ⟨result.same, result.inactive⟩

theorem quietLines_step (hs : s.quietLines) (h : step s = .next t) : t.quietLines :=
  step_keeps (fun _ _ h => h) (fun _ _ _ run => run.quiet) (fun _ => ⟨(fun e => by cases e), (fun e => by cases e)⟩) hs h

theorem configFault_step (hs : s.start.phase = .configFault) (power : s.pending.head? ≠ some .powerOn)
    (h : step s = .next t) : t.start.phase = .configFault := by
  rcases step_taken h with ⟨c, rest, -, run⟩ | ⟨front, -⟩
  · exact run.fault hs
  · exact absurd front power

theorem outputsWait_withPending (q : List Instr) (h : s.outputsWait) : (s.withPending q).outputsWait :=
  ⟨h.fan, h.valve, h.barrier, h.queue, h.siren⟩

theorem restarted_outputsWait (s : State) : s.restarted.outputsWait :=
  ⟨rfl, reset_outputsWait.valve, reset_outputsWait.barrier, ⟨rfl, rfl⟩, reset_outputsWait.siren⟩

theorem outputsWait_step (hs : s.operating = false → s.outputsWait) (h : step s = .next t) (waiting : t.operating = false) :
    t.outputsWait :=
  step_keeps (p := fun s => s.operating = false → s.outputsWait) (fun _ q w e => outputsWait_withPending q (w e))
    (fun _ _ _ run => run.waits) (fun s _ => restarted_outputsWait s) hs h waiting

/-- R154: a station whose controllers wait drives no output. -/
theorem drivenOutput_waits (h : s.outputsWait) (o : Output) : s.drivenOutput o = false := by
  have barrier : s.barrierOn o = false := by rw [State.barrierOn, h.barrier o]
  unfold State.drivenOutput
  cases s.role o with
  | none => rfl
  | valve => rw [State.valve, (h.valve o).1]; rfl
  | fanContactor => rw [h.fan]; rfl
  | abortGate => rw [h.fan]; rfl
  | magnet => exact barrier
  | shutter => exact barrier
  | damper => exact barrier
  | siren => exact h.siren o

theorem attention_of_bit {i : Nat} (h : i < 16) : ∃ a : Attention, a.bit = i := by
  have all : ∀ i : Fin 16, ∃ a ∈ Attention.all, a.bit = i.val := by decide
  obtain ⟨a, -, e⟩ := all ⟨i, h⟩
  exact ⟨a, e⟩

theorem flags_meet_iff (m n : BitVec 16) :
    m &&& n ≠ 0 ↔ ∃ a : Attention, m.getLsbD a.bit = true ∧ n.getLsbD a.bit = true := by
  constructor
  · intro meet
    by_contra apart
    refine meet (BitVec.eq_of_getLsbD_eq fun i hi => ?_)
    obtain ⟨a, rfl⟩ := attention_of_bit hi
    rw [BitVec.getLsbD_and]
    have := not_exists.mp apart a
    simpa using this
  · rintro ⟨a, hm, hn⟩ e
    have := congrArg (fun x => x.getLsbD a.bit) e
    simp only [BitVec.getLsbD_and, hm, hn] at this
    simp at this

theorem attn_iff (s : State) : s.attn = true ↔ s.start.phase = .configFault ∨
    ∃ a : Attention, s.flagged a = true ∧ s.setup.mask.getLsbD a.bit = true := by
  simp only [State.attn, Bool.or_eq_true, beq_iff_eq, bne_iff_ne]
  exact or_congr Iff.rfl (flags_meet_iff _ _)

end

/-- Settles O55: the guards read off what a command comes to, and the station before LISTEN command by command. -/
theorem startPhasesGuard : Obligations.StartPhasesGuard :=
  ⟨fun _ _ => quietLines_step, fun _ _ => inert_step, fun _ _ => configFault_step, fun _ _ => outputsWait_step,
    fun _ => drivenOutput_waits, fun s h => (attn_iff s).mpr (.inl h), attn_iff⟩

end Sys2Proof.Machine
end

section
/-! SUPPORT. The derived picture (R29 to R38, R62, R95, R113): what it reads of the station, which changes leave it standing, and
that the settling of an event brings it to stand. -/

namespace Sys2Proof.Machine

/-! ## What the picture reads -/

/-- A peer entry that gives the zone picture, the fan views and the conditions what another gives. -/
structure Peer.PicturedAs (p q : Peer) : Prop where
  settled : p.settled → q.settled
  contribution : p.settled → q.contribution = p.contribution
  reporting : p.settled → q.reporting = p.reporting
  content : q.content = p.content
  received : q.received.isSome = p.received.isSome

/-- A state with the own level, the zone picture, the views and the conditions of another, and the same sources for them; the
unserved field agrees with the channels if it did so before. -/
structure SamePicture (s t : State) : Prop where
  started : t.started = s.started
  setup : t.setup = s.setup
  call : t.inputs.call.state = s.inputs.call.state
  heat : t.inputs.heat.state = s.inputs.heat.state
  own : t.own = s.own
  storm : ∀ c : Channel, (t.sensing.channels[c]).storm.isSome = (s.sensing.channels[c]).storm.isSome
  peers : ∀ k : Station, (s.peers[k]).PicturedAs t.peers[k]
  served : s.sensing.unserved = s.anyUnserved → t.sensing.unserved = t.anyUnserved
  zones : t.zones = s.zones
  views : t.views = s.views
  flood : t.flood = s.flood
  fan : t.extraction.phase = s.extraction.phase ∧ t.extraction.lowFlow = s.extraction.lowFlow
  conditions : t.extraction.conditions = s.extraction.conditions
  trouble : ∀ o : Output, (t.valves[o]).trouble = (s.valves[o]).trouble

theorem Peer.PicturedAs.refl (p : Peer) : p.PicturedAs p := ⟨id, fun _ => rfl, fun _ => rfl, rfl, rfl⟩

theorem Peer.PicturedAs.trans {p q r : Peer} (h : p.PicturedAs q) (h' : q.PicturedAs r) : p.PicturedAs r where
  settled e := h'.settled (h.settled e)
  contribution e := (h'.contribution (h.settled e)).trans (h.contribution e)
  reporting e := (h'.reporting (h.settled e)).trans (h.reporting e)
  content := h'.content.trans h.content
  received := h'.received.trans h.received

section
variable {s t u : State}

theorem SamePicture.trans (h : SamePicture s t) (h' : SamePicture t u) : SamePicture s u where
  started := h'.started.trans h.started
  setup := h'.setup.trans h.setup
  call := h'.call.trans h.call
  heat := h'.heat.trans h.heat
  own := h'.own.trans h.own
  storm c := (h'.storm c).trans (h.storm c)
  peers k := (h.peers k).trans (h'.peers k)
  served e := h'.served (h.served e)
  zones := h'.zones.trans h.zones
  views := h'.views.trans h.views
  flood := h'.flood.trans h.flood
  fan := ⟨h'.fan.1.trans h.fan.1, h'.fan.2.trans h.fan.2⟩
  conditions := h'.conditions.trans h.conditions
  trouble o := (h'.trouble o).trans (h.trouble o)

/-- A change of the parts that the picture does not read. -/
theorem samePicture_beside (same : t = { s with
      clock := t.clock, agings := t.agings, start := { t.start with phase := s.start.phase }
      lineA := t.lineA, lineB := t.lineB, assembler := t.assembler
      inputs := { t.inputs with
        call := { t.inputs.call with state := s.inputs.call.state }
        heat := { t.inputs.heat with state := s.inputs.heat.state } }
      press := t.press
      extraction := { t.extraction with
        phase := s.extraction.phase, lowFlow := s.extraction.lowFlow, conditions := s.extraction.conditions }
      barriers := t.barriers, sirens := t.sirens, supply := t.supply, record := t.record, flags := t.flags
      port := t.port, pending := t.pending }) : SamePicture s t := by
  rw [same]
  exact
    { started := rfl, setup := rfl, call := rfl, heat := rfl, own := rfl, storm := fun _ => rfl, peers := fun _ => .refl _
      served := id, zones := rfl, views := rfl, flood := rfl, fan := ⟨rfl, rfl⟩, conditions := rfl, trouble := fun _ => rfl }

theorem SamePicture.refl (s : State) : SamePicture s s := samePicture_beside rfl

/-- Consequences that leave the fan, the valves and the flood states. -/
theorem samePicture_sameFan (c : Consumes s t) (same : SameFan s t) : SamePicture s t := by
  obtain ⟨flood, valves, extraction, -⟩ := same
  exact
    { started := c.started, setup := c.setup
      call := congrArg (fun i : Inputs => i.call.state) c.inputs, heat := congrArg (fun i : Inputs => i.heat.state) c.inputs
      own := c.own, storm := fun _ => by rw [c.sensing], peers := fun _ => by rw [c.peers]; exact .refl _
      served := fun h => by
        have unserved : t.anyUnserved = s.anyUnserved := by
          simp only [State.anyUnserved, State.channelActive, State.served, State.servingPresent, State.hasValve, c.permitted,
            c.setup, c.peers]
        rw [c.sensing, unserved, h]
      zones := c.zones, views := c.views, flood := flood, fan := by rw [extraction]; exact ⟨rfl, rfl⟩
      conditions := by rw [extraction], trouble := fun _ => by rw [valves] }

/-! ## A picture that stands -/

theorem filterMap_same {α β : Type} {n : Nat} {v w : Vector α n} {f : α → Option β} (h : ∀ i : Fin n, f w[i] = f v[i]) :
    w.toList.filterMap f = v.toList.filterMap f := by
  have map : w.map f = v.map f := vector_eq fun i => by
    rw [getElem_map_fin, getElem_map_fin, h]
  have lists := congrArg (fun x : Vector (Option β) n => x.toList.filterMap id) map
  simpa only [Vector.toList_map, List.filterMap_map, Function.id_comp] using lists

theorem any_same {α : Type} {n : Nat} {v w : Vector α n} {f : α → Bool} (h : ∀ i : Fin n, f w[i] = f v[i]) :
    w.toList.any f = v.toList.any f := by
  have map : w.map f = v.map f := vector_eq fun i => by
    rw [getElem_map_fin, getElem_map_fin, h]
  have lists := congrArg (fun x : Vector Bool n => x.toList.any id) map
  simpa only [Vector.toList_map, List.any_map, Function.id_comp] using lists

section
variable (h : SamePicture s t) (settled : ∀ k : Station, (s.peers[k]).settled)
include h

theorem SamePicture.composedLevel : t.composedLevel = s.composedLevel := by
  have storm : t.anyStorm = s.anyStorm := congrArg (fun f => (indexes 4).any f) (funext h.storm)
  simp only [State.composedLevel, h.started, h.call, h.heat, h.own, storm]

theorem SamePicture.valveTrouble : t.valveTrouble = s.valveTrouble :=
  congrArg (fun f => (indexes 4).any f) (funext fun o => by rw [State.role, h.setup, h.trouble]; rfl)

/-- R95: the flood state that a view gives reads the phase and LOW_FLOW of its source. -/
theorem SamePicture.inFlood (d : System) : t.inFlood d = s.inFlood d := by
  unfold State.inFlood State.viewData
  rw [h.views, h.setup]
  cases s.views[d].source with
  | none => rfl
  | some k =>
    by_cases number : k = s.setup.number
    · simp only [if_pos number, State.ownViewData, h.fan.1, h.fan.2]
    · have received := (h.peers k).received
      simp only [if_neg number, Peer.viewData, (h.peers k).content]
      cases (s.peers[k]).content with
      | none => rfl
      | some c => cases hs : (s.peers[k]).received <;> cases ht : (t.peers[k]).received <;> simp_all

include settled

theorem SamePicture.liveLevels : t.liveLevels = s.liveLevels := by
  unfold State.liveLevels State.contributions
  rw [h.setup, h.own, filterMap_same fun k => (h.peers k).contribution (settled k)]

theorem SamePicture.chosenView : t.chosenView = s.chosenView := by
  funext d
  have candidate : t.candidate d = s.candidate d := by
    funext k
    simp only [State.candidate, State.hasFan, h.setup, h.started, (h.peers k).reporting (settled k), (h.peers k).content]
  unfold State.chosenView State.candidates
  rw [candidate]

theorem SamePicture.conditionsNow : t.conditionsNow = s.conditionsNow := by
  have peer : t.peerTrouble = s.peerTrouble := by
    unfold State.peerTrouble
    rw [h.setup]
    exact any_same fun k => by rw [(h.peers k).reporting (settled k), (h.peers k).content]
  unfold State.conditionsNow State.hasFan State.hasValve State.anyZone State.zoneLevel
  rw [h.started, h.setup, h.zones, h.valveTrouble, peer]

end

/-- R29 to R38, R62, R95, R113: a picture stands while its sources and it stay as they are. -/
theorem SamePicture.stands (h : SamePicture s t) (p : s.pictureStands) : t.pictureStands where
  peers k := (h.peers k).settled (p.peers k)
  own := by rw [h.own, h.composedLevel]; exact p.own
  live := by rw [h.zones, h.liveLevels p.peers]; exact p.live
  latched := by rw [h.zones]; exact p.latched
  views := by rw [h.views, h.chosenView p.peers]; exact p.views
  flood := by rw [h.flood, funext h.inFlood]; exact p.flood
  unserved := h.served p.unserved
  conditions := by rw [h.conditions, h.conditionsNow p.peers]; exact p.conditions

/-! ## A picture judged -/

/-- What the consequences of an event do not judge: the peer entries are settled (R24, R27), and the unserved field agrees with
the channels (R62). -/
structure State.sourced (s : State) : Prop where
  peers : ∀ k : Station, (s.peers[k]).settled
  unserved : s.sensing.unserved = s.anyUnserved

theorem State.pictureStands.sourced (p : s.pictureStands) : s.sourced := ⟨p.peers, p.unserved⟩

theorem anyUnserved_same (peers : t.peers = s.peers) (setup : t.setup = s.setup) (permitted : t.permitted = s.permitted) :
    t.anyUnserved = s.anyUnserved := by
  simp only [State.anyUnserved, State.channelActive, State.served, State.servingPresent, State.hasValve, setup, peers, permitted]

theorem State.sourced.same (h : s.sourced) (peers : t.peers = s.peers) (setup : t.setup = s.setup)
    (permitted : t.permitted = s.permitted) (unserved : t.sensing.unserved = s.sensing.unserved) : t.sourced where
  peers := by rw [peers]; exact h.peers
  unserved := by rw [unserved, anyUnserved_same peers setup permitted]; exact h.unserved

theorem State.sourced.keeps (h : s.sourced) (k : Keeps s t) : t.sourced :=
  h.same k.peers k.setup k.permitted (congrArg Sensing.unserved k.sensing)

/-- R62: after a notice the unserved field is judged. -/
theorem afterHearing_sourced (h : ∀ k : Station, (s.peers[k]).settled) : s.afterHearing.sourced where
  peers := h
  unserved := by rw [afterHearing_eq]; rfl

theorem latchRule_atLeast {live latched : Level} (h : live.atLeast .fire = true) :
    (latchRule live latched).atLeast live = true := by
  revert h
  cases live <;> cases latched <;> decide

/-- R29 to R38, R95, R113: the consequences of an event bring the picture to stand. -/
theorem settleWith_stands (h : u.sourced) (event : List Cause) : (u.settleWith event).pictureStands := by
  have settled := settleWith_settledFrom u event
  have source := h.keeps (settleWith_follows u event).toKeeps
  exact
    { peers := source.peers, own := settled.own, live := settled.live
      latched := fun z fire => by rw [settled.latched]; exact latchRule_atLeast fire
      views := settled.views, flood := settled.fan.flood.flood, unserved := source.unserved
      conditions := settled.fan.conditions }

theorem settle_stands (h : u.sourced) : u.settle.pictureStands := settleWith_stands h []

end

end Sys2Proof.Machine
end

section
/-! SUPPORT. A RESET taken (R35, R43): what its consequences read, and that they leave the derived picture standing. -/

namespace Sys2Proof.Machine

/-- R43: a RESET taken up to the choice of the fan views: the owners that act before the fan and the valves are judged. -/
def State.resetFront (s : State) : State :=
  s.resetEscalation.recomposeOwn.resetZones.resetValves.resetMarks.chooseViews

/-- R43, R135, R141: a RESET at the barriers, and the claims that then follow the zone picture; w is the state in which the fan
and the valves have been judged. -/
def State.resetClaims (w : State) : State := w.judgeBarriers.rearmBarriers.followZones

/-- R43: what a RESET does after the fan and the valves have been judged. -/
def State.resetTail (w : State) : State := w.resetClaims.resetSirens.fillOnChange.judgeFlags

/-- R43: a RESET taken up to the judgement of the fan and the valves. -/
def State.resetJudged (s : State) : State := s.resetFront.judgeExtraction []

theorem takeReset_eq (s : State) : s.takeReset = s.resetJudged.resetTail := rfl

theorem resetJudged_consumes (s : State) : Consumes s.resetFront s.resetJudged := judgeExtraction_consumes _ _

theorem samePicture_rearmBarriers (s : State) : SamePicture s s.rearmBarriers := samePicture_beside rfl

theorem samePicture_followZones (s : State) : SamePicture s s.followZones := samePicture_beside rfl

theorem samePicture_resetSirens (s : State) : SamePicture s s.resetSirens := by
  unfold State.resetSirens
  split
  · exact samePicture_beside rfl
  · exact .refl s

theorem samePicture_judgeFlags (s : State) : SamePicture s s.fillOnChange.judgeFlags := samePicture_beside rfl

theorem samePicture_resetTail (w : State) : SamePicture w w.resetTail := by
  have barriers : SamePicture w w.judgeBarriers := samePicture_sameFan (judgeBarriers_consumes w) (judgeBarriers_sameFan w)
  have claims : SamePicture w w.resetClaims :=
    barriers.trans ((samePicture_rearmBarriers _).trans (samePicture_followZones _))
  exact claims.trans ((samePicture_resetSirens _).trans (samePicture_judgeFlags _))

theorem resetFront_own (s : State) : s.resetFront.own.level = s.resetFront.composedLevel := by
  simp only [State.resetFront, State.chooseViews, State.resetMarks, State.resetValves, State.resetZones, State.recomposeOwn]
  rfl

theorem resetFront_live (s : State) : s.resetFront.zones.live = s.resetFront.liveLevels := by
  simp only [State.resetFront, State.chooseViews, State.resetMarks, State.resetValves, State.resetZones]
  rfl

theorem resetFront_latched (s : State) (z : Zone) :
    s.resetFront.zones.latched[z] = latchRule s.resetFront.zones.live[z] .quiet := by
  simp only [State.resetFront, State.chooseViews, State.resetMarks, State.resetValves, State.resetZones, Fin.getElem_fin,
    tabulate_at]

theorem resetFront_views (s : State) : s.resetFront.views = tabulate s.resetFront.chosenView := by
  simp only [State.resetFront, State.chooseViews]
  rfl

/-- R43: what a RESET changes before the fan is judged. -/
theorem resetFront_frame (s : State) : s.resetFront = { s.resetMarked with
    own := s.resetFront.own, sensing := s.resetFront.sensing, zones := s.resetFront.zones
    views := s.resetFront.views, flags := s.resetFront.flags } := by
  simp only [State.resetFront, State.chooseViews, State.resetMarks, State.resetValves, State.resetZones, State.recomposeOwn,
    State.resetEscalation, State.resetMarked]
  rfl

/-- R30, R54: a RESET writes the escalation latch and timer, and the own level. -/
theorem resetFront_apart (s : State) : s.resetFront.apart = s.resetEscalation.apart := by
  simp only [State.resetFront, State.chooseViews, State.resetMarks, State.resetValves, State.resetZones, State.recomposeOwn]
  rfl

/-- R24, R62: a RESET leaves the peer entries and the unserved field. -/
theorem sourced_resetEscalation {s t : State} (h : s.sourced) (apart : t.apart = s.resetEscalation.apart) : t.sourced := by
  have peers : t.peers = s.peers := (congrArg State.peers apart : t.apart.peers = s.resetEscalation.apart.peers)
  have setup : t.setup = s.setup := (congrArg State.setup apart : t.apart.setup = s.resetEscalation.apart.setup)
  have start : t.start = s.start := (congrArg State.start apart : t.apart.start = s.resetEscalation.apart.start)
  have unserved : t.sensing.unserved = s.sensing.unserved :=
    (congrArg (fun x : State => x.sensing.unserved) apart : t.apart.sensing.unserved = s.resetEscalation.apart.sensing.unserved)
  exact h.same peers setup (by rw [State.permitted, start]; rfl) unserved

/-- R29 to R38, R95, R113: the picture stands when the fan and the valves have been judged on the recomputed zone picture. -/
theorem resetJudged_stands {s : State} (h : s.sourced) : s.resetJudged.pictureStands := by
  have front := sourced_resetEscalation h (resetFront_apart s)
  have judged := resetJudged_consumes s
  have fan : s.resetFront.fanSettles s.resetJudged [] := (judgeExtraction_settles s.resetFront []).1
  have source := front.keeps judged.toKeeps
  exact
    { peers := source.peers
      own := by rw [judged.own, judged.composedLevel]; exact resetFront_own s
      live := by rw [judged.zones, judged.liveLevels]; exact resetFront_live s
      latched := fun z fire => by
        rw [judged.zones] at fire ⊢
        rw [resetFront_latched]
        exact latchRule_atLeast fire
      views := by rw [judged.views, judged.chosenView]; exact resetFront_views s
      flood := fan.flood.flood, unserved := source.unserved, conditions := fan.conditions }

theorem takeReset_stands {u : State} (h : u.sourced) : u.takeReset.pictureStands := by
  rw [takeReset_eq]
  exact (samePicture_resetTail _).stands (resetJudged_stands h)

end Sys2Proof.Machine
end

section
/-! SUPPORT. What every command leaves of the derived picture: the commands whose consequences are settled bring it to stand, and
the others leave what it reads. -/

namespace Sys2Proof.Machine

/-! ## Changes that the picture does not read, or reads as they were -/

section
variable {s t u : State}

theorem samePicture_takeAt (s : State) (now : Time) : SamePicture s (s.takeAt now) := samePicture_beside rfl

theorem samePicture_fillOnChange (s : State) : SamePicture s s.fillOnChange := samePicture_beside rfl

theorem samePicture_silence (s : State) : SamePicture s s.silence := by
  unfold State.silence
  split
  · exact samePicture_beside rfl
  · exact .refl s

theorem samePicture_considerQueue (s : State) : SamePicture s s.considerQueue :=
  samePicture_sameFan (considerQueue_consumes s) ((judgeWaits_sameFan 4 s).trans (considerRun_sameFan _))

/-- R58: a channel changed but for its storm. -/
theorem samePicture_channel (s : State) (k : Channel) (x : SparkChannel) (h : x.storm.isSome = (s.channel k).storm.isSome) :
    SamePicture s (s.withChannel k x) where
  started := rfl
  setup := rfl
  call := rfl
  heat := rfl
  own := rfl
  storm c := by
    by_cases e : c = k
    · subst e
      exact (congrArg (fun y : SparkChannel => y.storm.isSome) (put_same s.sensing.channels c x)).trans h
    · exact congrArg (fun y : SparkChannel => y.storm.isSome) (put_other s.sensing.channels k c x e)
  peers _ := .refl _
  served := id
  zones := rfl
  views := rfl
  flood := rfl
  fan := ⟨rfl, rfl⟩
  conditions := rfl
  trouble _ := rfl

theorem samePicture_changeFlags (s : State) (k : Channel) (set : Bool) (x : SparkChannel)
    (h : x.storm.isSome = (s.channel k).storm.isSome) : SamePicture s (s.changeFlags k set x) :=
  (samePicture_channel s k x h).trans (samePicture_beside rfl)

/-- R97: a valve changed but for its trouble. -/
theorem samePicture_valve (s : State) (o : Output) {v : Valve} (h : v.trouble = (s.valves[o]).trouble) :
    SamePicture s (s.withValve o v) where
  started := rfl
  setup := rfl
  call := rfl
  heat := rfl
  own := rfl
  storm _ := rfl
  peers _ := .refl _
  served := id
  zones := rfl
  views := rfl
  flood := rfl
  fan := ⟨rfl, rfl⟩
  conditions := rfl
  trouble p := by
    by_cases e : p = o
    · subst e
      exact (congrArg Valve.trouble (put_same s.valves p v)).trans h
    · exact congrArg Valve.trouble (put_other s.valves o p v e)

/-- R25: an entry that hears a notice gives what it gave, for an entry that is not PRESENT gives nothing. -/
theorem hear_picturedAs (p : Peer) (l : Line) (start : Time) : p.PicturedAs (p.hear l start) where
  settled _ := .inl rfl
  contribution h := by
    rcases h with present | ⟨unknown, override⟩
    · simp only [Peer.contribution, Peer.hear, present]
    · simp only [Peer.contribution, Peer.hear, unknown, override]
      split <;> simp
  reporting h := by
    rcases h with present | ⟨unknown, -⟩
    · simp only [Peer.reporting, Peer.hear, present]
    · simp only [Peer.reporting, Peer.hear, unknown, Bool.and_false]
  content := rfl
  received := rfl

theorem peers_change {k : Station} {f : Peer → Peer} {p : Peer → Peer → Prop} {v : Vector Peer 32} (same : ∀ x, p x x)
    (changed : p v[k] (f v[k])) (j : Station) : p v[j] (change v k f)[j] := by
  by_cases e : j = k
  · subst e
    simp only [Fin.getElem_fin, change_same]
    exact changed
  · simp only [Fin.getElem_fin, change_other _ _ _ _ e]
    exact same _

/-- R25, R62: a notice heard that changes no content of its sender's entry. -/
theorem samePicture_noticed (s : State) (now : Time) (l : Line) (k : Station) (start : Time) {f : Peer → Peer}
    (fs : List Filing) (h : ∀ p : Peer, p.PicturedAs (f p)) : SamePicture s (s.noticed now l k start f fs).afterHearing := by
  rw [noticed_frame]
  exact
    { started := rfl, setup := rfl, call := rfl, heat := rfl, own := rfl, storm := fun _ => rfl
      peers := peers_change .refl ((hear_picturedAs _ l start).trans (h _))
      served := fun _ => by rw [afterHearing_eq]; rfl
      zones := rfl, views := rfl, flood := rfl, fan := ⟨rfl, rfl⟩, conditions := rfl, trouble := fun _ => rfl }

end

/-! ## Commands -/

/-- What a command leaves of the picture. -/
def Pictures (c : Instr) : Prop := ∀ s t : State, s.pictureStands → exec c s = .next t → t.pictureStands

section
variable {c : Instr} {now : Time} {s t u : State}

theorem pictures_of {f : State → State} (h : ∀ s, exec c s = .next (f s))
    (stands : ∀ s, s.pictureStands → (f s).pictureStands) : Pictures c := fun s t p e => by
  rw [h s] at e
  cases e
  exact stands s p

/-- A command that changes nothing that the picture reads. -/
theorem pictures_same {f : State → State} (h : ∀ s, exec c s = .next (f s)) (same : ∀ s, SamePicture s (f s)) : Pictures c :=
  pictures_of h fun s => (same s).stands

theorem samePicture_if {b : Bool} (h : b = true → SamePicture (s.takeAt now) t) :
    SamePicture s (if b then t else s.takeAt now) := by
  cases b with
  | false => exact samePicture_takeAt s now
  | true => exact (samePicture_takeAt s now).trans (h rfl)

theorem takeAt_stands (p : s.pictureStands) (now : Time) : (s.takeAt now).pictureStands := (samePicture_takeAt s now).stands p

/-- A command whose consequences are settled, when its event can occur. -/
theorem pictures_settles {b : State → Bool} {f : State → State} {event : State → List Cause}
    (h : ∀ s, exec c s = .next (if b s then (f s).settleWith (event s) else s.takeAt now))
    (sourced : ∀ s, (s.takeAt now).sourced → b s = true → (f s).sourced) : Pictures c :=
  pictures_of h fun s p => by
    have p := takeAt_stands p now
    split
    · rename_i occurs
      exact settleWith_stands (sourced s p.sourced occurs) _
    · exact p

/-- Consequences of a state with the same entries, configuration, start phase and unserved field. -/
theorem settleWith_same_stands (h : s.sourced) (event : List Cause) (peers : u.peers = s.peers) (setup : u.setup = s.setup)
    (permitted : u.permitted = s.permitted) (unserved : u.sensing.unserved = s.sensing.unserved) :
    (u.settleWith event).pictureStands := settleWith_stands (h.same peers setup permitted unserved) event

end

/-! ### The station line -/

section
variable {c : Instr} {s : State} (now : Time) (l : Line)

theorem pictures_attemptStart : Pictures (.attemptStart now l) :=
  pictures_same (fun _ => rfl) fun _ => samePicture_if fun _ => by
    unfold State.startAttempt
    split
    · exact samePicture_beside rfl
    · exact .refl _

theorem samePicture_placed {f : State → Attempt → State} (h : ∀ (u : State) (a : Attempt), SamePicture u (f u a))
    (place : Option Attempt) : SamePicture s (match place with
      | some a => f (s.takeAt now) a
      | none => s.takeAt now) := by
  cases place with
  | none => exact samePicture_takeAt s now
  | some a => exact (samePicture_takeAt s now).trans (h _ a)

theorem pictures_contentionLost : Pictures (.contentionLost now l) :=
  pictures_same (fun _ => rfl) fun _ => samePicture_placed now (f := fun u a => u.withLine l ((u.line l).loseContention a))
    (fun _ _ => samePicture_beside rfl) _

theorem pictures_txError (place : LineBit) : Pictures (.txError now place) :=
  pictures_same (fun _ => rfl) fun _ => samePicture_placed now (f := fun u a => u.txErrorOn place.line place.bit a)
    (fun _ _ => samePicture_beside rfl) _

theorem pictures_attemptSuccess : Pictures (.attemptSuccess now l) :=
  pictures_same (fun _ => rfl) fun _ => samePicture_placed now (f := fun u a => u.succeedOn l a)
    (fun _ _ => samePicture_beside rfl) _

theorem pictures_checkError (class_ : BitVec 3) (rx : Received) : Pictures (.checkError now l class_ rx) :=
  pictures_same (fun _ => rfl) fun _ => by
    split
    · exact samePicture_takeAt _ now
    · split
      · exact samePicture_beside rfl
      · exact samePicture_if fun _ => samePicture_beside rfl

/-- R19 to R21: a complete notice, by what its delivery comes to. -/
theorem pictures_receive {α : Type} (class_ : BitVec 3) (read : List Byte → Option α) (rx : Received)
    (deliver : State → Station → Time → α → State)
    (h : ∀ s, exec c s = .next ((s.takeAt now).receive l class_ read rx deliver))
    (delivered : ∀ (s : State) (k : Station) (start : Time) (x : α), s.pictureStands →
      (deliver (s.noticed now l k start (fun p => p) []) k start x).pictureStands) : Pictures c :=
  pictures_of h fun s p => by
    rcases receive_cases (s.takeAt now) l class_ read rx deliver with
      e | e | e | e | ⟨-, e⟩ | ⟨x, -, -, -, -, e⟩ <;> rw [e]
    · exact takeAt_stands p now
    · exact (samePicture_beside rfl : SamePicture s _).stands p
    · exact (samePicture_beside rfl : SamePicture s _).stands p
    · exact (samePicture_beside rfl : SamePicture s _).stands p
    · exact (samePicture_beside rfl : SamePicture s _).stands p
    · rw [heardFrom_eq]
      exact delivered s _ _ x p

/-- R24, R27: the entries after a notice and a further change of the sender's are settled. -/
theorem noticed_settled (p : s.pictureStands) (k : Station) (start : Time) {f : Peer → Peer} (fs : List Filing)
    (h : ∀ q : Peer, q.presence = .present → (f q).presence = .present) (j : Station) :
    ((s.noticed now l k start f fs).peers[j]).settled :=
  peers_change (k := k) (f := fun q => f (q.hear l start)) (v := s.peers) (p := fun x y : Peer => x.settled → y.settled)
    (fun _ => id) (fun _ => .inl (h _ rfl)) j (p.peers j)

theorem pictures_callNotice (rx : Received) : Pictures (.callNotice now l rx) :=
  pictures_receive now l classCall readCall? rx _ (fun _ => rfl) fun s k start z p => by
    rw [deliverCall_noticed]
    exact settle_stands (afterHearing_sourced (noticed_settled now l p k start _ fun _ e => e))

theorem pictures_sparkNotice (rx : Received) : Pictures (.sparkNotice now l rx) :=
  pictures_receive now l classSpark SparkPayload.read? rx _ (fun _ => rfl) fun s k start x p => by
    have heard := afterHearing_sourced (noticed_settled now l p k start (f := fun q => q) [] fun _ e => e)
    rw [release_eq]
    exact settleWith_same_stands heard _ rfl rfl rfl rfl

theorem deliverState_noticed (s : State) (k : Station) (start : Time) (x : StateContent) :
    (s.noticed now l k start (fun p => p) []).deliverState k start x =
      s.noticed now l k start (Peer.takeState start x) [] := by
  simp only [State.deliverState, State.noticed, change_change]

theorem pictures_stateNotice (rx : Received) : Pictures (.stateNotice now l rx) :=
  pictures_receive now l classState StateContent.read? rx _ (fun _ => rfl) fun s k start x p => by
    rw [deliverState_noticed]
    have heard := afterHearing_sourced (noticed_settled now l p k start (f := Peer.takeState start x) [] fun _ e => e)
    exact settle_stands (heard.same rfl rfl rfl rfl)

theorem storePress_picturedAs (p : Peer) (key : KeyKind) (count : Byte) : p.PicturedAs (p.storePress key count) := by
  cases key <;> exact ⟨id, fun _ => rfl, fun _ => rfl, rfl, rfl⟩

/-- R42: the sender's stored press count and a record change nothing that the picture reads. -/
theorem samePicture_stored (s : State) (k : Station) (key : KeyKind) (count : Byte) (r : EventRecord) :
    SamePicture s { s with peers := change s.peers k fun p => p.storePress key count, record := r } where
  started := rfl
  setup := rfl
  call := rfl
  heat := rfl
  own := rfl
  storm _ := rfl
  peers := peers_change .refl (storePress_picturedAs _ key count)
  served h := by
    refine h.trans (congrArg (fun f => (indexes 4).any f) (funext fun c => ?_))
    refine congrArg (fun b => s.channelActive c && !b) (congrArg (fun f => (indexes 32).any f) (funext fun j => ?_))
    refine congrArg (fun b => j ≠ 0 && (s.setup.channels[c]).serving.getLsbD j.val && b) ?_
    have presence := peers_change (k := k) (f := fun p => p.storePress key count) (v := s.peers)
      (p := fun x y : Peer => y.presence = x.presence) (fun _ => rfl) (by cases key <;> rfl) j
    simp only [State.servingPresent, State.hasValve, presence]
  zones := rfl
  views := rfl
  flood := rfl
  fan := ⟨rfl, rfl⟩
  conditions := rfl
  trouble _ := rfl

theorem takeKey_stands (p : s.pictureStands) (key : KeyKind) : (s.takeKey key).pictureStands := by
  cases key with
  | silence => exact ((samePicture_silence s).trans (samePicture_fillOnChange _)).stands p
  | reset => exact takeReset_stands p.sourced

theorem pictures_keyNotice (rx : Received) : Pictures (.keyNotice now l rx) :=
  pictures_receive now l classKey readKey? rx _ (fun _ => rfl) fun s k start n p => by
    have heard := (samePicture_noticed s now l k start [] Peer.PicturedAs.refl).stands p
    refine (samePicture_fillOnChange _).stands ?_
    unfold State.deliverKey
    split
    · exact heard
    · exact takeKey_stands ((samePicture_stored _ k n.1 n.2 _).stands heard) n.1

theorem pictures_peerLost (k : Station) : Pictures (.peerLost now k) :=
  pictures_settles (now := now) (event := fun _ => []) (fun _ => rfl) fun s h _ => by
    have lost : ∀ j : Station, (((s.takeAt now).withLost k).peers[j]).settled := fun j =>
      peers_change (v := s.peers) (p := fun x y : Peer => x.settled → y.settled) (fun _ => id) (fun _ => .inr ⟨rfl, rfl⟩) j
        (h.peers j)
    exact (afterHearing_sourced lost).same rfl rfl rfl rfl

theorem pictures_singleLine (k : Station) : Pictures (.singleLine now k) :=
  pictures_same (f := fun s => match ((s.takeAt now).peers[k]).singleTest now with
      | some m => { s.takeAt now with
          peers := change s.peers k fun p => { p with single := some m }, flags := s.flags ||| Attention.singleLine.mask }
      | none => s.takeAt now) (fun _ => rfl) fun s => by
    split
    · rename_i m _
      have presence (j : Station) : ((change s.peers k fun p => { p with single := some m })[j]).presence =
          (s.peers[j]).presence :=
        peers_change (v := s.peers) (p := fun x y : Peer => y.presence = x.presence) (fun _ => rfl) rfl j
      exact
        { started := rfl, setup := rfl, call := rfl, heat := rfl, own := rfl, storm := fun _ => rfl
          peers := peers_change .refl ⟨id, fun _ => rfl, fun _ => rfl, rfl, rfl⟩
          served := fun h => h.trans (by
            simp only [State.anyUnserved, State.channelActive, State.served, State.servingPresent, State.hasValve, presence]
            rfl)
          zones := rfl, views := rfl, flood := rfl, fan := ⟨rfl, rfl⟩, conditions := rfl, trouble := fun _ => rfl }
    · exact samePicture_takeAt s now

end

end Sys2Proof.Machine
end

section
/-! SUPPORT. The derived picture through the keys, the heat input, the channels, the valves, the extraction controller, the
barriers, the sirens and the supply. -/

namespace Sys2Proof.Machine

/-! ### Keys, heat and channels -/

section
variable {c : Instr} {s : State} (now : Time)

theorem pictures_callPress : Pictures (.callPress now) :=
  pictures_settles (now := now) (event := fun _ => []) (fun _ => rfl) fun _ h _ => h.same rfl rfl rfl rfl

theorem pictures_callRelease : Pictures (.callRelease now) :=
  pictures_settles (now := now) (event := fun _ => []) (fun _ => rfl) fun _ h _ => h.same rfl rfl rfl rfl

theorem pictures_heatInputChange (active : Bool) : Pictures (.heatInputChange now active) :=
  pictures_settles (now := now) (event := fun _ => []) (fun _ => rfl) fun _ h _ => h.same rfl rfl rfl rfl

theorem samePicture_counted (s : State) (key : KeyKind) : SamePicture s (s.counted key) := by
  cases key <;> exact samePicture_beside rfl

/-- R41: a counted key: its press, its effect and the KEY slots. -/
theorem keyPress_stands (p : s.pictureStands) (key : KeyKind) : (s.keyPress key).pictureStands := by
  refine (samePicture_beside rfl : SamePicture ((s.counted key).takeKey key) _).stands ?_
  exact takeKey_stands ((samePicture_counted s key).stands p) key

theorem pictures_keyPress (key : KeyKind)
    (h : ∀ s, exec c s = .next (if (s.takeAt now).started then (s.takeAt now).keyPress key else s.takeAt now)) : Pictures c :=
  pictures_of h fun s p => by
    split
    · exact keyPress_stands (takeAt_stands p now) key
    · exact takeAt_stands p now

/-- R116: a START press leaves the entries, the configuration, the start phase and the unserved field. -/
theorem startFan_sourced (h : s.sourced) : s.startFan.sourced := by
  rcases startFan_cases s with e | e | ⟨-, -, e⟩ <;> rw [e]
  · exact h
  · exact h.same rfl rfl rfl rfl
  · have begun : s.begun.sourced := h.same rfl rfl rfl rfl
    exact begun.keeps (phaseChanged_consumes s.begun).toKeeps

theorem pictures_startPress : Pictures (.startPress now) :=
  pictures_of (f := fun s => if (s.takeAt now).started then
      (if ({ s.takeAt now with inputs := { s.inputs with start := .settled true } } : State).takesFanKeys then
        ({ s.takeAt now with inputs := { s.inputs with start := .settled true } } : State).startFan.settle
      else { s.takeAt now with inputs := { s.inputs with start := .settled true } })
    else s.takeAt now) (fun _ => rfl) fun s p => by
    have pressed := pictureStands_pressed now p (.settled true)
    split
    · split
      · exact settle_stands (startFan_sourced pressed.sourced)
      · exact pressed
    · exact takeAt_stands p now

theorem pictures_stopPress : Pictures (.stopPress now) :=
  pictures_of (f := fun s => if (s.takeAt now).started then
      (if ({ s.takeAt now with inputs := { s.inputs with stop := .settled true } } : State).takesFanKeys then
        ({ s.takeAt now with inputs := { s.inputs with stop := .settled true } } : State).settleWith [.stopKey]
      else { s.takeAt now with inputs := { s.inputs with stop := .settled true } })
    else s.takeAt now) (fun _ => rfl) fun s p => by
    have pressed : ({ s.takeAt now with inputs := { s.inputs with stop := .settled true } } : State).pictureStands :=
      (samePicture_beside rfl : SamePicture s _).stands p
    split
    · split
      · exact settleWith_stands pressed.sourced _
      · exact pressed
    · exact takeAt_stands p now

variable (k : Channel)

theorem samePicture_pin (s : State) (level : Bool) : SamePicture s ((s.takeAt now).setSparkPin k level) :=
  samePicture_beside rfl

theorem pictures_sensorPulseStart : Pictures (.sensorPulseStart now k) :=
  pictures_same (fun _ => rfl) fun s => by
    have pin := samePicture_pin now k s true
    split
    · exact pin.trans (samePicture_channel _ k _ (by split <;> rfl))
    · exact pin

theorem samePicture_flagged (s : State) (set : Bool) {x : SparkChannel} (h : x.storm.isSome = (s.channel k).storm.isSome) :
    SamePicture s (s.changeFlags k set x).fillOnChange :=
  (samePicture_changeFlags s k set x h).trans (samePicture_fillOnChange _)

theorem samePicture_noisePulse (s : State) : SamePicture s (s.noisePulse k) := by
  refine SamePicture.trans ?_ (samePicture_fillOnChange _)
  split
  · exact samePicture_changeFlags s k true _ rfl
  · exact samePicture_channel s k _ rfl

theorem samePicture_testPulse (s : State) : SamePicture s (s.testPulse k) := by
  refine SamePicture.trans ?_ (samePicture_fillOnChange _)
  split
  · exact samePicture_changeFlags s k false _ rfl
  · exact samePicture_channel s k _ rfl

theorem sparkAtChannel_sourced (h : s.sourced) : (s.sparkAtChannel k).sourced := by
  unfold State.sparkAtChannel
  simp only
  split
  · exact h.same rfl rfl rfl rfl
  · exact h.same rfl rfl rfl rfl

/-- R49: a spark, whose consequences are settled. -/
theorem spark_stands (p : s.pictureStands) (pulse : Time) : (s.spark k pulse).pictureStands := by
  have taken : ((s.sparkAtChannel k).restartWatch.sparkSlots k pulse).sourced :=
    (sparkAtChannel_sourced k p.sourced).same rfl rfl rfl rfl
  unfold State.spark State.handOff
  split
  · rw [release_eq]
    exact settleWith_same_stands taken _ rfl rfl rfl rfl
  · exact settleWith_stands taken _

theorem pulseEnd_stands (p : s.pictureStands) (width : Nat) : (s.pulseEnd k width).pictureStands := by
  have low (u : State) (h : u.pictureStands) : (u.lowBegins k).pictureStands :=
    (samePicture_channel u k { u.channel k with lowSince := some u.clock } rfl).stands h
  unfold State.pulseEnd
  split
  · exact low s p
  · split
    · unfold State.classify
      repeat' split
      · exact (samePicture_channel s k { s.channel k with pulse := none } rfl).stands p
      · exact spark_stands k p _
      · exact (samePicture_noisePulse k s).stands p
      · exact (samePicture_testPulse k s).stands p
      · exact (samePicture_noisePulse k s).stands p
      · exact low _ ((samePicture_flagged k s true (x := { s.channel k with
          pulse := none, blinded := true, lowSince := none }) rfl).stands p)
    · exact p

theorem pictures_sensorPulseEnd (width : Nat) : Pictures (.sensorPulseEnd now k width) :=
  pictures_of (fun _ => rfl) fun s p => by
    have pin := (samePicture_pin now k s false).stands p
    split
    · exact pulseEnd_stands k pin width
    · exact pin

theorem pictures_blinded : Pictures (.blinded now k) :=
  pictures_same (fun _ => rfl) fun _ => samePicture_if fun _ => samePicture_flagged k _ true rfl

theorem pictures_blindedClear : Pictures (.blindedClear now k) :=
  pictures_same (fun _ => rfl) fun _ => samePicture_if fun _ => samePicture_flagged k _ false rfl

theorem pictures_silent : Pictures (.silent now k) :=
  pictures_same (fun _ => rfl) fun _ => samePicture_if fun _ => samePicture_flagged k _ true rfl

theorem pictures_bucketBoundary : Pictures (.bucketBoundary now) :=
  pictures_settles (now := now) (event := fun _ => []) (fun _ => rfl) fun _ h _ => h.same rfl rfl rfl rfl

theorem pictures_escalated : Pictures (.escalated now) :=
  pictures_of (fun _ => rfl) fun s p => by
    have p := takeAt_stands p now
    split
    · split
      · exact settle_stands (p.sourced.same rfl rfl rfl rfl)
      · exact p
    · exact p

theorem pictures_watchHoldExpiry : Pictures (.watchHoldExpiry now) :=
  pictures_settles (now := now) (event := fun _ => []) (fun _ => rfl) fun _ h _ => h.same rfl rfl rfl rfl

end

/-! ### Valves -/

section
variable {s : State} (now : Time) (o : Output)

theorem samePicture_openValve (s : State) : SamePicture s (s.openValve o) := by
  unfold State.openValve
  split
  · exact samePicture_valve s o (openIfDue_works ..).2
  · exact .refl s

theorem pictures_windowOpen : Pictures (.windowOpen now o) :=
  pictures_same (fun _ => rfl) fun s => (samePicture_takeAt s now).trans (samePicture_openValve o _)

theorem pictures_windowClose : Pictures (.windowClose now o) :=
  pictures_same (fun _ => rfl) fun s => samePicture_if fun _ => by
    refine SamePicture.trans (samePicture_valve _ o ?_) (samePicture_openValve o _)
    split
    · exact (endWindow_works ..).2
    · rfl

theorem samePicture_setFeedback (s : State) (active : Bool) : SamePicture s (s.setFeedback o active) := samePicture_beside rfl

theorem pictures_flowSwitchChange (active : Bool) : Pictures (.flowSwitchChange now o active) :=
  pictures_same (fun _ => rfl) fun s => samePicture_if fun _ => by
    have fed := samePicture_setFeedback o (s.takeAt now) active
    unfold State.flowChange
    split
    · exact fed.trans (samePicture_valve _ o (takeFlow_works ..).2)
    · exact fed

theorem pictures_confirmTimerExpiry : Pictures (.confirmTimerExpiry now o) :=
  pictures_settles (now := now) (event := fun _ => []) (fun _ => rfl) fun _ h _ => h.same rfl rfl rfl rfl

theorem pictures_cutOff : Pictures (.cutOff now o) :=
  pictures_settles (now := now) (event := fun _ => []) (fun _ => rfl) fun _ h _ => h.same rfl rfl rfl rfl

theorem pictures_valveStuck : Pictures (.valveStuck now o) :=
  pictures_settles (now := now) (event := fun _ => []) (fun _ => rfl) fun _ h _ => h.same rfl rfl rfl rfl

end

/-! ### The extraction controller -/

section
variable {s : State} (now : Time)

/-- A phase entered leaves the entries, the configuration, the start phase and the unserved field. -/
theorem State.sourced.enters (h : s.sourced) (e : Extraction) :
    ({ s with extraction := e } : State).phaseChanged.sourced := by
  have entered : ({ s with extraction := e } : State).sourced := h.same rfl rfl rfl rfl
  exact entered.keeps (phaseChanged_consumes _).toKeeps

theorem judgeSample_sourced (h : s.sourced) : s.judgeSample.sourced := by
  have good : s.judgeGood.sourced := by
    unfold State.judgeGood
    simp only
    generalize (if s.setup.extraction.floor ≤ s.extraction.velocity then s.extraction.goodCount + 1 else 0) = good
    split
    · exact h.enters _
    · exact h.same rfl rfl rfl rfl
  have stop (u : State) (h : u.sourced) : u.judgeStop.sourced := by
    unfold State.judgeStop
    simp only
    generalize (if u.extraction.velocity < u.setup.extraction.stop then u.extraction.stopCount + 1 else 0) = slow
    split
    · exact h.enters _
    · exact h.same rfl rfl rfl rfl
  have flow : s.judgeFlow.sourced := h.same rfl rfl rfl rfl
  unfold State.judgeSample
  split
  · exact good
  · exact stop _ flow
  · exact flow
  · exact flow
  · exact flow
  · exact flow

theorem pictures_sampleComplete : Pictures (.sampleComplete now) :=
  pictures_of (fun _ => rfl) fun s p => by
    have p := takeAt_stands p now
    cases (s.takeAt now).extraction.window with
    | none => exact p
    | some w =>
      simp only
      split
      · have sampled : ((s.takeAt now).takeSample w).sourced := p.sourced.same rfl rfl rfl rfl
        exact settleWith_same_stands (judgeSample_sourced sampled) _ rfl rfl rfl rfl
      · exact p

theorem pictures_periodicWindowStart : Pictures (.periodicWindowStart now) :=
  pictures_same (fun _ => rfl) fun _ => samePicture_if fun _ => samePicture_beside rfl

theorem pictures_startGraceExpiry : Pictures (.startGraceExpiry now) :=
  pictures_settles (now := now) (event := fun _ => [.startFail]) (fun _ => rfl) fun _ h _ => h.same rfl rfl rfl rfl

theorem pictures_gateTimerExpiry : Pictures (.gateTimerExpiry now) :=
  pictures_settles (now := now) (event := fun _ => []) (fun _ => rfl) fun s h _ => by
    have marked : ({ s.takeAt now with
        extraction := { (s.takeAt now).extraction with gateFail := true }
        flags := (s.takeAt now).flags ||| Attention.fanFault.mask } : State).sourced := h.same rfl rfl rfl rfl
    exact marked.enters _

theorem pictures_rundownLimitExpiry : Pictures (.rundownLimitExpiry now) :=
  pictures_settles (now := now) (event := fun _ => []) (fun _ => rfl) fun s h _ => by
    have marked : ({ s.takeAt now with
        extraction := { (s.takeAt now).extraction with rundownSlow := true }
        flags := (s.takeAt now).flags ||| Attention.fanFault.mask } : State).sourced := h.same rfl rfl rfl rfl
    exact marked.enters _

/-- R102: the mismatch timers are not read by the picture. -/
theorem samePicture_judgeMismatches (s : State) : SamePicture s s.judgeMismatches := by
  unfold State.judgeMismatches
  simp only
  split
  · exact samePicture_beside rfl
  · exact samePicture_beside rfl

theorem pictures_gateFeedbackChange (active : Bool) : Pictures (.gateFeedbackChange now active) :=
  pictures_of (fun _ => rfl) fun s p => by
    have p := takeAt_stands p now
    split
    · rename_i o _
      split
      · have judged := ((samePicture_setFeedback o _ active).trans (samePicture_judgeMismatches _)).stands p
        refine settle_stands ?_
        unfold State.endDiverting
        split
        · exact judged.sourced.enters _
        · exact judged.sourced
      · exact p
    · exact p

theorem pictures_runningContactChange (active : Bool) : Pictures (.runningContactChange now active) :=
  pictures_same (fun _ => rfl) fun s => by
    split
    · rename_i o _
      exact samePicture_if fun _ => (samePicture_setFeedback o _ active).trans (samePicture_judgeMismatches _)
    · exact samePicture_takeAt s now

theorem pictures_contactorMismatch : Pictures (.contactorMismatch now) :=
  pictures_same (fun _ => rfl) fun _ => samePicture_if fun _ => samePicture_beside rfl

theorem pictures_gateMismatch : Pictures (.gateMismatch now) :=
  pictures_same (fun _ => rfl) fun _ => samePicture_if fun _ => samePicture_beside rfl

end

/-! ### Barriers, sirens and supply -/

section
variable {s : State} (now : Time) (o : Output)

theorem samePicture_considered (s : State) : SamePicture s s.considerQueue.fillOnChange :=
  (samePicture_considerQueue s).trans (samePicture_fillOnChange _)

/-- R125 to R134: a barrier's feedback acts on barriers, records and a flag alone. -/
theorem samePicture_barrierFeedback (s : State) (active : Bool) : SamePicture s (s.barrierFeedback o active) := by
  unfold State.barrierFeedback State.motorFeedback State.magnetFeedback State.reopenMotor
  simp only
  repeat' split
  all_goals exact samePicture_beside rfl

theorem pictures_barrierFeedbackChange (active : Bool) : Pictures (.barrierFeedbackChange now o active) :=
  pictures_same (fun _ => rfl) fun s => samePicture_if fun _ => by
    have fed := samePicture_setFeedback o (s.takeAt now) active
    unfold State.barrierChange
    simp only
    split
    · exact (fed.trans (samePicture_barrierFeedback o _ active)).trans (samePicture_considered _)
    · exact fed

theorem pictures_travelTimerExpiry : Pictures (.travelTimerExpiry now o) :=
  pictures_same (fun _ => rfl) fun _ => samePicture_if fun _ => samePicture_beside rfl

theorem pictures_travelExhausted : Pictures (.travelExhausted now o) :=
  pictures_same (fun _ => rfl) fun _ => samePicture_if fun _ =>
    SamePicture.trans (samePicture_beside rfl) (samePicture_considered _)

theorem pictures_damperWaitExpiry : Pictures (.damperWaitExpiry now o) :=
  pictures_same (fun _ => rfl) fun _ => samePicture_if fun _ =>
    SamePicture.trans (samePicture_beside rfl) (samePicture_considered _)

theorem pictures_sirenFeedbackChange (active : Bool) : Pictures (.sirenFeedbackChange now o active) :=
  pictures_same (fun _ => rfl) fun _ => samePicture_if fun _ => samePicture_beside rfl

theorem pictures_sirenFault : Pictures (.sirenFault now o) :=
  pictures_same (fun _ => rfl) fun _ => samePicture_if fun _ => samePicture_beside rfl

theorem pictures_resoundTimerExpiry : Pictures (.resoundTimerExpiry now) :=
  pictures_same (fun _ => rfl) fun _ => samePicture_if fun _ => samePicture_beside rfl

theorem pictures_allClearEnd : Pictures (.allClearEnd now o) :=
  pictures_same (fun _ => rfl) fun _ => samePicture_if fun _ => samePicture_beside rfl

theorem samePicture_pauseRun (s : State) : SamePicture s s.pauseRun := by
  unfold State.pauseRun
  split
  · exact .refl s
  · exact samePicture_beside rfl

theorem samePicture_judgeSupply (s : State) : SamePicture s s.judgeSupply := by
  unfold State.judgeSupply
  split
  · split
    · exact SamePicture.trans (samePicture_beside rfl) (samePicture_considered _)
    · exact .refl s
  · split
    · split
      · exact SamePicture.trans (samePicture_beside rfl) ((samePicture_pauseRun _).trans (samePicture_considered _))
      · exact samePicture_beside rfl
    · exact samePicture_beside rfl

theorem pictures_supplySample (millivolts : Nat) : Pictures (.supplySample now millivolts) :=
  pictures_same (fun _ => rfl) fun _ => samePicture_if fun _ => by
    split
    · exact SamePicture.trans (samePicture_beside rfl) (samePicture_judgeSupply _)
    · exact samePicture_beside rfl

end

end Sys2Proof.Machine
end

section
/-! SUPPORT. The derived picture through the start sequencer, the ageing and the tick, and in every step (O57). -/

namespace Sys2Proof.Machine

/-! ### The start sequencer, the ageing and the tick -/

section
variable {c : Instr} {s t : State} (now : Time)

/-- LOAD left without a usable image, or a read tried again: no source of the picture changes. -/
theorem samePicture_load (load : s.start.phase = .load) (started : t.started = false)
    (permitted : t.permitted = false)
    (same : t = { s with start := t.start, supply := t.supply, record := t.record }) : SamePicture s t := by
  have served : t.anyUnserved = s.anyUnserved :=
    anyUnserved_same (by rw [same]) (by rw [same]) (permitted.trans (permitted_of_load load).symm)
  exact
    { started := started.trans (started_of_load load).symm
      setup := by rw [same], call := by rw [same], heat := by rw [same], own := by rw [same], storm := fun _ => by rw [same]
      peers := fun _ => by rw [same]; exact .refl _
      served := fun h => by rw [served, ← h, same]
      zones := by rw [same], views := by rw [same], flood := by rw [same], fan := by rw [same]; exact ⟨rfl, rfl⟩
      conditions := by rw [same], trouble := fun _ => by rw [same] }

theorem pictures_imageReadFailed : Pictures (.imageReadFailed now) :=
  pictures_same (fun _ => rfl) fun s => samePicture_if fun h => by
    have load := reading_phase h
    unfold State.failRead
    split
    · exact samePicture_beside rfl
    · exact samePicture_load load rfl rfl rfl

/-- R62: without permission no channel is active, so none is unserved. -/
theorem anyUnserved_waits (h : s.permitted = false) : s.anyUnserved = false :=
  List.any_eq_false.mpr fun c _ => by rw [State.channelActive, h]; exact Bool.false_ne_true

theorem listening_sourced (image : List Byte) (load : s.start.phase = .load) (h : s.sourced) : (s.listening image).sourced where
  peers := h.peers
  unserved := by
    have before : s.anyUnserved = false := anyUnserved_waits (permitted_of_load load)
    have after_ : (s.listening image).anyUnserved = false := anyUnserved_waits rfl
    rw [after_, ← before]
    exact h.unserved

theorem pictures_imageReadComplete (image : List Byte) : Pictures (.imageReadComplete now image) :=
  pictures_of (fun _ => rfl) fun s p => by
    have p := takeAt_stands p now
    split
    · rename_i h
      simp only [Bool.and_eq_true] at h
      have load := reading_phase h.1.1
      unfold State.completeRead
      split
      · rw [enterListen_eq]
        exact settle_stands (listening_sourced image load p.sourced)
      · exact (samePicture_load (s := s.takeAt now) load rfl rfl rfl).stands p
    · exact p

/-- R45: the channels that begin keep their storms, and R62 judges the unserved field. -/
theorem samePicture_enterSettle (listen : s.start.phase = .listen) : SamePicture s s.enterSettle where
  started := by simp only [State.started, listen]; rfl
  setup := rfl
  call := rfl
  heat := rfl
  own := rfl
  storm k := by
    have begun : s.enterSettle.sensing.channels[k] =
        if s.setup.channels[k].enabled && s.inputs.spark[k] then { s.sensing.channels[k] with pulse := some s.clock }
        else s.sensing.channels[k] := tabulate_at _ k
    rw [begun]
    split <;> rfl
  peers _ := .refl _
  served _ := rfl
  zones := rfl
  views := rfl
  flood := rfl
  fan := by
    rw [enterSettle_extraction, judgeMode_sets]
    exact ⟨rfl, rfl⟩
  conditions := by rw [enterSettle_extraction, judgeMode_sets]
  trouble _ := rfl

theorem pictures_listenEnd : Pictures (.listenEnd now) :=
  pictures_same (fun _ => rfl) fun _ => samePicture_if fun h => samePicture_enterSettle (phaseDue_phase h)

theorem enterOperating_sourced (settle : s.start.phase = .settle) (h : s.sourced) :
    (({ s with start := { s.start with phase := .operating, phaseTimer := none }
      } : State).beginTests.beginValves.beginMismatches.armBarriers).formFireSeen.sourced :=
  h.same rfl rfl (by simp only [State.permitted, settle]; rfl) rfl

theorem pictures_settleEnd : Pictures (.settleEnd now) :=
  pictures_settles (now := now) (event := fun _ => []) (fun _ => rfl) fun _ h due =>
    enterOperating_sourced (phaseDue_phase due) h

/-- R149: ageing leaves what the picture reads. -/
theorem samePicture_mapInstants (s : State) (f : Instant → Instant) : SamePicture s (s.mapInstants f) where
  started := rfl
  setup := rfl
  call := rfl
  heat := rfl
  own := rfl
  storm k := by
    rw [show (s.mapInstants f).sensing.channels[k] = (s.sensing.channels[k]).mapInstants f from
      getElem_map_fin s.sensing.channels (SparkChannel.mapInstants f) k]
    exact Option.isSome_map
  peers k := by
    rw [mapInstants_peer]
    exact ⟨id, fun _ => rfl, fun _ => rfl, rfl, Option.isSome_map⟩
  served h := h.trans (by
    have presence (k : Station) : ((s.mapInstants f).peers[k]).presence = (s.peers[k]).presence := by
      rw [mapInstants_peer]; rfl
    simp only [State.anyUnserved, State.channelActive, State.served, State.servingPresent, State.hasValve, presence]
    rfl)
  zones := rfl
  views := rfl
  flood := rfl
  fan := ⟨rfl, rfl⟩
  conditions := rfl
  trouble o := by
    rw [show (s.mapInstants f).valves[o] = (s.valves[o]).mapInstants f from
      getElem_map_fin s.valves (Valve.mapInstants f) o]
    rfl

theorem pictures_instantAged : Pictures (.instantAged now) :=
  pictures_same (fun _ => rfl) fun _ => samePicture_if fun _ =>
    (samePicture_mapInstants _ _).trans (samePicture_beside rfl)

theorem restarted_stands (s : State) : s.restarted.pictureStands :=
  (samePicture_beside rfl : SamePicture State.reset s.restarted).stands reset_pictureStands

end

/-! ## Every step -/

theorem pictures_command (c : Instr) : Pictures c := by
  cases c with
  | powerOn => exact pictures_of exec_powerOn fun s _ => restarted_stands s
  | imageReadFailed now => exact pictures_imageReadFailed now
  | imageReadRetry _ =>
    exact pictures_same (fun _ => rfl) fun _ => samePicture_if fun _ => samePicture_beside rfl
  | imageReadComplete now image => exact pictures_imageReadComplete now image
  | listenEnd now => exact pictures_listenEnd now
  | settleEnd now => exact pictures_settleEnd now
  | attemptStart now line => exact pictures_attemptStart now line
  | contentionLost now line => exact pictures_contentionLost now line
  | txError now place => exact pictures_txError now place
  | attemptSuccess now line => exact pictures_attemptSuccess now line
  | probeTimerExpiry _ _ =>
    exact pictures_same (fun _ => rfl) fun _ => samePicture_if fun _ => samePicture_beside rfl
  | stateRoundHoldClear _ _ => exact pictures_same (fun _ => rfl) fun _ => samePicture_beside rfl
  | stateIntervalExpiry _ =>
    exact pictures_same (fun _ => rfl) fun _ => samePicture_if fun _ => samePicture_beside rfl
  | receiveFramingError _ _ =>
    exact pictures_same (fun _ => rfl) fun _ => samePicture_if fun _ => samePicture_beside rfl
  | noticeLengthError _ _ _ =>
    exact pictures_same (fun _ => rfl) fun _ => samePicture_if fun _ => samePicture_beside rfl
  | callNotice now line rx => exact pictures_callNotice now line rx
  | sparkNotice now line rx => exact pictures_sparkNotice now line rx
  | keyNotice now line rx => exact pictures_keyNotice now line rx
  | stateNotice now line rx => exact pictures_stateNotice now line rx
  | lineQuiet _ _ => exact pictures_same (fun _ => rfl) fun _ => samePicture_beside rfl
  | peerLost now peer => exact pictures_peerLost now peer
  | singleLine now peer => exact pictures_singleLine now peer
  | callPress now => exact pictures_callPress now
  | callRelease now => exact pictures_callRelease now
  | heatInputChange now active => exact pictures_heatInputChange now active
  | silencePress now => exact pictures_keyPress now .silence fun _ => rfl
  | resetPress now => exact pictures_keyPress now .reset fun _ => rfl
  | startPress now => exact pictures_startPress now
  | stopPress now => exact pictures_stopPress now
  | sensorPulseStart now channel => exact pictures_sensorPulseStart now channel
  | sensorPulseEnd now channel width => exact pictures_sensorPulseEnd now channel width
  | blinded now channel => exact pictures_blinded now channel
  | blindedClear now channel => exact pictures_blindedClear now channel
  | bucketBoundary now => exact pictures_bucketBoundary now
  | escalated now => exact pictures_escalated now
  | watchHoldExpiry now => exact pictures_watchHoldExpiry now
  | silent now channel => exact pictures_silent now channel
  | windowOpen now output => exact pictures_windowOpen now output
  | windowClose now output => exact pictures_windowClose now output
  | flowSwitchChange now output active => exact pictures_flowSwitchChange now output active
  | confirmTimerExpiry now output => exact pictures_confirmTimerExpiry now output
  | cutOff now output => exact pictures_cutOff now output
  | valveStuck now output => exact pictures_valveStuck now output
  | flowPulse _ => exact pictures_same (fun _ => rfl) fun _ => samePicture_beside rfl
  | sampleComplete now => exact pictures_sampleComplete now
  | periodicWindowStart now => exact pictures_periodicWindowStart now
  | startGraceExpiry now => exact pictures_startGraceExpiry now
  | gateFeedbackChange now active => exact pictures_gateFeedbackChange now active
  | gateTimerExpiry now => exact pictures_gateTimerExpiry now
  | rundownLimitExpiry now => exact pictures_rundownLimitExpiry now
  | runningContactChange now active => exact pictures_runningContactChange now active
  | contactorMismatch now => exact pictures_contactorMismatch now
  | gateMismatch now => exact pictures_gateMismatch now
  | barrierFeedbackChange now output active => exact pictures_barrierFeedbackChange now output active
  | travelTimerExpiry now output => exact pictures_travelTimerExpiry now output
  | travelExhausted now output => exact pictures_travelExhausted now output
  | damperWaitExpiry now output => exact pictures_damperWaitExpiry now output
  | sirenFeedbackChange now output active => exact pictures_sirenFeedbackChange now output active
  | sirenFault now output => exact pictures_sirenFault now output
  | cadenceLevelChange _ => exact pictures_same (fun _ => rfl) fun _ => samePicture_beside rfl
  | resoundTimerExpiry now => exact pictures_resoundTimerExpiry now
  | allClearEnd now output => exact pictures_allClearEnd now output
  | supplySample now millivolts => exact pictures_supplySample now millivolts
  | status _ _ => exact pictures_same (fun _ => rfl) fun _ => samePicture_beside rfl
  | zones _ _ => exact pictures_same (fun _ => rfl) fun _ => samePicture_beside rfl
  | peer _ _ => exact pictures_same (fun _ => rfl) fun _ => samePicture_beside rfl
  | valve _ _ => exact pictures_same (fun _ => rfl) fun _ => samePicture_beside rfl
  | barriers _ _ => exact pictures_same (fun _ => rfl) fun _ => samePicture_beside rfl
  | sirens _ _ => exact pictures_same (fun _ => rfl) fun _ => samePicture_beside rfl
  | fan _ _ => exact pictures_same (fun _ => rfl) fun _ => samePicture_beside rfl
  | counters _ _ => exact pictures_same (fun _ => rfl) fun _ => samePicture_beside rfl
  | takeRecord _ _ => exact pictures_same (fun _ => rfl) fun _ => samePicture_beside rfl
  | takeRecordComplete _ => exact pictures_same (fun _ => rfl) fun _ => samePicture_beside rfl
  | unknown _ _ _ => exact pictures_same (fun _ => rfl) fun _ => samePicture_beside rfl
  | lineIdle _ _ =>
    exact pictures_same (fun _ => rfl) fun _ => samePicture_if fun _ => samePicture_beside rfl
  | checkError now line class_ rx => exact pictures_checkError now line class_ rx
  | instantAged now => exact pictures_instantAged now

theorem pictureStands_step {s t : State} (hs : s.pictureStands) (h : step s = .next t) : t.pictureStands := by
  unfold step at h
  split at h
  · rename_i c rest _
    exact pictures_command c _ t ((samePicture_beside rfl : SamePicture s (s.withPending rest)).stands hs) h
  · cases h
    exact (samePicture_beside rfl : SamePicture s s.tick).stands hs

theorem higher_cases (x y : Level) : x.higher y = x ∨ x.higher y = y := by
  cases x <;> cases y <;> decide

/-- Settles O57: every command brings the picture to stand or leaves what it reads; a zone level is the higher of its two. -/
theorem pictureStands : Obligations.PictureStands :=
  ⟨fun _ _ => pictureStands_step, fun s z _ =>
    have above := higher_code s.zones.live[z] s.zones.latched[z]
    ⟨above.1, above.2, higher_cases s.zones.live[z] s.zones.latched[z]⟩⟩

end Sys2Proof.Machine
end

section
/-! SUPPORT. What a peer entry hears, power-on, and the commands that recompose the own level: CALL, heat and the channel
timers (O4, O18, O27, O36). -/

namespace Sys2Proof.Machine

/-- Settles O4: the restarted station is the one at power-on but for the pins and the queue, with every input inactive. -/
theorem powerOnRestarts : Obligations.PowerOnRestarts := fun s =>
  ⟨s.restarted, exec_powerOn s, (restarted_dormant s).inactive, rfl⟩

/-- Settles O18: the line decides which hearing is renewed, and the presence before what the entry gains. -/
theorem peerIsHeard : Obligations.PeerIsHeard := fun p l start => by
  refine ⟨?_, ?_, ?_, ?_, rfl, rfl, rfl, rfl, rfl, rfl, rfl⟩
  · cases l <;> exact ⟨rfl, rfl, rfl⟩
  all_goals
    intro presence
    simp [Peer.hear, presence, Instant.of]

/-! ## The own level after an event (R29, R30) -/

section
variable {s : State}

theorem settle_own (s : State) : s.settle.own.level = s.composedLevel := settleWith_own s []

theorem composedLevel_call (started : s.started = true) (call : s.inputs.call.state = true) :
    s.composedLevel = .evacuate := by
  simp [State.composedLevel, started, call]

/-- R54: with the escalation latch the own level is at least FIRE. -/
theorem composedLevel_escalation (started : s.started = true) (latch : s.own.escalation = true) :
    s.composedLevel.atLeast .fire = true := by
  unfold State.composedLevel
  cases call : s.inputs.call.state <;> simp [started, latch] <;> rfl

/-- R55: without the watch hold the own level is not WATCH. -/
theorem composedLevel_watch (hold : s.own.watchHold = none) : s.composedLevel ≠ .watch := by
  simp only [State.composedLevel, hold, Option.isSome_none, Bool.false_eq_true, if_false]
  split_ifs <;> decide

end

/-! ## CALL and heat (R39, R40) -/

/-- Settles O27: each change of an input is debounced and everything that follows the own level is settled. -/
theorem callAndHeatInputs : Obligations.CallAndHeatInputs := by
  refine ⟨fun now s started idle => ?_, fun now s started pressed => ?_, fun now active s started other => ?_⟩
  · have taken : exec (.callPress now) s = .next (s.takeAt now).callActive.settle :=
      congrArg answer (if_pos (Bool.and_eq_true_iff.mpr ⟨started, by rw [Bool.not_eq_true']; exact idle⟩))
    exact ⟨_, taken, (settle_own _).trans (composedLevel_call (s := (s.takeAt now).callActive) started rfl),
      settle_settledFrom _⟩
  · have taken : exec (.callRelease now) s = .next (State.settle
        { s.takeAt now with inputs := { s.inputs with call := .settled false } }) :=
      congrArg answer (if_pos (Bool.and_eq_true_iff.mpr ⟨started, pressed⟩))
    exact ⟨_, taken, settle_settledFrom _⟩
  · have changed : ((s.takeAt now).started && (s.takeAt now).inputs.heat.state != active) = true := by
      rw [Bool.and_eq_true]
      exact ⟨started, by show (s.inputs.heat.state != active) = true; rw [other]; cases active <;> rfl⟩
    exact ⟨_, congrArg answer (if_pos changed), settle_settledFrom _⟩

/-! ## The channel timers (R54 to R56) -/

section
variable {s : State}

theorem due_reached {now d : Time} {timer : Option Time} (set : timer = some d) (h : reached now d = true) :
    due now timer = true := by
  rw [set]
  exact h

/-- R54: the lowest channel in storm. -/
theorem firstStorm_lowest {c : Channel} (storm : (s.channel c).storm.isSome = true)
    (lowest : ∀ d : Channel, d < c → (s.channel d).storm = none) : s.firstStorm = some c := by
  unfold State.firstStorm indexes
  rw [List.find?_eq_some_iff_getElem]
  refine ⟨storm, c.val, by simp, by simp, fun j before => ?_⟩
  rw [lowest _ (by rw [List.getElem_finRange]; exact before)]
  rfl

end

/-- Settles O36: at each deadline the timer's effect is settled, or filled when only the report can change. -/
theorem channelTimers : Obligations.ChannelTimers := by
  refine ⟨fun now deadline c s timer at_ storm lowest => ?_, fun now deadline s timer at_ => ?_,
    fun now deadline c s timer at_ => ?_⟩
  · have first : (s.takeAt now).firstStorm = some c := firstStorm_lowest (s := s.takeAt now) storm lowest
    have taken : exec (.escalated now) s = .next ((s.takeAt now).escalate c) :=
      congrArg answer ((if_pos (due_reached timer at_)).trans (by rw [first]))
    refine ⟨_, taken, settle_settledFrom _, fun started => ?_⟩
    rw [State.escalate, settle_own]
    exact composedLevel_escalation started rfl
  · refine ⟨_, congrArg answer (if_pos (due_reached timer at_)), settle_settledFrom _, ?_⟩
    rw [settle_own]
    exact composedLevel_watch rfl
  · exact ⟨_, congrArg answer (if_pos (due_reached timer at_)), fillOnChange_refilledFrom _⟩

end Sys2Proof.Machine
end

section
/-! SUPPORT. What a SILENCE taken comes to (R44, R143), and a SILENCE press (O28). -/

namespace Sys2Proof.Machine

section
variable (s : State)

/-- R143: the claims silenced and the resound timer restarted, before the patterns are chosen again. -/
def State.silencedClaims : State :=
  { s with sirens :=
      { s.sirens with
        units := s.mapSirens fun _ u => u.silence
        resound := if s.setup.resound = 0 then none else some (after s.clock (s.setup.resound * 1000)) } }

theorem silence_taken (h : s.operating = true) (h' : s.hasSiren = true) :
    s.silence = s.silencedClaims.choosePatterns :=
  if_pos (Bool.and_eq_true_iff.mpr ⟨h, h'⟩)

theorem silence_void (h : ¬(s.operating = true ∧ s.hasSiren = true)) : s.silence = s :=
  if_neg fun e => h (Bool.and_eq_true_iff.mp e)

theorem silence_frame : s.silence = { s with sirens := s.silence.sirens } := by
  by_cases h : s.operating = true ∧ s.hasSiren = true
  · rw [silence_taken s h.1 h.2]
    rfl
  · rw [silence_void s h]

theorem takeSilence_frame : s.takeSilence = { s with
    sirens := s.silence.sirens, lineA := s.takeSilence.lineA, lineB := s.takeSilence.lineB
    assembler := s.takeSilence.assembler } := by
  unfold State.takeSilence
  rw [fillOnChange_frame, silence_frame]

theorem mapSirens_unit (f : Output → Siren → Siren) (o : Output) :
    (s.mapSirens f)[o] = if (s.role o).isSiren then f o s.sirens.units[o] else s.sirens.units[o] :=
  tabulate_at _ o

/-- R138: a change of an output's claims, ALL_CLEAR claim and fire-seen flag. -/
theorem choosePatterns_unit_kept (o : Output) :
    s.choosePatterns.sirens.units[o].claims = s.sirens.units[o].claims ∧
      s.choosePatterns.sirens.units[o].allClear = s.sirens.units[o].allClear ∧
      s.choosePatterns.sirens.units[o].fault = s.sirens.units[o].fault ∧
      s.choosePatterns.sirens.units[o].fireSeen = s.sirens.units[o].fireSeen := by
  rw [choosePatterns_unit]
  split <;> exact ⟨rfl, rfl, rfl, rfl⟩

/-- R143: a silenced list keeps what an absence count reads. -/
theorem silencedClaims_unit (o : Output) : s.silencedClaims.sirens.units[o] =
    if (s.role o).isSiren then s.sirens.units[o].silence else s.sirens.units[o] := mapSirens_unit s _ o

/-- R44, R143: what a SILENCE taken comes to. -/
theorem takeSilence_silencedFrom : s.silencedFrom s.takeSilence := by
  have frame := takeSilence_frame s
  have silenced (h : s.operating = true) (h' : s.hasSiren = true) :
      s.takeSilence.sirens = s.silencedClaims.choosePatterns.sirens := by
    rw [frame, silence_taken s h h']
  refine
    { apart := ?apart
      own := by rw [frame], controllers := by rw [frame]; exact ⟨rfl, rfl, rfl, rfl, rfl, rfl⟩
      record := by rw [frame]; exact ⟨rfl, rfl⟩
      silenced := fun h h' o siren => ?claims
      chosen := fun h h' => ?chosen
      resound := fun h h' => ?resound
      other := fun h => ?other
      refills := ?refills
      report := fillOnChange_reportStands _ }
  case apart =>
    have silence : s.silence.apart = s.apart := by rw [silence_frame]; rfl
    exact (fillOnChange_consumes s.silence).apart.trans silence
  case claims =>
    obtain ⟨claims, allClear, fault, seen⟩ := choosePatterns_unit_kept s.silencedClaims o
    rw [silenced h h', claims, allClear, fault, seen, silencedClaims_unit, if_pos siren]
    exact ⟨rfl, rfl, rfl, rfl⟩
  case chosen =>
    have chosen : s.patternsChosen s.silencedClaims.choosePatterns :=
      patternsChosen_from (choosePatterns_chosen _) rfl rfl rfl rfl rfl rfl rfl fun o => by
        rw [silencedClaims_unit]
        split <;> exact ⟨rfl, rfl, rfl⟩
    unfold State.takeSilence
    rw [silence_taken s h h']
    exact patternsChosen_forth chosen (fillOnChange_consumes _) (by rw [fillOnChange_frame])
  case resound =>
    have kept := (choosePatterns_consumes s.silencedClaims).sirens.1
    rw [silenced h h', kept]
    rfl
  case other =>
    have void : ¬(s.operating = true ∧ s.hasSiren = true) := by
      rintro ⟨e, e'⟩
      rw [e, e'] at h
      simp at h
    rw [frame, silence_void s void]
  case refills =>
    exact refills_back (fillOnChange_refills s.silence) (by rw [silence_frame]; exact .refl s) (by rw [silence_frame])

end

theorem fillKey_silence (v : State) (count : Byte) : v.fillKey .silence count = { v with
    lineA := { v.lineA with slots := { v.lineA.slots with silence := some count } }
    lineB := { v.lineB with slots := { v.lineB.slots with silence := some count } } } := rfl

/-- Settles O28: the press is counted, the SILENCE taken, and the KEY slots filled with the count. -/
theorem silencePressed : Obligations.SilencePressed := fun now s started =>
  ⟨_, ((s.takeAt now).counted .silence).takeSilence, congrArg answer (if_pos started), takeSilence_silencedFrom _,
    fillKey_silence _ _⟩

end Sys2Proof.Machine
end

section
/-! SUPPORT. A STOP press (R44, R115, R117): the cause STOP_KEY and the phase that it brings (O31). -/

namespace Sys2Proof.Machine

section
variable {s u t : State}

/-- R95: with the picture standing, an event that leaves its sources leaves every flood state. -/
theorem front_flood (h : SameSources s u) (p : s.pictureStands) (flood : u.flood = s.flood)
    (own : (!u.extraction.phase.steady || u.extraction.lowFlow) = (!s.extraction.phase.steady || s.extraction.lowFlow))
    (d : System) : u.front.inFlood d = u.front.flood[d] := by
  obtain ⟨-, setup, peers, -, floods, extraction⟩ := front_fields u
  rw [inFlood_same (s := s) (u := u.front) (front_views h p) (setup.trans h.setup) (peers.trans h.peers)
    (by rw [extraction]; exact own) d, floods, flood, p.flood]
  exact (tabulate_at s.inFlood d).symm

/-- R113, R115: causes that come with no condition are raised alone. -/
theorem judgeCauses_event (h : s.conditionsNow = s.extraction.conditions) (event : List Cause) :
    s.judgeCauses event = s.raiseCauses event := by
  unfold State.judgeCauses
  rw [h, arisen_self, List.nil_append]

theorem judgeCauses_first (h : ¬(s.extraction.phase = .starting ∨ s.extraction.phase = .running)) :
    (s.judgeCauses []).extraction.first = s.extraction.first := by
  rw [judgeCauses_again s fun e => absurd e h]

theorem judgeSampler_first (s : State) : s.judgeSampler.extraction.first = s.extraction.first := by
  show (s.extraction.judgeMode s.clock s.samplerMode).first = s.extraction.first
  rw [judgeMode_sets]

/-- R115: in STARTING and RUNNING the first cause of an event that brings no condition is the first cause of the stop. -/
theorem judgeExtraction_first {c : Cause} {cs : List Cause} (flood : ∀ d : System, s.inFlood d = s.flood[d])
    (conditions : s.conditionsNow = s.extraction.conditions)
    (phase : s.extraction.phase = .starting ∨ s.extraction.phase = .running) :
    (s.judgeExtraction (c :: cs)).extraction.first = some c := by
  have made := enterDiverting_made { s with extraction :=
    { s.extraction with causes := addCauses s.extraction.causes (c :: cs), first := some c } }
  unfold State.judgeExtraction
  rw [judgeFlood_still flood, judgeCauses_event conditions, raiseCauses_diverting s c cs phase]
  generalize State.enterDiverting _ = w at made ⊢
  have stopped : ¬(w.extraction.phase = .starting ∨ w.extraction.phase = .running) := by
    rw [made.phase]
    split <;> simp
  rw [judgeSampler_first, judgeCauses_first stopped, made.kept.2.1]

end

/-- R44: the STOP key debounced active. -/
def State.stopDown (s : State) (now : Time) : State :=
  { s.takeAt now with inputs := { s.inputs with stop := .settled true } }

theorem stopDown_sources (s : State) (now : Time) : SameSources s (s.stopDown now) where
  start := rfl
  setup := rfl
  peers := rfl
  own := rfl
  sensing := rfl
  zones := rfl
  views := rfl
  valves := rfl
  call := rfl
  heat := rfl
  conditions := rfl

theorem exec_stopPress {s : State} (now : Time) (started : s.started = true) : exec (.stopPress now) s =
    .next (if s.operating && s.hasFan then (s.stopDown now).settleWith [.stopKey] else s.stopDown now) :=
  congrArg answer (if_pos started)

theorem settleWith_extraction (s : State) (event : List Cause) :
    (s.settleWith event).extraction = (s.front.judgeExtraction event).extraction := by
  rw [settleWith_front, consumers_extraction]

/-- R115: with the picture standing STOP_KEY is the first cause of the stop. -/
theorem stopDown_first {s : State} (now : Time) (p : s.pictureStands)
    (phase : s.extraction.phase = .starting ∨ s.extraction.phase = .running) :
    ((s.stopDown now).settleWith [.stopKey]).extraction.first = some .stopKey := by
  have sources := stopDown_sources s now
  obtain ⟨-, -, -, -, -, extraction⟩ := front_fields (s.stopDown now)
  rw [settleWith_extraction]
  exact judgeExtraction_first (front_flood sources p rfl rfl) (by rw [front_conditions sources p, extraction]; rfl)
    (by rw [extraction]; exact phase)

/-- Settles O31: STOP_KEY is an event cause, and what it brings is read off the settling of the fan. -/
theorem stopPressed : Obligations.StopPressed := by
  intro now s started
  refine ⟨fun idle => ?_, fun operating fan => ?_⟩
  · rw [exec_stopPress now started, if_neg (by rw [Bool.and_eq_true]; rintro ⟨o, f⟩; simp [o, f] at idle)]
    rfl
  · rw [exec_stopPress now started, if_pos (Bool.and_eq_true_iff.mpr ⟨operating, fan⟩)]
    have settled := settleWith_settledFrom (s.stopDown now) [.stopKey]
    have first := fun p phase => stopDown_first (s := s) now p phase
    generalize (s.stopDown now).settleWith [.stopKey] = t at settled first ⊢
    have still : t.extraction.phase = s.extraction.phase → t.extraction.first = s.extraction.first :=
      fun e => (settled.fan.still e).1
    obtain ⟨c, -, -, -, -, causes, moved, -⟩ := settled.fan.causes
    have resting (e : ¬(s.extraction.phase = .starting ∨ s.extraction.phase = .running)) :
        t.extraction.phase = s.extraction.phase := moved.trans (if_neg fun h => e h.1)
    refine ⟨t, rfl, settled, fun standby => ?_, fun other => ?_, fun going => ?_, fun ended => ?_⟩
    · have same := resting (by rw [standby]; simp)
      exact ⟨same.trans standby, causes.trans (if_pos standby), still same⟩
    · exact (fanSettles_event settled.fan .stopKey (List.mem_singleton_self _) other).1
    · exact ⟨moved.trans (if_pos ⟨going, by simp⟩), fun p => first p going⟩
    · have same := resting (by rcases ended with e | e | e <;> rw [e] <;> simp)
      exact ⟨same, still same⟩

end Sys2Proof.Machine
end

section
/-! SUPPORT. Consequences that find the derived picture as it stands leave it so (R29 to R38, R95, R113), and a START press
(R44, R106, R108, R116; O30). -/

namespace Sys2Proof.Machine

section
variable {s u t : State}

/-! ## Consequences that find the picture as it stands -/

/-- The own level, the zone picture, the views, the flood states, the valves, the causes and the flags are those of another
state. -/
structure Calm (u t : State) : Prop where
  own : t.own = u.own
  zones : t.zones = u.zones
  views : t.views = u.views
  flood : t.flood = u.flood
  valves : t.valves = u.valves
  phase : t.extraction.phase = u.extraction.phase
  causes : t.extraction.causes = u.extraction.causes
  first : t.extraction.first = u.extraction.first
  conditions : t.extraction.conditions = u.extraction.conditions
  flags : t.flags = u.flags

/-- R30: with the picture standing the own level is judged as it stands. -/
theorem front_own (h : SameSources s u) (p : s.pictureStands) : u.front.own = u.own := by
  have composed : u.composedLevel = u.own.level := by
    rw [h.own, p.own]
    unfold State.composedLevel State.anyStorm
    rw [h.started, h.call, h.heat, h.own, h.sensing]
  show ({ u.own with level := u.composedLevel } : OwnLevel) = u.own
  rw [composed]

/-- R38: views chosen as they stand raise no flag. -/
theorem chooseViews_still (h : s.chooseViews.views = s.views) : s.chooseViews.flags = s.flags := by
  have none : ((indexes 4).any fun d => s.chooseViews.views[d].clash && !s.views[d].clash) = false := by
    rw [h]
    exact List.any_eq_false.mpr fun d _ => by cases s.views[d].clash <;> simp
  exact if_neg (by rw [Bool.not_eq_true]; exact none)

theorem front_flags (h : SameSources s u) (p : s.pictureStands) : u.front.flags = u.flags :=
  chooseViews_still (s := u.recomposeOwn.recomputeZones) ((front_views h p).trans h.views.symm)

/-- R33: latched levels that stand file nothing. -/
theorem front_record (h : SameSources s u) (p : s.pictureStands) : u.front.record = u.record := by
  have latched : u.front.zones.latched = u.zones.latched := by rw [front_zones h p, h.zones]
  have none : u.latchRecords u.front = [] := by
    unfold State.latchRecords
    rw [latched]
    exact List.filterMap_eq_nil_iff.mpr fun z _ => if_pos rfl
  rw [(front_files u).1, none, fileAll_nil]

/-! ## The barriers, the sirens and the fill, with nothing to release -/

/-- The barriers, the sirens and the fill leave the fan, the valves and the flags. -/
theorem consumers_fan (w : State) :
    w.judgeBarriers.judgeSirens.fillOnChange.flood = w.flood ∧ w.judgeBarriers.judgeSirens.fillOnChange.valves = w.valves ∧
      w.judgeBarriers.judgeSirens.fillOnChange.extraction = w.extraction ∧
      w.judgeBarriers.judgeSirens.fillOnChange.flags = w.flags := by
  obtain ⟨flood, valves, extraction, -, flags, -⟩ := judgeBarriers_sameFan w
  generalize w.judgeBarriers = b at flood valves extraction flags ⊢
  rw [fillOnChange_frame, judgeSirens_frame]
  exact ⟨flood, valves, extraction, flags⟩

theorem consumers_consumes (w : State) : Consumes w w.judgeBarriers.judgeSirens.fillOnChange :=
  (judgeBarriers_consumes w).trans ((judgeSirens_consumes _).trans (fillOnChange_consumes _))

/-- R124: with no release condition holding at a HELD barrier nothing is released. -/
theorem releaseBarriers_still (follow : s.barriersFollow) : s.releaseBarriers = s :=
  List.foldl_fixed' (fun o => if_neg (by
    rw [Bool.and_eq_true, Bool.and_eq_true, Bool.and_eq_true, beq_iff_eq]
    rintro ⟨⟨⟨operating, barrier⟩, held⟩, holds⟩
    rw [follow operating o barrier held] at holds
    cases holds)) _

/-- R124, R125: with nothing to release the barriers, the sirens and the fill file nothing. -/
theorem consumers_record (follow : s.barriersFollow) : s.judgeBarriers.judgeSirens.fillOnChange.record = s.record := by
  have queue : s.judgeBarriers.record = s.record := by
    unfold State.judgeBarriers
    rw [releaseBarriers_still follow, considerQueue_frame]
  generalize s.judgeBarriers = b at queue ⊢
  rw [fillOnChange_frame, judgeSirens_frame]
  exact queue

/-- R124: what the release conditions are read from. -/
theorem barriersFollow_same (follow : s.barriersFollow) (start : u.start.phase = s.start.phase) (setup : u.setup = s.setup)
    (barriers : u.barriers = s.barriers) (zones : u.zones = s.zones) : u.barriersFollow := by
  unfold State.barriersFollow State.operating State.role State.barrier State.releaseHolds State.anyZone State.zoneLevel
    State.role
  rw [start, setup, barriers, zones]
  exact follow

/-! ## The settling of an event that finds the picture as it stands -/

section
variable (h : SameSources s u) (p : s.pictureStands) (flood : u.flood = s.flood)
  (own : (!u.extraction.phase.steady || u.extraction.lowFlow) = (!s.extraction.phase.steady || s.extraction.lowFlow))
include h p flood own

/-- R95, R113: flood states and conditions judged as they stand leave the sampler alone to be judged. -/
theorem settle_judged : u.settle = u.front.judgeSampler.judgeBarriers.judgeSirens.fillOnChange := by
  obtain ⟨-, -, -, -, -, extraction⟩ := front_fields u
  have conditions : u.front.conditionsNow = u.front.extraction.conditions := by
    rw [front_conditions h p, extraction, h.conditions]
  have judged : u.front.judgeExtraction [] = u.front.judgeSampler := by
    unfold State.judgeExtraction
    rw [judgeFlood_still (front_flood h p flood own), judgeCauses_still conditions, judgeCauses_still conditions]
  rw [State.settle, settleWith_front, judged]

theorem settle_calm : Calm u u.settle := by
  obtain ⟨-, -, -, valves, floods, extraction⟩ := front_fields u
  have sampled : u.front.judgeSampler.extraction = u.extraction.judgeMode u.front.clock u.front.samplerMode := by
    rw [← extraction]
    rfl
  have fields := sampled.trans (judgeMode_sets ..)
  have sampler := judgeSampler_consumes u.front
  have consumes := consumers_consumes u.front.judgeSampler
  obtain ⟨keptFlood, keptValves, keptExtraction, keptFlags⟩ := consumers_fan u.front.judgeSampler
  rw [← settle_judged h p flood own] at consumes keptFlood keptValves keptExtraction keptFlags
  exact
    { own := consumes.own.trans (sampler.own.trans (front_own h p))
      zones := consumes.zones.trans (sampler.zones.trans ((front_zones h p).trans h.zones.symm))
      views := consumes.views.trans (sampler.views.trans ((front_views h p).trans h.views.symm))
      flood := keptFlood.trans floods
      valves := keptValves.trans valves
      phase := by rw [keptExtraction, fields]
      causes := by rw [keptExtraction, fields]
      first := by rw [keptExtraction, fields]
      conditions := by rw [keptExtraction, fields]
      flags := keptFlags.trans (front_flags h p) }

/-- R124, R125: with the barriers' conditions as they stand nothing is released, and nothing is filed. -/
theorem settle_calm_record (barriers : u.barriers = s.barriers) (follow : s.barriersFollow) : u.settle.record = u.record := by
  obtain ⟨start, setup, -, -, -, -⟩ := front_fields u
  have sampler := judgeSampler_consumes u.front
  have still : u.front.judgeSampler.barriersFollow :=
    barriersFollow_same follow ((congrArg Start.phase (sampler.start.trans start)).trans h.start)
      (sampler.setup.trans (setup.trans h.setup)) ((front_barriers u).trans barriers)
      (sampler.zones.trans (front_zones h p))
  rw [settle_judged h p flood own, consumers_record still]
  exact front_record h p

end

end

end Sys2Proof.Machine
end

section
/-! SUPPORT. A START press (R44, R106, R108, R116; O30): accepted, refused or without effect. -/

namespace Sys2Proof.Machine

section
variable {s t : State}

/-- R44: the START key debounced active. -/
def State.startDown (s : State) (now : Time) : State :=
  { s.takeAt now with inputs := { s.inputs with start := .settled true } }

theorem startDown_sources (s : State) (now : Time) : SameSources s (s.startDown now) where
  start := rfl
  setup := rfl
  peers := rfl
  own := rfl
  sensing := rfl
  zones := rfl
  views := rfl
  valves := rfl
  call := rfl
  heat := rfl
  conditions := rfl

theorem exec_startPress (now : Time) (started : s.started = true) : exec (.startPress now) s =
    .next (if s.operating && s.hasFan then (s.startDown now).startFan.settle else s.startDown now) :=
  congrArg answer (if_pos started)

theorem startFan_refused (phase : s.extraction.phase = .standby ∨ s.extraction.phase = .stopped)
    (any : s.extraction.conditions.any = true) : s.startFan = s.refuseStart := by
  rcases phase with e | e <;> simp only [State.startFan, e, any, if_true]

theorem startFan_accepted (phase : s.extraction.phase = .standby ∨ s.extraction.phase = .stopped)
    (clear : s.extraction.conditions = ⟨false, false, false⟩) : s.startFan = s.enterStarting := by
  have none : s.extraction.conditions.any = false := by rw [clear]; rfl
  rcases phase with e | e <;> simp only [State.startFan, e, none, Bool.false_eq_true, if_false]

theorem startFan_void (standby : s.extraction.phase ≠ .standby) (stopped : s.extraction.phase ≠ .stopped) :
    s.startFan = s := by
  unfold State.startFan
  split
  · exact absurd ‹_› standby
  · exact absurd ‹_› stopped
  all_goals rfl

theorem refuseStart_sources {u : State} (h : SameSources s u) : SameSources s u.refuseStart :=
  { h with conditions := h.conditions }

/-! ## START accepted -/

/-- R107: what every change of phase brings, up to the flood states. -/
def State.phaseFiled (s : State) : State :=
  (s.file .fanPhase (octet s.extraction.phase.code) s.extraction.phaseValue).judgeMismatches.judgeSampler

theorem phaseFiled_consumes (s : State) : Consumes s s.phaseFiled :=
  (file_consumes s .fanPhase (octet s.extraction.phase.code) s.extraction.phaseValue).trans
    ((judgeMismatches_consumes _).trans (judgeSampler_consumes _))

theorem phaseFiled_fan (s : State) : s.phaseFiled.flood = s.flood ∧ s.phaseFiled.flags = s.flags ∧
    s.phaseFiled.extraction.phase = s.extraction.phase :=
  ⟨rfl, rfl, (judgeMode_extraction ..).2.2.trans (judgeMismatches_extraction _).2.2⟩

/-- R94, R95: a phase entered that leaves every flood state sets no flag. -/
theorem phaseChanged_flags (h : ∀ d : System, s.inFlood d = s.flood[d]) : s.phaseChanged.flags = s.flags := by
  obtain ⟨flood, flags, phase⟩ := phaseFiled_fan s
  have still : s.phaseFiled.judgeFlood = s.phaseFiled := judgeFlood_still fun d => by
    rw [inFlood_keeps (phaseFiled_consumes s).stays d, phase, flood]
    exact h d
  have changed : s.phaseChanged = s.phaseFiled := still
  rw [changed, flags]

/-- R116, R166: the value of the FAN_PHASE record of STARTING carries no cause. -/
theorem begun_recordValue (s : State) : phaseRecordValue s.begun.extraction s.begun.extraction.causes =
    BitVec.ofNat 16 (bitAt s.extraction.gateFail 9 + bitAt s.extraction.rundownSlow 8) := by
  show BitVec.ofNat 16 (0 * 4096 + bitAt s.extraction.gateFail 9 + bitAt s.extraction.rundownSlow 8 + 0) = _
  rw [Nat.zero_mul, Nat.zero_add, Nat.add_zero]

theorem startMode (operating : s.operating = true) (fan : s.hasFan = true) (phase : s.extraction.phase = .starting) :
    s.samplerMode = .continuous := by
  have start : s.start.phase = .operating := beq_iff_eq.mp operating
  simp only [State.samplerMode, fan, start, phase, Bool.not_true, Bool.false_eq_true, if_false]

/-- What an accepted START comes to (R107, R108, R116): s is the state with the press taken and its picture standing. -/
theorem enterStarting_settled (operating : s.operating = true) (fan : s.hasFan = true) (p : s.pictureStands)
    (steady : s.extraction.phase.steady = false) : Calm s.enterStarting s.enterStarting.settle ∧
      s.enterStarting.settle.extraction.mode = .continuous := by
  have calm := settle_calm (enterStarting_sources steady p) p (enterStarting_flood steady p) (by
    rw [enterStarting_phase, steady]
    rfl)
  have settled := settle_settledFrom s.enterStarting
  have follows := (phaseChanged_consumes s.begun).toKeeps.trans (settle_follows s.enterStarting).toKeeps
  refine ⟨calm, settled.fan.sampler.taken.trans ?_⟩
  exact startMode (follows.operating.trans operating) (follows.hasFan.trans fan) (calm.phase.trans (enterStarting_phase s))

end

/-- Settles O30: a press is accepted, refused or void, and with the picture standing what follows a void or refused press
finds everything as it stands. -/
theorem startPressed : Obligations.StartPressed := by
  intro now s started
  have sources := startDown_sources s now
  have pressed (operating : s.operating = true) (fan : s.hasFan = true) : exec (.startPress now) s =
      .next (s.startDown now).startFan.settle := by
    rw [exec_startPress now started, if_pos (Bool.and_eq_true_iff.mpr ⟨operating, fan⟩)]
  refine ⟨fun idle => ?idle, fun operating fan p phase clear => ?accepted, fun operating fan phase any => ?refused,
    fun operating fan standby stopped => ?void⟩
  case idle =>
    rw [exec_startPress now started, if_neg (by rw [Bool.and_eq_true]; rintro ⟨o, f⟩; simp [o, f] at idle)]
    rfl
  case accepted =>
    have stands : (s.startDown now).pictureStands := pictureStands_pressed now p _
    have steady : (s.startDown now).extraction.phase.steady = false := by
      show s.extraction.phase.steady = false
      rcases phase with e | e <;> rw [e] <;> rfl
    rw [pressed operating fan, startFan_accepted (s := s.startDown now) phase clear]
    obtain ⟨calm, mode⟩ := enterStarting_settled (s := s.startDown now) operating fan stands steady
    have settled := settle_settledFrom (s.startDown now).enterStarting
    have keeps := settle_follows (s.startDown now).enterStarting
    have entered := phaseChanged_phaseEntered (s.startDown now).begun
    have made := phaseChanged_made (s.startDown now).begun
    have flags := phaseChanged_flags (begun_flood steady stands)
    have valves := phaseChanged_valves (begun_flood steady stands)
    have flood := enterStarting_flood steady stands
    have starting := enterStarting_phase (s.startDown now)
    rw [enterStarting_eq] at calm mode settled keeps flood starting ⊢
    generalize (s.startDown now).begun.phaseChanged = u at calm mode settled keeps entered made flags valves flood starting ⊢
    generalize u.settle = t at calm mode settled keeps ⊢
    have phase : t.extraction.phase = .starting := calm.phase.trans starting
    have timer := (settled.fan.still calm.phase).2.1
    have filed := filed_grows made.filed keeps.grows
    rw [begun_recordValue] at filed
    have fields := made.fields
    exact ⟨t, rfl, keeps.apart.trans made.consumes.apart, keeps.extraction.trans made.consumes.extraction, phase,
      calm.causes.trans (by rw [fields]; rfl), calm.first.trans (by rw [fields]; rfl), timer.trans (by rw [fields]; rfl), mode,
      by rw [phase]; rfl, by rw [phase]; rfl, calm.zones.trans made.consumes.zones, calm.own.trans made.consumes.own,
      calm.valves.trans valves, calm.flood.trans flood, calm.flags.trans flags, filed, settled.report, u, settled, entered⟩
  case refused =>
    rw [pressed operating fan, startFan_refused (s := s.startDown now) phase any]
    refine ⟨_, rfl, settle_settledFrom _, fun p => ?_⟩
    have calm := settle_calm (refuseStart_sources sources) p rfl rfl
    exact ⟨calm.phase, calm.causes, calm.first, calm.conditions, calm.own, calm.zones, calm.views, calm.flood, calm.valves,
      calm.flags, settle_calm_record (refuseStart_sources sources) p rfl rfl rfl⟩
  case void =>
    rw [pressed operating fan, startFan_void (s := s.startDown now) standby stopped]
    refine ⟨_, rfl, settle_settledFrom _, fun p => ?_⟩
    have calm := settle_calm sources p rfl rfl
    exact ⟨calm.phase, calm.causes, calm.first, calm.conditions, calm.own, calm.zones, calm.views, calm.flood, calm.valves,
      calm.flags, settle_calm_record sources p rfl rfl rfl⟩

end Sys2Proof.Machine
end

section
/-! SUPPORT. From a report to its window (R71 to R76, R79): the path, the velocity tests, the transit times, the window and the
outcomes without one (O37). -/

namespace Sys2Proof.Machine

section
variable {u : Setup} {gs : List Velocities} {now o c : Time}

/-! ## The path (R71, R72) -/

theorem path_unused {b e : Branch} {pd pe : Nat} (h : u.branches[b].length = 0) : u.path b pd e pe = none := if_pos h

theorem path_elsewhere {b e : Branch} {pd pe : Nat} (h : u.branches[b].system ≠ u.branches[e].system) :
    u.path b pd e pe = none := by
  simp only [Setup.path, ne_eq, h, not_false_eq_true, if_true, ite_self]

/-- R71: a path in the valve's duct system, on its own branch or from a feeder of it. -/
theorem path_within {b e : Branch} {pd pe : Nat} (used : u.branches[b].length ≠ 0)
    (system : u.branches[b].system = u.branches[e].system) : u.path b pd e pe =
      if b = e then
        if min pd u.branches[b].length < pe then some [⟨b, pe - min pd u.branches[b].length⟩] else none
      else if u.branches[b].parent = some e then
        if u.branches[b].join < pe then
          some [⟨b, u.branches[b].length - min pd u.branches[b].length⟩, ⟨e, pe - u.branches[b].join⟩]
        else none
      else none := by
  simp only [Setup.path, Setup.clampedPosition, if_neg used, ne_eq, system, not_true_eq_false, if_false]

/-! ## The velocity tests (R73, R74) -/

theorem steady_iff (p : FanPhase) : p.steady = true ↔ p = .running ∨ p = .diverting := by
  cases p <;> decide

/-- R73, R74: the tests of a fresh view, in their order. -/
theorem timing_fresh (v : ViewData) (path : List Segment) : u.timing? (some v) path =
    if v.phase.steady = false then .error .fanPhase
    else if v.lowFlow = true then .error .lowFlow
    else if 3000 < v.age then .error .sampleOld
    else if v.velocity = 0 then .error .noVelocity
    else if ∃ g ∈ u.timedSegments (min 1000 v.velocity) path, g.low < u.timing.floor then .error .belowFloor
    else .ok (u.timedSegments (min 1000 v.velocity) path) := by
  simp only [Setup.timing?, Bool.not_eq_true', List.any_eq_true, decide_eq_true_eq]
  rfl

/-! ## Transit times (R75) -/

/-- R75: at 20 cm/s or more a metre takes at most 50 ms. -/
theorem late_le_fifty {g : Velocities} (h : g.timed) : g.late ≤ 50 * g.length := by
  have floor : 20 * (50 * g.length) ≤ g.low * (50 * g.length) := Nat.mul_le_mul_right _ h.floor
  have slow := h.floor
  have product : (50 * g.length + 1) * g.low = g.low * (50 * g.length) + g.low := by ring
  refine Nat.lt_succ_iff.mp ((Nat.div_lt_iff_lt_mul (by omega)).mpr ?_)
  rw [Nat.succ_eq_add_one]
  omega

theorem lateSum_le_fifty (h : ∀ g ∈ gs, g.timed) : lateSum gs ≤ 50 * (gs.map Velocities.length).sum := by
  induction gs with
  | nil => exact Nat.zero_le _
  | cons g gs ih =>
    have rest := ih fun v m => h v (List.mem_cons_of_mem _ m)
    have first := late_le_fifty (h g (List.mem_cons_self ..))
    simp only [lateSum, List.map_cons, List.sum_cons] at *
    omega

/-! ## The window (R76) -/

/-- R6: an instant is later when less than half the clock's range lies between. -/
theorem later_toNat (a b : Time) : later a b = true ↔ 0 < (a - b).toNat ∧ (a - b).toNat < 2147483648 := by
  rw [later, decide_eq_true_iff, BitVec.toInt_eq_toNat_cond]
  split <;> omega

theorem not_later (a b : Time) : later a b = false ↔ (a - b).toNat = 0 ∨ 2147483648 ≤ (a - b).toNat := by
  rw [← Bool.not_eq_true, later_toNat]
  omega

/-- R76: the open of a TIMED window, at now when LATE. -/
def openAt (now o : Time) : Time := if later now o then now else o

/-- R76: the open is not before now, and the close not before it. -/
theorem openAt_place (ordered : later o c = false) (ahead : later c now = true) :
    later now (openAt now o) = false ∧ (c - openAt now o).toNat ≤ 2147483648 := by
  rw [later_toNat] at ahead
  rw [not_later] at ordered ⊢
  unfold openAt
  split
  · exact ⟨.inl (by simp), by omega⟩
  · rename_i early
    rw [Bool.not_eq_true, not_later] at early
    exact ⟨early, by bv_omega⟩

/-- R76: the close of a TIMED window: CLIPPED, or a millisecond after an equal open. -/
def closeAt (c x : Time) : Time := if 10000 < (c - x).toNat then after x 10000 else if c = x then after x 1 else c

theorem closeAt_length (c x : Time) : 1 ≤ (closeAt c x - x).toNat ∧ (closeAt c x - x).toNat ≤ 10000 := by
  have length (n : Nat) (small : n < 4294967296) : (after x n - x).toNat = n := by
    unfold after
    bv_omega
  unfold closeAt
  split
  · rw [length 10000 (by decide)]
    decide
  · rename_i short
    split
    · rw [length 1 (by decide)]
      decide
    · rename_i apart
      exact ⟨by bv_omega, by omega⟩

theorem timedWindow_missed (h : later c now = false) : timedWindow now o c = .missed (now - c).toNat := by
  simp only [timedWindow, h, Bool.not_false, if_true]

/-- R76: the window of a TIMED outcome: LATE, CLIPPED and the empty guard. -/
theorem timedWindow_timed (ordered : later o c = false) (ahead : later c now = true) :
    ∃ (x y : Time) (late clipped : Bool), timedWindow now o c = .timed x y late clipped ∧
      late = later now o ∧ x = (if late then now else o) ∧ clipped = decide (10000 < (c - x).toNat) ∧
      y = (if clipped then after x 10000 else if c = x then after x 1 else c) ∧
      later y x = true ∧ later now x = false ∧ 1 ≤ (y - x).toNat ∧ (y - x).toNat ≤ 10000 := by
  obtain ⟨place, span⟩ := openAt_place ordered ahead
  obtain ⟨least, most⟩ := closeAt_length c (openAt now o)
  refine ⟨openAt now o, closeAt c (openAt now o), later now o, decide (10000 < (c - openAt now o).toNat), ?_, rfl, rfl, rfl,
    by simp only [closeAt, decide_eq_true_eq], (later_toNat _ _).mpr ⟨least, by omega⟩, place, least, most⟩
  have clipped (x : Time) : (if (if 10000 < (c - x).toNat then after x 10000 else c) = x then after x 1
      else if 10000 < (c - x).toNat then after x 10000 else c) = closeAt c x := by
    have apart : after x 10000 ≠ x := by
      unfold after
      bv_omega
    unfold closeAt
    by_cases long : 10000 < (c - x).toNat
    · rw [if_pos long, if_pos long, if_neg apart]
    · rw [if_neg long, if_neg long]
  have close := clipped (openAt now o)
  simp only [timedWindow, ahead, Bool.not_true, Bool.false_eq_true, if_false]
  exact congrArg (fun y => Computed.timed (openAt now o) y (later now o) _) close

end

/-! ## The view, and the outcomes without a window (R73, R79) -/

section
variable {s : State}

theorem computedFor_eq (r : Report) (e : Branch) (pe reach : Nat) : s.computedFor r e pe reach =
    s.setup.compute s.clock
      (if s.hasFan = true ∧ s.setup.system = s.setup.branches[e].system then some s.ownViewData
        else s.viewData s.setup.branches[e].system) r e pe reach := by
  unfold State.computedFor State.timingView
  simp only [Bool.and_eq_true, beq_iff_eq]
  rfl

theorem viewData_own {d : System} (source : s.views[d].source = some s.setup.number) : s.viewData d = some s.ownViewData := by
  simp only [State.viewData, source, if_true]

/-- R78, R79: an outcome that hands no window on is counted and kept, with its record. -/
theorem releaseFor_without {o : Output} {r : Report} {e : Branch} {pe reach : Nat} {x : Computed}
    (role : s.role o = .valve e pe reach) (computed : s.computedFor r e pe reach = x) (window : x.window = none) :
    s.releaseFor r o = { s with
      valves := put s.valves o { s.valves[o] with
        outcomes := s.valves[o].outcomes.count x
        last := some (x.lastReport s.clock r (s.setup.clampedPosition r.branch r.position)) }
      record := s.record.fileAll s.clock (x.filings o) } := by
  simp only [State.releaseFor, role, computed, State.valveAfter, window, saturationFilings, List.append_nil,
    Option.isSome_none, Bool.false_eq_true, if_false]

end

/-- Settles O37: each rule of the computation is read off its own lemma. -/
theorem timedWindowIsBounded : Obligations.TimedWindowIsBounded := by
  refine ⟨fun u b e pd pe => ⟨path_unused, fun _ => path_elsewhere, fun used system => ?path⟩,
    fun now u view r e pe reach => ⟨fun none => ?notDownstream, fun path found far => ?beyond⟩,
    fun u path => ⟨rfl, fun v => ?tests⟩, fun u view path gs timing floor => ?sums,
    fun r e pe reach s => ⟨computedFor_eq r e pe reach, viewData_own⟩,
    fun now u view r e pe reach path gs found near timed timing => ?window,
    fun o r e pe reach s role => ?without⟩
  case path =>
    rw [path_within used system]
    exact ⟨fun same => if_pos same, fun other feeds => (if_neg other).trans (if_pos feeds),
      fun other feeds => (if_neg other).trans (if_neg feeds)⟩
  case notDownstream =>
    simp only [Setup.compute, none]
  case beyond =>
    simp only [Setup.compute, found]
    exact if_pos far
  case tests =>
    have segments : ((path.filter fun g => decide (0 < g.length)).map fun g =>
        let w := min 1000 (min 1000 v.velocity * u.branches[g.branch].factor / 64)
        (⟨g.length, w, w * (100 + u.timing.spread) / 100, w * (100 - u.timing.spread) / 100⟩ : Velocities)) =
      u.timedSegments (min 1000 v.velocity) path := rfl
    simp only [segments, ← steady_iff, Bool.not_eq_true, timing_fresh]
    refine ⟨fun still => if_pos still, fun steady low => ?_, fun steady flow old => ?_, fun steady flow fresh none => ?_,
      fun steady flow fresh some => ⟨fun below => ?_, fun above => ?_⟩⟩
    all_goals simp only [steady, Bool.true_eq_false, if_false]
    · exact if_pos low
    all_goals simp only [flow, Bool.false_eq_true, if_false]
    · exact if_pos old
    all_goals rw [if_neg (Nat.not_lt.mpr fresh)]
    · exact if_pos none
    all_goals rw [if_neg some]
    · exact if_pos below
    · exact if_neg fun ⟨g, m, low⟩ => Nat.not_lt.mpr (above g m) low
  case sums =>
    obtain ⟨timed, total⟩ := timing_ok floor timing
    have bound := lateSum_le_fifty timed
    exact ⟨fun g m => ⟨(timed g m).length, (timed g m).floor, (timed g m).spread⟩, (sums_le timed).1, fun short => by
      have short : pathLength path ≤ 2000 := short
      show lateSum gs ≤ 100000
      omega⟩
  case window =>
    have computed : u.compute now view r e pe reach = u.windowFor now r gs := by
      simp only [Setup.compute, found, if_neg (Nat.not_lt.mpr near), timed, timing, Bool.false_eq_true, if_false]
    rw [computed]
    exact fun ordered => ⟨timedWindow_missed, timedWindow_timed ordered⟩
  case without =>
    exact ⟨fun computed => releaseFor_without role computed rfl, fun computed => releaseFor_without role computed rfl,
      fun missed computed => releaseFor_without role computed rfl⟩

end Sys2Proof.Machine
end

section
/-! SUPPORT. The step (R39, R149): what a millisecond with no command waiting does to the pins, and which commands it brings
(O1). -/

namespace Sys2Proof.Machine

section
variable {s : State} {c x : Instr}

/-! ## Timers, inputs and single commands -/

theorem due_iff {now : Time} {timer : Option Time} : due now timer = true ↔ runsOut now timer := by
  cases timer <;> simp [due, runsOut]

theorem due_map {α : Type} {now : Time} {o : Option α} {f : α → Time} :
    due now (o.map f) = true ↔ ∃ a, o = some a ∧ reached now (f a) = true := by
  cases o <;> simp [due]

theorem held_iff {now : Time} {d : Debounced} : d.changes now = true ↔ d.held now := by
  rw [Debounced.changes, Bool.and_eq_true, due_map, bne_iff_ne]
  rfl

/-- The command x, which the millisecond brings. -/
def State.isDue (s : State) (x c : Instr) : Prop := c = x ∧ s.brings x

theorem mem_when {b : Bool} (h : b = true ↔ s.brings x) : c ∈ when_ b x ↔ s.isDue x c := by
  unfold State.isDue
  rw [← h]
  unfold when_
  cases b <;> simp

theorem mem_each {n : Nat} {f : Fin n → List Instr} : c ∈ (indexes n).flatMap f ↔ ∃ i, c ∈ f i := by
  simp only [List.mem_flatMap, mem_indexes, true_and]

/-! ## The commands of each place in the queue -/

theorem mem_dueStart : c ∈ s.dueStart ↔ s.isDue (.imageReadFailed s.clock) c ∨ s.isDue (.imageReadRetry s.clock) c ∨
    s.isDue (.listenEnd s.clock) c ∨ s.isDue (.settleEnd s.clock) c := by
  have phase (p : StartPhase) : s.phaseDue p = true ↔ s.start.phase = p ∧ runsOut s.clock s.start.phaseTimer := by
    rw [State.phaseDue, Bool.and_eq_true, beq_iff_eq, due_iff]
  have failed : (s.reading && due s.clock (s.start.readBegan.map fun t => after t Config.readLimit)) = true ↔
      s.brings (.imageReadFailed s.clock) := by
    rw [State.reading, Bool.and_eq_true, Bool.and_eq_true, beq_iff_eq, due_map, and_assoc]
    exact and_congr_right fun _ => ⟨fun h => h.2, fun ⟨t, began, h⟩ => ⟨by rw [began]; rfl, t, began, h⟩⟩
  have retry : (s.start.phase == .load && due s.clock s.start.retry) = true ↔ s.brings (.imageReadRetry s.clock) := by
    rw [Bool.and_eq_true, beq_iff_eq, due_iff]
    rfl
  rw [State.dueStart, List.mem_append, List.mem_append, List.mem_append, mem_when failed, mem_when retry,
    mem_when (phase .listen), mem_when (phase .settle), or_assoc, or_assoc]

theorem mem_dueLine {l : Line} : c ∈ s.dueLine l ↔
    s.isDue (.probeTimerExpiry s.clock l) c ∨ s.isDue (.lineQuiet s.clock l) c := by
  have probe : ((s.line l).txState == .failed && due s.clock (s.line l).probeTimer) = true ↔
      s.brings (.probeTimerExpiry s.clock l) := by
    rw [Bool.and_eq_true, beq_iff_eq, due_iff]
    rfl
  rw [State.dueLine, List.mem_append, mem_when probe, mem_when (x := .lineQuiet s.clock l) bne_iff_ne]

/-- R27: an entry that has been heard on neither line for the time of freshness. -/
theorem outOfDate_iff {now : Time} {p : Peer} : p.outOfDate now = true ↔ p.presence = .present ∧
    ∃ i, latestOf p.heardA p.heardB = some i ∧ 1500 ≤ i.elapsed now := by
  unfold Peer.outOfDate
  rw [Bool.and_eq_true, beq_iff_eq]
  cases latestOf p.heardA p.heardB with
  | none => simp [elapsedFrom]
  | some i =>
    simp only [elapsedFrom, Option.map_some, Option.some.injEq, exists_eq_left']
    exact and_congr_right fun _ => decide_eq_true_iff

theorem unheardOn_iff {now : Time} {p : Peer} {l : Line} : p.unheardOn now l = true ↔
    ∃ i, latestOf p.since (p.heard l) = some i ∧ 1500 ≤ i.elapsed now := by
  unfold Peer.unheardOn
  cases latestOf p.since (p.heard l) with
  | none => simp [elapsedFrom]
  | some i =>
    simp only [elapsedFrom, Option.map_some, Option.some.injEq, exists_eq_left']
    exact decide_eq_true_iff

theorem singleTest_iff {now : Time} {p : Peer} : (p.singleTest now).isSome = true ↔ p.presence = .present ∧ p.single = none ∧
    ∃ l i, latestOf p.since (p.heard l) = some i ∧ 1500 ≤ i.elapsed now := by
  have some : (if p.unheardOn now .a then some Line.a else if p.unheardOn now .b then some Line.b else none).isSome = true ↔
      ∃ l, p.unheardOn now l = true := by
    cases a : p.unheardOn now .a <;> cases b : p.unheardOn now .b
    · simp only [Bool.false_eq_true, if_false, Option.isSome_none, false_iff]
      rintro ⟨_ | _, h⟩
      · exact Bool.false_ne_true (a ▸ h)
      · exact Bool.false_ne_true (b ▸ h)
    · exact ⟨fun _ => ⟨.b, b⟩, fun _ => rfl⟩
    · exact ⟨fun _ => ⟨.a, a⟩, fun _ => rfl⟩
    · exact ⟨fun _ => ⟨.a, a⟩, fun _ => rfl⟩
  unfold Peer.singleTest
  by_cases h : p.presence = .present ∧ p.single = none
  · obtain ⟨present, single⟩ := h
    simp only [present, single, beq_self_eq_true, Option.isNone_none, Bool.and_self, if_true, true_and, some]
    simp only [unheardOn_iff]
  · rw [if_neg (by rw [Bool.and_eq_true, beq_iff_eq, Option.isNone_iff_eq_none]; exact h), ← and_assoc]
    simp [h]

theorem mem_duePeer {k : Station} : c ∈ s.duePeer k ↔
    s.isDue (.peerLost s.clock k) c ∨ s.isDue (.singleLine s.clock k) c := by
  have lost : (k != 0 && (s.peers[k]).outOfDate s.clock) = true ↔ s.brings (.peerLost s.clock k) := by
    rw [Bool.and_eq_true, bne_iff_ne, outOfDate_iff]
    rfl
  have single : (k != 0 && ((s.peers[k]).singleTest s.clock).isSome) = true ↔ s.brings (.singleLine s.clock k) := by
    rw [Bool.and_eq_true, bne_iff_ne, singleTest_iff]
    rfl
  rw [State.duePeer, List.mem_append, mem_when lost, mem_when single]

theorem mem_dueKeys : c ∈ s.dueKeys ↔ s.isDue (.callPress s.clock) c ∨ s.isDue (.callRelease s.clock) c ∨
    s.isDue (.heatInputChange s.clock s.inputs.heat.raw) c ∨ s.isDue (.silencePress s.clock) c ∨
    s.isDue (.resetPress s.clock) c ∨ s.isDue (.startPress s.clock) c ∨ s.isDue (.stopPress s.clock) c := by
  unfold State.dueKeys
  by_cases started : s.started = true
  · have call : c ∈ when_ (s.inputs.call.changes s.clock)
        (if s.inputs.call.raw then .callPress s.clock else .callRelease s.clock) ↔
        s.isDue (.callPress s.clock) c ∨ s.isDue (.callRelease s.clock) c := by
      by_cases raw : s.inputs.call.raw = true
      · have press : s.inputs.call.changes s.clock = true ↔ s.brings (.callPress s.clock) :=
          held_iff.trans ⟨fun h => ⟨started, h, raw⟩, fun h => h.2.1⟩
        rw [if_pos raw, mem_when press]
        exact (or_iff_left fun h => Bool.false_ne_true (h.2.2.2.symm.trans raw)).symm
      · have release : s.inputs.call.changes s.clock = true ↔ s.brings (.callRelease s.clock) :=
          held_iff.trans ⟨fun h => ⟨started, h, by simpa using raw⟩, fun h => h.2.1⟩
        rw [if_neg raw, mem_when release]
        exact (or_iff_right fun h => raw h.2.2.2).symm
    have heat : s.inputs.heat.changes s.clock = true ↔ s.brings (.heatInputChange s.clock s.inputs.heat.raw) := by
      rw [held_iff]
      exact ⟨fun h => ⟨started, h, rfl⟩, fun h => h.2.1⟩
    have key (d : Debounced) : (d.raw && d.changes s.clock) = true ↔ s.started = true ∧ d.held s.clock ∧ d.raw = true := by
      rw [Bool.and_eq_true, held_iff, and_comm]
      exact (and_iff_right started).symm
    simp only [if_pos started, List.mem_append, call, mem_when heat, mem_when (x := .silencePress s.clock) (key _),
      mem_when (x := .resetPress s.clock) (key _), mem_when (x := .startPress s.clock) (key _),
      mem_when (x := .stopPress s.clock) (key _), or_assoc]
  · rw [if_neg started]
    simp [State.isDue, State.brings, started]

/-- R82, R101, R120, R137: the feedback of an output brings the command of its role. -/
theorem mem_dueFeedback {o : Output} : c ∈ s.dueFeedback o ↔
    (s.feedbackHeld o (s.inputs.feedback[o]).input.raw ∧ c ∈ s.feedbackCommand o (s.inputs.feedback[o]).input.raw) := by
  have none (h : (s.role o).isNone = true) : s.feedbackCommand o (s.inputs.feedback[o]).input.raw = [] := by
    unfold State.feedbackCommand
    cases role : s.role o with
    | none => rfl
    | valve | fanContactor | abortGate | magnet | shutter | damper | siren =>
      rw [role] at h
      cases h
  have held : (s.feedbackDebounced o && (s.inputs.feedback[o]).input.changes s.clock) = true ↔
      (s.role o).isNone = false ∧ s.feedbackHeld o (s.inputs.feedback[o]).input.raw := by
    rw [State.feedbackDebounced, Bool.and_eq_true, Bool.and_eq_true, Bool.not_eq_true', held_iff]
    exact ⟨fun h => ⟨h.1.2, h.1.1, h.2, rfl⟩, fun h => ⟨⟨h.2.1, h.1⟩, h.2.2.1⟩⟩
  have due : s.dueFeedback o = if s.feedbackDebounced o && (s.inputs.feedback[o]).input.changes s.clock then
      s.feedbackCommand o (s.inputs.feedback[o]).input.raw else [] := rfl
  rw [due]
  by_cases h : (s.feedbackDebounced o && (s.inputs.feedback[o]).input.changes s.clock) = true
  · rw [if_pos h]
    exact (and_iff_right (held.mp h).2).symm
  · rw [if_neg h]
    refine ⟨fun m => absurd m List.not_mem_nil, fun ⟨feedback, m⟩ => ?_⟩
    rcases Bool.eq_false_or_eq_true (s.role o).isNone with role | role
    · rwa [none role] at m
    · exact absurd (held.mpr ⟨role, feedback⟩) h

theorem mem_dueChannel {k : Channel} : c ∈ s.dueChannel k ↔ s.isDue (.blinded s.clock k) c ∨
    s.isDue (.blindedClear s.clock k) c ∨ s.isDue (.silent s.clock k) c := by
  have blinded : (s.channelActive k && (s.channel k).blindDue s.clock) = true ↔ s.brings (.blinded s.clock k) := by
    rw [Bool.and_eq_true, State.channelActive, Bool.and_eq_true, SparkChannel.blindDue, Bool.and_eq_true, Bool.not_eq_true',
      due_map, and_assoc]
    rfl
  have clear : (s.channelActive k && (s.channel k).clearDue s.clock) = true ↔ s.brings (.blindedClear s.clock k) := by
    rw [Bool.and_eq_true, State.channelActive, Bool.and_eq_true, SparkChannel.clearDue, Bool.and_eq_true, due_map, and_assoc]
    rfl
  rw [State.dueChannel, List.mem_append, List.mem_append, mem_when blinded, mem_when clear,
    mem_when (x := .silent s.clock k) due_iff, or_assoc]

theorem mem_dueSensing : c ∈ s.dueSensing ↔ s.isDue (.bucketBoundary s.clock) c ∨ s.isDue (.escalated s.clock) c ∨
    s.isDue (.watchHoldExpiry s.clock) c := by
  have boundary : s.boundaryDue = true ↔ s.brings (.bucketBoundary s.clock) := by
    rw [State.boundaryDue, Bool.and_eq_true, Bool.and_eq_true, beq_iff_eq, bne_iff_ne, and_assoc]
    rfl
  have escalated : (due s.clock s.sensing.escalation && s.firstStorm.isSome) = true ↔ s.brings (.escalated s.clock) := by
    rw [Bool.and_eq_true, due_iff, State.firstStorm, List.find?_isSome]
    simp only [mem_indexes, true_and]
    rfl
  rw [State.dueSensing, List.mem_append, List.mem_append, mem_when boundary, mem_when escalated,
    mem_when (x := .watchHoldExpiry s.clock) due_iff, or_assoc]

theorem mem_dueExtraction : c ∈ s.dueExtraction ↔ s.isDue (.sampleComplete s.clock) c ∨
    s.isDue (.periodicWindowStart s.clock) c ∨ s.isDue (.startGraceExpiry s.clock) c ∨ s.isDue (.gateTimerExpiry s.clock) c ∨
    s.isDue (.rundownLimitExpiry s.clock) c ∨ s.isDue (.contactorMismatch s.clock) c ∨ s.isDue (.gateMismatch s.clock) c := by
  have phase (p : FanPhase) : s.phaseTimerDue p = true ↔ s.extraction.phase = p ∧ runsOut s.clock s.extraction.timer := by
    rw [State.phaseTimerDue, Bool.and_eq_true, beq_iff_eq, due_iff]
  have periodic : (s.extraction.mode == .periodic && due s.clock s.extraction.nextStart) = true ↔
      s.brings (.periodicWindowStart s.clock) := by
    rw [Bool.and_eq_true, beq_iff_eq, due_iff]
    rfl
  have sample : due s.clock (s.extraction.window.map fun w => after w.start Config.sampleWindow) = true ↔
      s.brings (.sampleComplete s.clock) := due_map
  simp only [State.dueExtraction, List.mem_append, mem_when sample, mem_when periodic,
    mem_when (x := .startGraceExpiry s.clock) (phase .starting), mem_when (x := .gateTimerExpiry s.clock) (phase .diverting),
    mem_when (x := .rundownLimitExpiry s.clock) (phase .rundown), mem_when (x := .contactorMismatch s.clock) due_iff,
    mem_when (x := .gateMismatch s.clock) due_iff, or_assoc]

theorem mem_dueBarrier {o : Output} : c ∈ s.dueBarrier o ↔ s.isDue (.travelTimerExpiry s.clock o) c ∨
    s.isDue (.travelExhausted s.clock o) c ∨ s.isDue (.damperWaitExpiry s.clock o) c := by
  have travel : s.travelDue o = true ↔ s.brings (.travelTimerExpiry s.clock o) := by
    rw [State.travelDue, Bool.and_eq_true, Bool.and_eq_true, beq_iff_eq, due_iff, and_assoc]
    rfl
  have out : s.travelOut o = true ↔ s.brings (.travelExhausted s.clock o) := by
    rw [State.travelOut, Bool.and_eq_true, beq_iff_eq, due_iff]
    rfl
  have wait : s.waitDue o = true ↔ s.brings (.damperWaitExpiry s.clock o) := by
    simp only [State.waitDue, State.brings]
    cases (s.barrier o).wait <;> simp
  rw [State.dueBarrier, List.mem_append, List.mem_append, mem_when travel, mem_when out, mem_when wait, or_assoc]

/-- R94: the open-time watch has reached a cut-off. -/
theorem overtime_iff {now : Time} {seconds : Nat} {v : Valve} : v.overtime now seconds = true ↔
    v.state.on = true ∧ ∃ since, v.openSince = some since ∧ seconds * 1000 ≤ since.elapsed now := by
  unfold Valve.overtime Valve.openTime
  rw [Bool.and_eq_true, Bool.and_eq_true, and_assoc, decide_eq_true_iff]
  cases v.openSince <;> simp

theorem mem_dueValve {o : Output} : c ∈ s.dueValve o ↔ s.isDue (.windowClose s.clock o) c ∨
    s.isDue (.windowOpen s.clock o) c ∨ s.isDue (.confirmTimerExpiry s.clock o) c ∨ s.isDue (.cutOff s.clock o) c ∨
    s.isDue (.valveStuck s.clock o) c := by
  unfold State.dueValve
  by_cases valve : (s.role o).isValve = true
  · have close : (s.valve o).firstClosed s.clock = true ↔ s.brings (.windowClose s.clock o) := by
      simp only [State.brings, valve, true_and, Valve.firstClosed]
      cases (s.valve o).schedule <;> simp [Instant.of]
    have open_ : (s.operating && (s.valve o).state == .idle && (s.valve o).firstOpen s.clock) = true ↔
        s.brings (.windowOpen s.clock o) := by
      simp only [State.brings, valve, true_and, Valve.firstOpen, Bool.and_eq_true, beq_iff_eq, and_assoc]
      cases (s.valve o).schedule <;> simp [Instant.of]
    have cut : s.cutOffDue o = true ↔ s.brings (.cutOff s.clock o) := by
      simp only [State.brings, valve, true_and, State.cutOffDue, Bool.and_eq_true, overtime_iff]
      rfl
    have timer {t : Option Time} {x : Instr} (h : s.brings x ↔ (s.role o).isValve = true ∧ runsOut s.clock t) :
        due s.clock t = true ↔ s.brings x := by
      rw [h, due_iff, and_iff_right valve]
    simp only [if_pos valve, List.mem_append, mem_when close, mem_when open_, mem_when cut,
      mem_when (x := .confirmTimerExpiry s.clock o) (timer Iff.rfl), mem_when (x := .valveStuck s.clock o) (timer Iff.rfl),
      or_assoc]
  · rw [if_neg valve]
    simp [State.isDue, State.brings, valve]

theorem mem_dueSiren {o : Output} : c ∈ s.dueSiren o ↔ s.isDue (.sirenFault s.clock o) c ∨ s.isDue (.allClearEnd s.clock o) c := by
  have fault : ((s.role o).isSiren && (s.siren o).absenceDue s.clock) = true ↔ s.brings (.sirenFault s.clock o) := by
    have count : (s.siren o).absenceAt s.clock = (s.siren o).counted s.clock := by
      unfold Siren.absenceAt Siren.counted
      cases (s.siren o).absenceFrom <;> rfl
    rw [Bool.and_eq_true, Siren.absenceDue, Bool.and_eq_true, Bool.not_eq_true', decide_eq_true_iff, count]
    rfl
  have end_ : ((s.role o).isSiren && (s.siren o).allClearDue s.clock) = true ↔ s.brings (.allClearEnd s.clock o) := by
    simp only [State.brings, Bool.and_eq_true, Siren.allClearDue]
    refine and_congr_right fun _ => ?_
    cases (s.siren o).allClear with
    | none => simp
    | some i =>
      simp only [Option.some.injEq, exists_eq_left']
      exact decide_eq_true_iff
  rw [State.dueSiren, List.mem_append, mem_when fault, mem_when end_]

theorem mem_dueSirens : c ∈ s.dueSirens ↔ (∃ o, s.isDue (.sirenFault s.clock o) c ∨ s.isDue (.allClearEnd s.clock o) c) ∨
    s.isDue (.resoundTimerExpiry s.clock) c ∨ s.isDue (.cadenceLevelChange s.clock) c := by
  have cadence : (s.operating && (indexes 4).any s.levelTurns) = true ↔ s.brings (.cadenceLevelChange s.clock) := by
    simp only [State.brings, Bool.and_eq_true, List.any_eq_true, mem_indexes, true_and, State.levelTurns, bne_iff_ne, State.siren,
      levelOf_patternLevel]
  simp only [State.dueSirens, List.mem_append, mem_each, mem_dueSiren, mem_when cadence,
    mem_when (x := .resoundTimerExpiry s.clock) due_iff, or_assoc]

theorem ageing_iff : s.ageingDue = true ↔ s.brings (.instantAged s.clock) := by
  simp only [State.ageingDue, State.brings, List.any_eq_true, Instant.agesAt, Bool.and_eq_true, Option.isNone_iff_eq_none,
    decide_eq_true_eq]
  rfl

/-- The places of the queue that a millisecond fills, in the model's order. -/
theorem mem_dueCommands : c ∈ s.dueCommands ↔ c ∈ s.dueStart ∨ c ∈ s.dueLine .a ∨ c ∈ s.dueLine .b ∨
    (∃ k, c ∈ s.duePeer k) ∨ c ∈ s.dueKeys ∨ (∃ o, c ∈ s.dueFeedback o) ∨ (∃ k, c ∈ s.dueChannel k) ∨ c ∈ s.dueSensing ∨
    (∃ o, c ∈ s.dueValve o) ∨ c ∈ s.dueExtraction ∨ (∃ o, c ∈ s.dueBarrier o) ∨ c ∈ s.dueSirens ∨
    s.isDue (.stateIntervalExpiry s.clock) c ∨ s.isDue (.instantAged s.clock) c := by
  simp only [State.dueCommands, List.mem_append, mem_each, or_assoc, mem_when ageing_iff,
    mem_when (x := .stateIntervalExpiry s.clock) due_iff]

/-! ## Every command that joins is brought -/

theorem State.isDue.brought (h : s.isDue x c) (clock : x.clockOf = some s.clock) :
    c.clockOf = some s.clock ∧ s.brings c := by
  obtain ⟨rfl, brings⟩ := h
  exact ⟨clock, brings⟩

theorem feedbackCommand_brings {o : Output} {active : Bool} (held : s.feedbackHeld o active)
    (m : c ∈ s.feedbackCommand o active) : c.clockOf = some s.clock ∧ s.brings c := by
  unfold State.feedbackCommand at m
  cases role : s.role o with
  | none =>
    rw [role] at m
    cases m
  | valve =>
    rw [role] at m
    obtain rfl := List.mem_singleton.mp m
    exact ⟨rfl, congrArg OutputRole.isValve role, held⟩
  | fanContactor =>
    rw [role] at m
    obtain rfl := List.mem_singleton.mp m
    exact ⟨rfl, o, role, held⟩
  | abortGate =>
    rw [role] at m
    obtain rfl := List.mem_singleton.mp m
    exact ⟨rfl, o, role, held⟩
  | magnet | shutter | damper =>
    rw [role] at m
    obtain rfl := List.mem_singleton.mp m
    exact ⟨rfl, congrArg OutputRole.isBarrier role, held⟩
  | siren =>
    rw [role] at m
    obtain rfl := List.mem_singleton.mp m
    exact ⟨rfl, congrArg OutputRole.isSiren role, held⟩

theorem dueCommands_brings (m : c ∈ s.dueCommands) : c.clockOf = some s.clock ∧ s.brings c := by
  rcases mem_dueCommands.mp m with m | m | m | ⟨k, m⟩ | m | ⟨o, m⟩ | ⟨k, m⟩ | m | ⟨o, m⟩ | m | ⟨o, m⟩ | m | m | m
  · rcases mem_dueStart.mp m with m | m | m | m <;> exact m.brought rfl
  · rcases mem_dueLine.mp m with m | m <;> exact m.brought rfl
  · rcases mem_dueLine.mp m with m | m <;> exact m.brought rfl
  · rcases mem_duePeer.mp m with m | m <;> exact m.brought rfl
  · rcases mem_dueKeys.mp m with m | m | m | m | m | m | m <;> exact m.brought rfl
  · obtain ⟨held, m⟩ := mem_dueFeedback.mp m
    exact feedbackCommand_brings held m
  · rcases mem_dueChannel.mp m with m | m | m <;> exact m.brought rfl
  · rcases mem_dueSensing.mp m with m | m | m <;> exact m.brought rfl
  · rcases mem_dueValve.mp m with m | m | m | m | m <;> exact m.brought rfl
  · rcases mem_dueExtraction.mp m with m | m | m | m | m | m | m <;> exact m.brought rfl
  · rcases mem_dueBarrier.mp m with m | m | m <;> exact m.brought rfl
  · rcases mem_dueSirens.mp m with ⟨o, m | m⟩ | m | m <;> exact m.brought rfl
  · exact m.brought rfl
  · exact m.brought rfl

/-! ## Every command that is brought joins -/

/-- The change of a feedback that is held joins. -/
theorem mem_dueFeedback_of {o : Output} {active : Bool} (held : s.feedbackHeld o active)
    (m : c ∈ s.feedbackCommand o active) : c ∈ s.dueCommands := by
  have raw := held.2.2
  rw [← raw] at held m
  exact mem_dueCommands.mpr (.inr (.inr (.inr (.inr (.inr (.inl ⟨o, mem_dueFeedback.mpr ⟨held, m⟩⟩))))))

theorem mem_barrierFeedback {o : Output} {active : Bool} (barrier : (s.role o).isBarrier = true) :
    .barrierFeedbackChange s.clock o active ∈ s.feedbackCommand o active := by
  unfold State.feedbackCommand
  cases role : s.role o with
  | magnet | shutter | damper => exact List.mem_singleton_self _
  | none | valve | fanContactor | abortGate | siren =>
    rw [role] at barrier
    cases barrier

theorem mem_valveFeedback {o : Output} {active : Bool} (valve : (s.role o).isValve = true) :
    .flowSwitchChange s.clock o active ∈ s.feedbackCommand o active := by
  unfold State.feedbackCommand
  cases role : s.role o with
  | valve => exact List.mem_singleton_self _
  | none | fanContactor | abortGate | magnet | shutter | damper | siren =>
    rw [role] at valve
    cases valve

theorem mem_sirenFeedback {o : Output} {active : Bool} (siren : (s.role o).isSiren = true) :
    .sirenFeedbackChange s.clock o active ∈ s.feedbackCommand o active := by
  unfold State.feedbackCommand
  cases role : s.role o with
  | siren => exact List.mem_singleton_self _
  | none | valve | fanContactor | abortGate | magnet | shutter | damper =>
    rw [role] at siren
    cases siren

theorem mem_dueCommands_of (clock : c.clockOf = some s.clock) (brings : s.brings c) : c ∈ s.dueCommands := by
  cases c with
  | powerOn | imageReadComplete | attemptStart | contentionLost | txError | attemptSuccess | stateRoundHoldClear
  | receiveFramingError | noticeLengthError | callNotice | sparkNotice | keyNotice | stateNotice | sensorPulseStart
  | sensorPulseEnd | flowPulse | supplySample | status | zones | peer | valve | barriers | sirens | fan | counters
  | takeRecord | takeRecordComplete | unknown | lineIdle | checkError => exact brings.elim
  | imageReadFailed | imageReadRetry | listenEnd | settleEnd =>
    cases clock
    simp [mem_dueCommands, mem_dueStart, State.isDue, brings]
  | probeTimerExpiry _ l | lineQuiet _ l =>
    cases clock
    cases l <;> simp [mem_dueCommands, mem_dueLine, State.isDue, brings]
  | peerLost | singleLine =>
    cases clock
    simp [mem_dueCommands, mem_duePeer, State.isDue, brings]
  | callPress | callRelease | silencePress | resetPress | startPress | stopPress =>
    cases clock
    simp [mem_dueCommands, mem_dueKeys, State.isDue, brings]
  | heatInputChange _ active =>
    cases clock
    obtain rfl := brings.2.2
    simp [mem_dueCommands, mem_dueKeys, State.isDue, brings]
  | blinded | blindedClear | silent =>
    cases clock
    simp [mem_dueCommands, mem_dueChannel, State.isDue, brings]
  | bucketBoundary | escalated | watchHoldExpiry =>
    cases clock
    simp [mem_dueCommands, mem_dueSensing, State.isDue, brings]
  | windowOpen | windowClose | confirmTimerExpiry | cutOff | valveStuck =>
    cases clock
    simp [mem_dueCommands, mem_dueValve, State.isDue, brings]
  | sampleComplete | periodicWindowStart | startGraceExpiry | gateTimerExpiry | rundownLimitExpiry | contactorMismatch
  | gateMismatch =>
    cases clock
    simp [mem_dueCommands, mem_dueExtraction, State.isDue, brings]
  | travelTimerExpiry | travelExhausted | damperWaitExpiry =>
    cases clock
    simp [mem_dueCommands, mem_dueBarrier, State.isDue, brings]
  | sirenFault | allClearEnd | resoundTimerExpiry | cadenceLevelChange =>
    cases clock
    simp [mem_dueCommands, mem_dueSirens, State.isDue, brings]
  | stateIntervalExpiry | instantAged =>
    cases clock
    simp [mem_dueCommands, State.isDue, brings]
  | flowSwitchChange =>
    cases clock
    exact mem_dueFeedback_of brings.2 (mem_valveFeedback brings.1)
  | barrierFeedbackChange =>
    cases clock
    exact mem_dueFeedback_of brings.2 (mem_barrierFeedback brings.1)
  | sirenFeedbackChange =>
    cases clock
    exact mem_dueFeedback_of brings.2 (mem_sirenFeedback brings.1)
  | gateFeedbackChange | runningContactChange =>
    cases clock
    obtain ⟨o, role, held⟩ := brings
    exact mem_dueFeedback_of held (by
      unfold State.feedbackCommand
      rw [role]
      exact List.mem_singleton_self _)

end

/-! ## The millisecond -/

/-- R39: a level opposite to the debounced state is timed from the instant at which it is first seen. -/
theorem watch_eq (now : Time) (d : Debounced) : d.watch now =
    { d with opposite := if d.raw = d.state then none else some (d.opposite.getD now) } := by
  simp only [Debounced.watch, beq_iff_eq]

/-- R39: the release of a press key only sets its debounced state. -/
theorem watch_release (now : Time) (d : Debounced) : (d.watch now).release now =
    if d.state = true ∧ d.raw = false ∧ reached now (after (d.opposite.getD now) 50) = true then ⟨false, false, none⟩
    else { d with opposite := if d.raw = d.state then none else some (d.opposite.getD now) } := by
  obtain ⟨raw, state, opposite⟩ := d
  rw [watch_eq]
  cases raw <;> cases state <;> simp [Debounced.release, Debounced.changes, due, Debounced.settled, Config.debounce]

/-- Settles O1: the queue decides between a command and a millisecond, and the due commands are those that the rules bring. -/
theorem stepTakesFrontCommand : Obligations.StepTakesFrontCommand := by
  refine ⟨fun c rest s waiting => ?front, fun s empty => ?tick⟩
  case front =>
    unfold step
    rw [waiting]
  case tick =>
    intro now watched key ticked
    have feedback : (s.inputs.feedback.map fun f => { f with input := f.input.watch now }) =
        tabulate fun o => { s.inputs.feedback[o] with input := watched (s.inputs.feedback[o]).input } :=
      vector_eq fun o => by
        rw [getElem_map_fin, watch_eq]
        exact (tabulate_at (fun o : Output => ({ s.inputs.feedback[o] with
          input := watched (s.inputs.feedback[o]).input } : Feedback)) o).symm
    have advanced : s.advance = ticked := by
      show ({ s with clock := now, inputs := s.inputs.watch now } : State) = ticked
      rw [Inputs.watch, feedback, watch_release, watch_release, watch_release, watch_release, watch_eq, watch_eq]
    refine ⟨?_, fun c => ⟨dueCommands_brings, fun h => mem_dueCommands_of h.1 h.2⟩⟩
    unfold step
    rw [empty]
    show Host.Outcome.next s.tick = _
    unfold State.tick
    rw [advanced]

end Sys2Proof.Machine
end

section
/-! SUPPORT. A RESET taken (R43): what each of its parts leaves alone. -/

namespace Sys2Proof.Machine

/-- A state with other barriers, sirens, records, flags and STATE fills. -/
def State.besideReset (s : State) (b : Barriers) (x : Sirens) (r : EventRecord) (m : BitVec 16) (la lb : LineInterface)
    (a : Assembler) : State :=
  { s with barriers := b, sirens := x, record := r, flags := m, lineA := la, lineB := lb, assembler := a }

/-- t is s but for the barriers, the sirens, the records, the flags and the STATE fills. -/
def Beside (s t : State) : Prop :=
  t = s.besideReset t.barriers t.sirens t.record t.flags t.lineA t.lineB t.assembler

section
variable {s t u : State}

theorem Beside.refl (s : State) : Beside s s := rfl

theorem Beside.trans (h : Beside s t) (h' : Beside t u) : Beside s u := by
  unfold Beside at *
  rw [h] at h'
  exact h'

theorem releaseBarrier_beside (s : State) (o : Output) : Beside s (s.releaseBarrier o) := by
  unfold State.releaseBarrier
  simp only
  split
  · rfl
  · split <;> rfl

theorem releaseIfDue_beside (s : State) (o : Output) : Beside s (s.releaseIfDue o) := by
  unfold State.releaseIfDue
  split
  · exact releaseBarrier_beside s o
  · exact .refl s

theorem foldl_beside (f : State → Output → State) (hf : ∀ s o, Beside s (f s o)) (os : List Output) (s : State) :
    Beside s (os.foldl f s) := by
  induction os generalizing s with
  | nil => exact .refl s
  | cons o os ih => exact (hf s o).trans (ih _)

theorem considerQueue_beside (s : State) : Beside s s.considerQueue := by
  rw [considerQueue_frame]
  rfl

theorem judgeBarriers_beside (s : State) : Beside s s.judgeBarriers :=
  (foldl_beside _ releaseIfDue_beside _ s).trans (considerQueue_beside _)

theorem rearmBarriers_beside (s : State) : Beside s s.rearmBarriers := rfl

theorem followZones_beside (s : State) : Beside s s.followZones := rfl

theorem resetSirens_beside (s : State) : Beside s s.resetSirens := by
  unfold State.resetSirens
  split
  · rfl
  · exact .refl s

theorem fillOnChange_beside (s : State) : Beside s s.fillOnChange := by
  rw [fillOnChange_frame]
  rfl

theorem judgeFlags_beside (s : State) : Beside s s.judgeFlags := rfl

theorem Beside.cases (h : Beside s t) : ∃ b x r m la lb a, t = s.besideReset b x r m la lb a := ⟨_, _, _, _, _, _, _, h⟩

/-- R43: after the fan and the valves are judged a RESET changes the barriers, the sirens and the flags. -/
theorem resetTail_beside (w : State) : Beside w w.resetTail := by
  have claims : Beside w w.resetClaims :=
    (judgeBarriers_beside _).trans ((rearmBarriers_beside _).trans (followZones_beside _))
  exact claims.trans ((resetSirens_beside _).trans ((fillOnChange_beside _).trans (judgeFlags_beside _)))

/-! ## The parts that a RESET does not write -/

theorem resetSirens_apart (s : State) : s.resetSirens.apart = s.apart := by
  unfold State.resetSirens
  split <;> rfl

theorem rearmBarriers_apart (s : State) : s.rearmBarriers.apart = s.apart := rfl

theorem judgeFlags_apart (s : State) : s.judgeFlags.apart = s.apart := rfl

theorem clock_of_apart (h : t.apart = s.apart) : t.clock = s.clock :=
  (congrArg State.clock h : t.apart.clock = s.apart.clock)

theorem resetClaims_apart (w : State) : w.resetClaims.apart = w.apart :=
  (followZones_consumes _).apart.trans ((rearmBarriers_apart _).trans (judgeBarriers_consumes _).apart)

theorem resetTail_apart (w : State) : w.resetTail.apart = w.apart :=
  (judgeFlags_apart _).trans ((fillOnChange_consumes _).apart.trans ((resetSirens_apart _).trans (resetClaims_apart w)))

theorem takeReset_apart (s : State) : s.takeReset.apart = s.resetEscalation.apart := by
  rw [takeReset_eq, resetTail_apart, (resetJudged_consumes s).apart, resetFront_apart]

theorem resetSirens_slots (s : State) : SameSlots s s.resetSirens := by
  unfold State.resetSirens
  split <;> exact ⟨rfl, rfl, rfl⟩

theorem rearmBarriers_slots (s : State) : SameSlots s s.rearmBarriers := ⟨rfl, rfl, rfl⟩

theorem followZones_slots (s : State) : SameSlots s s.followZones := ⟨rfl, rfl, rfl⟩

theorem resetFront_slots (s : State) : SameSlots s s.resetFront := by
  rw [resetFront_frame]
  exact ⟨rfl, rfl, rfl⟩

theorem resetClaims_slots (w : State) : SameSlots w w.resetClaims := by
  obtain ⟨-, -, -, -, -, barriers⟩ := judgeBarriers_sameFan w
  exact barriers.trans ((rearmBarriers_slots _).trans (followZones_slots _))

theorem refills_judgeFlags (h : s.refills t) : s.refills t.judgeFlags := ⟨h.slots, h.assembler⟩

theorem resetTail_refills (w : State) : w.refills w.resetTail := by
  have clock : w.resetClaims.resetSirens.clock = w.clock :=
    clock_of_apart ((resetSirens_apart _).trans (resetClaims_apart w))
  exact refills_judgeFlags
    (refills_back (fillOnChange_refills _) ((resetClaims_slots w).trans (resetSirens_slots _)) clock)

theorem takeReset_refills (s : State) : s.refills s.takeReset := by
  have front : s.resetJudged.clock = s.clock :=
    (resetJudged_consumes s).clock.trans (clock_of_apart (s := s.resetEscalation) (resetFront_apart s))
  have slots : SameSlots s s.resetJudged := (resetFront_slots s).trans (judgeExtraction_same _ _).2.2
  rw [takeReset_eq]
  exact refills_back (resetTail_refills _) slots front

end

end Sys2Proof.Machine
end

section
/-! SUPPORT. A RESET taken: the attention flags that stand (R161), and the fan and the valves (R94, R95, R113). -/

namespace Sys2Proof.Machine

section
variable {s t u v w : State}

/-! ## The flags that stand (R161) -/

theorem standing_fold (l : List Attention) (m : BitVec 16) (a : Attention) :
    (l.foldl (fun m a => if s.condition a then m ||| a.mask else m) m).getLsbD a.bit = true ↔
      m.getLsbD a.bit = true ∨ (a ∈ l ∧ s.condition a = true) := by
  induction l generalizing m with
  | nil => simp
  | cons b l ih =>
    rw [List.foldl_cons, ih, List.mem_cons]
    by_cases h : s.condition b = true
    · rw [if_pos h, flagged_raised]
      constructor
      · rintro ((old | rfl) | ⟨m, c⟩)
        · exact .inl old
        · exact .inr ⟨.inl rfl, h⟩
        · exact .inr ⟨.inr m, c⟩
      · rintro (old | ⟨rfl | m, c⟩)
        · exact .inl (.inl old)
        · exact .inl (.inr rfl)
        · exact .inr ⟨m, c⟩
    · rw [if_neg h]
      constructor
      · rintro (old | ⟨m, c⟩)
        · exact .inl old
        · exact .inr ⟨.inr m, c⟩
      · rintro (old | ⟨rfl | m, c⟩)
        · exact .inl old
        · exact absurd c h
        · exact .inr ⟨m, c⟩

theorem standing_bit (s : State) (a : Attention) : s.standing.getLsbD a.bit = s.condition a := by
  have member : a ∈ Attention.all := by cases a <;> decide
  rw [Bool.eq_iff_iff, State.standing, standing_fold]
  simp [member]

/-- R161: a flag stands after a RESET when it stood before and its condition does. -/
theorem judgeFlags_flagged (s : State) (a : Attention) : s.judgeFlags.flagged a = (s.flagged a && s.condition a) := by
  unfold State.flagged State.judgeFlags
  rw [BitVec.getLsbD_and, standing_bit]

theorem judgeFlags_condition (s : State) (a : Attention) : s.judgeFlags.condition a = s.condition a := by
  cases a <;> rfl

/-! ## The fan, seen from before and after its judgement -/

/-- s with another own level, zone picture, views and flags, and another escalation timer: what a RESET changes before the fan is
judged, but for the faults and marks that it clears. -/
def State.beforeFan (s : State) (own : OwnLevel) (sensing : Sensing) (zones : ZonePicture) (views : Vector FanView 4)
    (flags : BitVec 16) : State :=
  { s with own := own, sensing := sensing, zones := zones, views := views, flags := flags }

theorem resetFront_beforeFan (s : State) : ∃ own sensing zones views flags,
    s.resetFront = s.resetMarked.beforeFan own sensing zones views flags := ⟨_, _, _, _, _, resetFront_frame s⟩

/-- What the fan comes to does not depend on what a RESET changes before. -/
theorem fanSettles_beforeFan {own : OwnLevel} {sensing : Sensing} {zones : ZonePicture} {views : Vector FanView 4}
    {flags : BitVec 16} {event : List Cause} (h : (s.beforeFan own sensing zones views flags).fanSettles t event) :
    s.fanSettles t event where
  flood := ⟨h.flood.flood, h.flood.cut, h.flood.stands⟩
  apart := h.apart
  conditions := h.conditions
  causes := h.causes
  still := h.still
  timer := h.timer
  mismatches := h.mismatches
  sampler := h.sampler

/-- What the fan comes to stands while barriers, sirens, records, flags and fills change, as long as the flag of a cut does. -/
theorem fanSettles_beside {event : List Cause} (h : v.fanSettles w event) (beside : Beside w t) (grows : Grows w t)
    (role : ∀ o : Output, w.role o = v.role o)
    (flag : w.flagged .valveTrouble = true → w.valveTrouble = true → t.flagged .valveTrouble = true) :
    v.fanSettles t event := by
  obtain ⟨b, x, r, m, la, lb, a, rfl⟩ := beside.cases
  obtain ⟨-, fs, rfl⟩ := grows
  have filed : v.fanSettles (w.fileAll fs) event := fanSettles_forth h (fileAll_consumes w fs).stays rfl rfl rfl
  have cuts (o : Output) (cut : v.floodCuts w (v.extraction.phase.passed w.extraction.phase) o) :
      (w.besideReset b x (w.record.fileAll w.clock fs) m la lb a).flagged .valveTrouble = true := by
    obtain ⟨valve, flagged, -⟩ := h.flood.cut o cut
    refine flag flagged (List.any_eq_true.mpr ⟨o, mem_indexes o, ?_⟩)
    rw [Bool.and_eq_true, role, valve]
    exact ⟨cut.1, forceOff_trouble ..⟩
  exact
    { flood := ⟨filed.flood.flood, fun o cut => ⟨(filed.flood.cut o cut).1, cuts o cut, (filed.flood.cut o cut).2.2⟩,
        filed.flood.stands⟩
      apart := filed.apart
      conditions := filed.conditions
      causes := filed.causes
      still := filed.still
      timer := filed.timer
      mismatches := filed.mismatches
      sampler := filed.sampler }

end

end Sys2Proof.Machine
end

section
/-! SUPPORT. A RESET taken: its records and flags, and what the fan comes to (R94, R113, R145, R159, R161). -/

namespace Sys2Proof.Machine

section
variable {s t u v w : State}

/-! ## Records and flags after the fan is judged -/

/-- R145: the ALL_CLEAR records of a RESET. -/
def State.allClearFilings (s : State) : List Filing :=
  if s.operating then ((indexes 4).filter s.earnsAllClear).map fun (o : Output) => ⟨.allClear, octet o.val, 0⟩ else []

theorem resetSirens_record (s : State) : s.resetSirens.record = s.record.fileAll s.clock s.allClearFilings := by
  unfold State.resetSirens State.allClearFilings
  split
  · rfl
  · exact (fileAll_nil ..).symm

theorem resetSirens_flags (s : State) : s.resetSirens.flags = s.flags := by
  unfold State.resetSirens
  split <;> rfl

theorem fillOnChange_record (s : State) : s.fillOnChange.judgeFlags.record = s.record := by
  show s.fillOnChange.record = s.record
  rw [fillOnChange_frame]

theorem fillOnChange_flags (s : State) : s.fillOnChange.flags = s.flags := by
  rw [fillOnChange_frame]

/-- R135, R141: barriers armed again and claims that follow file nothing and set no flag. -/
theorem rearmed_kept (b : State) : b.rearmBarriers.followZones.flags = b.flags ∧
    b.rearmBarriers.followZones.record = b.record := ⟨rfl, rfl⟩

theorem resetClaims_flags (w : State) : w.resetClaims.flags = w.flags := by
  obtain ⟨-, -, -, -, flags, -⟩ := judgeBarriers_sameFan w
  rw [State.resetClaims, (rearmed_kept _).1, flags]

/-- R125, R145: the records after the fan is judged: releases that find the feedback active, and the all-clears. -/
theorem resetTail_record (w : State) : ∃ gs, w.resetTail.record =
      w.record.fileAll w.clock (gs ++ w.resetClaims.allClearFilings) ∧
    ∀ f ∈ gs, ∃ o : Output, w.due o = true ∧ w.feedback o = true ∧ f = ⟨.barrierClosed, octet o.val, 0⟩ := by
  obtain ⟨gs, filed, from_⟩ := (releaseBarriers_released w).files
  have claims : w.resetClaims.record = w.record.fileAll w.clock gs := by
    rw [State.resetClaims, (rearmed_kept _).2, State.judgeBarriers, considerQueue_frame, ← filed]
  refine ⟨gs, ?_, fun f m => ?_⟩
  · rw [State.resetTail, fillOnChange_record, resetSirens_record, claims, clock_of_apart (resetClaims_apart w), fileAll_append]
  · obtain ⟨o, -, due, feedback, e⟩ := from_ f m
    exact ⟨o, due, feedback, e⟩

theorem resetTail_grows (w : State) : Grows w w.resetTail := by
  obtain ⟨gs, record, -⟩ := resetTail_record w
  exact ⟨clock_of_apart (resetTail_apart w), _, record⟩

/-- R161: after a RESET a flag stands that stood when the fan had been judged and whose condition stands. -/
theorem resetTail_flagged (w : State) (a : Attention) :
    w.resetTail.flagged a = (w.flagged a && w.resetTail.condition a) := by
  have kept : w.resetClaims.resetSirens.fillOnChange.flagged a = w.flagged a := by
    unfold State.flagged
    rw [fillOnChange_flags, resetSirens_flags, resetClaims_flags]
  rw [State.resetTail, judgeFlags_flagged, judgeFlags_condition, kept]

/-! ## The fan -/

theorem resetTail_fanSettles {event : List Cause} (h : v.fanSettles w event) (role : ∀ o : Output, w.role o = v.role o) :
    v.fanSettles w.resetTail event := by
  refine fanSettles_beside h (resetTail_beside w) (resetTail_grows w) role fun flagged trouble => ?_
  have condition : w.resetTail.condition .valveTrouble = w.valveTrouble := by
    obtain ⟨b, x, r, m, la, lb, a, e⟩ := (resetTail_beside w).cases
    rw [e]
    rfl
  rw [resetTail_flagged, flagged, condition, trouble]
  rfl

theorem takeReset_fanSettles (u : State) : u.resetMarked.fanSettles u.takeReset [] := by
  obtain ⟨own, sensing, zones, views, flags, front⟩ := resetFront_beforeFan u
  have judged : u.resetFront.fanSettles u.resetJudged [] := (judgeExtraction_settles u.resetFront []).1
  have settled := resetTail_fanSettles judged (resetJudged_consumes u).role
  rw [← takeReset_eq] at settled
  rw [front] at settled
  exact fanSettles_beforeFan settled

end

end Sys2Proof.Machine
end

section
/-! SUPPORT. A RESET taken, seen from the state with the press taken: the records and the flags that it brings (R94, R107, R125,
R145, R159, R161). -/

namespace Sys2Proof.Machine

section
variable (u : State)

/-! ## The state in which the fan has been judged -/

theorem resetFront_kept : u.resetFront.clock = u.clock ∧ u.resetFront.start = u.start ∧ u.resetFront.setup = u.setup ∧
    u.resetFront.inputs = u.inputs ∧ u.resetFront.peers = u.peers ∧ u.resetFront.record = u.record := by
  rw [resetFront_frame]
  exact ⟨rfl, rfl, rfl, rfl, rfl, rfl⟩

theorem resetFront_outputs : u.resetFront.barriers = u.barriers ∧ u.resetFront.sirens = u.sirens := by
  rw [resetFront_frame]
  exact ⟨rfl, rfl⟩

theorem resetJudged_kept : u.resetJudged.clock = u.clock ∧ u.resetJudged.start = u.start ∧ u.resetJudged.setup = u.setup ∧
    u.resetJudged.inputs = u.inputs ∧ u.resetJudged.peers = u.peers ∧ u.resetJudged.barriers = u.barriers ∧
    u.resetJudged.sirens = u.sirens := by
  obtain ⟨clock, start, setup, inputs, peers, -⟩ := resetFront_kept u
  obtain ⟨barriers, sirens⟩ := resetFront_outputs u
  obtain ⟨sameBarriers, sameSirens, -⟩ := judgeExtraction_same u.resetFront []
  have judged := resetJudged_consumes u
  exact ⟨judged.clock.trans clock, judged.start.trans start, judged.setup.trans setup, judged.inputs.trans inputs,
    judged.peers.trans peers, sameBarriers.trans barriers, sameSirens.trans sirens⟩

theorem resetJudged_flooded : Flooded u.resetFront u.resetJudged
    (fun d => (u.resetFront.extraction.phase.passed u.resetJudged.extraction.phase).map (u.resetFront.floodIn d))
    (u.resetFront.extraction.phase.passed u.resetJudged.extraction.phase).tail := (judgeExtraction_settles u.resetFront []).2

theorem resetFront_phase : u.resetFront.extraction.phase = u.extraction.phase := by
  rw [resetFront_frame]
  rfl

theorem resetTail_read (w : State) : w.resetTail.zones = w.zones ∧ w.resetTail.views = w.views ∧
    w.resetTail.extraction = w.extraction ∧ w.resetTail.flood = w.flood ∧ w.resetTail.valves = w.valves ∧
    w.resetTail.floodIn = w.floodIn := by
  obtain ⟨b, x, r, m, la, lb, a, e⟩ := (resetTail_beside w).cases
  rw [e]
  exact ⟨rfl, rfl, rfl, rfl, rfl, rfl⟩

/-- R94: the valves that a RESET cuts, as seen from the state with the press taken. -/
theorem reset_cuts (o : Output) :
    u.resetMarked.floodCuts u.takeReset (u.extraction.phase.passed u.takeReset.extraction.phase) o ↔
      u.resetFront.cutAt (fun d =>
        (u.resetFront.extraction.phase.passed u.resetJudged.extraction.phase).map (u.resetFront.floodIn d)) o := by
  obtain ⟨-, -, extraction, -, -, floodIn⟩ := resetTail_read u.resetJudged
  have judged (d : System) : u.resetJudged.floodIn d = u.resetFront.floodIn d :=
    funext fun p => floodIn_keeps (resetJudged_consumes u).stays d p
  rw [takeReset_eq, extraction]
  unfold State.floodCuts
  rw [floodIn, judged, resetFront_phase]
  obtain ⟨own, sensing, zones, views, flags, front⟩ := resetFront_beforeFan u
  rw [front]
  rfl

theorem resetFront_flagged (a : Attention) : u.resetFront.flagged a = true ↔ u.flagged a = true ∨
    (a = .fanFault ∧ ∃ d : System, u.resetFront.views[d].clash = true ∧ u.views[d].clash = false) := by
  have before : u.resetEscalation.recomposeOwn.resetZones.resetValves.resetMarks.flags = u.flags ∧
      u.resetEscalation.recomposeOwn.resetZones.resetValves.resetMarks.views = u.views := by
    simp only [State.resetMarks, State.resetValves, State.resetZones, State.recomposeOwn, State.resetEscalation, and_self]
  have chosen := chooseViews_flagged u.resetEscalation.recomposeOwn.resetZones.resetValves.resetMarks a
  unfold State.flagged at chosen ⊢
  rw [before.1, before.2] at chosen
  exact chosen

/-- R38, R97, R161: the flags that stand after a RESET. -/
theorem takeReset_flags (a : Attention) : u.takeReset.flagged a = true ↔
    u.takeReset.condition a = true ∧ (u.flagged a = true ∨ u.resetMarked.bringsFlag u.takeReset a) := by
  obtain ⟨-, views, -, -, -, -⟩ := resetTail_read u.resetJudged
  have views : u.takeReset.views = u.resetFront.views := by rw [takeReset_eq, views, (resetJudged_consumes u).views]
  have cuts := reset_cuts u
  rw [takeReset_eq] at views cuts ⊢
  rw [resetTail_flagged, Bool.and_eq_true, and_comm, (resetJudged_flooded u).flags, resetFront_flagged]
  unfold State.bringsFlag
  rw [views]
  refine and_congr_right fun _ => or_assoc.trans (or_congr_right (or_congr_right (and_congr_right fun _ => ?_)))
  exact exists_congr fun o => (cuts o).symm

end

end Sys2Proof.Machine
end

section
/-! SUPPORT. A RESET taken at the sirens (R140 to R142, R145). -/

namespace Sys2Proof.Machine

section
variable {s t w : State}

/-! ## The claims that have followed the zones -/

theorem rearmBarriers_sirens (s : State) : s.rearmBarriers.sirens = s.sirens := rfl

/-- R141: barriers released and armed again leave what the claims are read from. -/
theorem rearmed_besides (w : State) : ∃ b r m la lb a,
    w.judgeBarriers.rearmBarriers = w.besideReset b w.sirens r m la lb a := by
  have beside := (judgeBarriers_beside w).trans (rearmBarriers_beside _)
  obtain ⟨-, -, -, sirens, -, -⟩ := judgeBarriers_sameFan w
  have kept : w.judgeBarriers.rearmBarriers.sirens = w.sirens := (rearmBarriers_sirens _).trans sirens
  unfold Beside at beside
  rw [kept] at beside
  exact ⟨_, _, _, _, _, _, beside⟩

theorem resetClaims_unit (w : State) (o : Output) : w.resetClaims.sirens.units[o] =
    if w.operating && (w.role o).isSiren then
      { w.sirens.units[o] with
        claims := w.claimsFor o
        allClear := if (w.claimsFor o).isEmpty then w.sirens.units[o].allClear else none }
    else w.sirens.units[o] := by
  obtain ⟨b, r, m, la, lb, a, e⟩ := rearmed_besides w
  rw [State.resetClaims, followZones_unit, e]
  rfl

theorem resetClaims_cadence (w : State) : w.resetClaims.sirens = { w.sirens with units := w.resetClaims.sirens.units } := by
  obtain ⟨b, r, m, la, lb, a, e⟩ := rearmed_besides w
  rw [State.resetClaims, e]
  rfl

theorem resetClaims_read (w : State) : w.resetClaims.operating = w.operating ∧ w.resetClaims.role = w.role ∧
    w.resetClaims.zones = w.zones ∧ w.resetClaims.clock = w.clock ∧ w.resetClaims.setup = w.setup ∧
    w.resetClaims.peers = w.peers := by
  obtain ⟨b, r, m, la, lb, a, e⟩ := rearmed_besides w
  rw [State.resetClaims, e]
  exact ⟨rfl, rfl, rfl, rfl, rfl, rfl⟩

/-! ## Steps 1 to 3 of R145 -/

/-- R145: the claims unsilenced, the resound timer stopped and the all-clears given, before the patterns are chosen. -/
def State.unsilenced (s : State) : State :=
  { s with
    record := s.record.fileAll s.clock
      (((indexes 4).filter s.earnsAllClear).map fun (o : Output) => ⟨.allClear, octet o.val, 0⟩)
    sirens :=
      { s.sirens with
        resound := none
        units := s.mapSirens fun o u =>
          if s.earnsAllClear o then { u.unsilence with allClear := some (.of s.clock), fireSeen := false } else u.unsilence } }

theorem resetSirens_operating (h : s.operating = true) : s.resetSirens = s.unsilenced.choosePatterns := if_pos h

theorem resetSirens_waits (h : s.operating = false) : s.resetSirens = s := if_neg (by rw [h]; exact Bool.false_ne_true)

theorem unsilenced_unit (s : State) (o : Output) : s.unsilenced.sirens.units[o] =
    if (s.role o).isSiren then
      if s.earnsAllClear o then
        { s.sirens.units[o].unsilence with allClear := some (.of s.clock), fireSeen := false }
      else s.sirens.units[o].unsilence
    else s.sirens.units[o] := mapSirens_unit s _ o

theorem fillOnChange_sirens (s : State) : s.fillOnChange.judgeFlags.sirens = s.sirens := by
  show s.fillOnChange.sirens = s.sirens
  rw [fillOnChange_frame]

theorem resetTail_sirens (w : State) : w.resetTail.sirens = w.resetClaims.resetSirens.sirens := fillOnChange_sirens _

/-- R138 to R145: a siren output after a RESET. -/
theorem resetTail_unit (h : w.operating = true) (o : Output) (siren : (w.role o).isSiren = true) :
    w.resetTail.sirens.units[o].claims = (w.claimsFor o).map (fun c => { c with silenced := false }) ∧
    (w.resetClaims.earnsAllClear o = true →
      w.resetTail.sirens.units[o].allClear = some ⟨w.clock, none⟩ ∧ w.resetTail.sirens.units[o].fireSeen = false) ∧
    (w.resetClaims.earnsAllClear o = false →
      w.resetTail.sirens.units[o].allClear = (if (w.claimsFor o).isEmpty then w.sirens.units[o].allClear else none) ∧
        w.resetTail.sirens.units[o].fireSeen = w.sirens.units[o].fireSeen) := by
  obtain ⟨operating, role, -, clock, -, -⟩ := resetClaims_read w
  obtain ⟨claims, allClear, -, seen⟩ := choosePatterns_unit_kept w.resetClaims.unsilenced o
  have going : (w.operating && (w.role o).isSiren) = true := Bool.and_eq_true_iff.mpr ⟨h, siren⟩
  rw [resetTail_sirens, resetSirens_operating (operating.trans h), claims, allClear, seen, unsilenced_unit, role, if_pos siren,
    resetClaims_unit, if_pos going, clock]
  refine ⟨by split <;> rfl, fun earns => ?_, fun earns => ?_⟩
  · rw [if_pos earns]
    exact ⟨rfl, rfl⟩
  · rw [if_neg (by rw [earns]; exact Bool.false_ne_true)]
    exact ⟨rfl, rfl⟩

/-- R145, step 3: the outputs that get an ALL_CLEAR claim have seen fire and cover QUIET zones alone. -/
theorem earnsAllClear_iff (o : Output) (siren : (w.role o).isSiren = true) : w.resetClaims.earnsAllClear o = true ↔
    w.sirens.units[o].fireSeen = true ∧ ∀ z : Zone, hasZone (w.role o).covered z = true → w.zoneLevel z = .quiet := by
  obtain ⟨-, role, zones, -, -, -⟩ := resetClaims_read w
  have seen : w.resetClaims.sirens.units[o].fireSeen = w.sirens.units[o].fireSeen := by
    rw [resetClaims_unit]
    split <;> rfl
  have level (l : Level) : (l.atLeast .watch = true → False) ↔ l = .quiet := by cases l <;> decide
  have quiet : w.resetClaims.coveredQuiet o = true ↔
      ∀ z : Zone, hasZone (w.role o).covered z = true → w.zoneLevel z = .quiet := by
    unfold State.coveredQuiet State.anyZone State.zoneLevel
    rw [Bool.not_eq_true', List.any_eq_false, role, zones]
    refine ⟨fun h z covered => (level _).mp fun watch => h z (mem_indexes z) (Bool.and_eq_true_iff.mpr ⟨covered, watch⟩),
      fun h z _ both => ?_⟩
    obtain ⟨covered, watch⟩ := Bool.and_eq_true_iff.mp both
    exact (level _).mpr (h z covered) watch
  rw [State.earnsAllClear, Bool.and_eq_true, Bool.and_eq_true, quiet, seen, role, and_iff_right siren, and_comm]

/-- R145: an output that gets an ALL_CLEAR claim has no zone claim. -/
theorem earnsAllClear_claims (o : Output) (siren : (w.role o).isSiren = true) (h : w.resetClaims.earnsAllClear o = true) :
    w.claimsFor o = [] := by
  obtain ⟨-, quiet⟩ := (earnsAllClear_iff o siren).mp h
  obtain ⟨levels, -, -⟩ := claimsFor_follow w o
  refine List.eq_nil_iff_forall_not_mem.mpr fun c m => ?_
  obtain ⟨covered, level, storm⟩ := levels c m
  rw [level, quiet c.zone covered] at storm
  cases storm

end

end Sys2Proof.Machine
end

section
/-! SUPPORT. A RESET taken at the sirens, seen from the state with the press taken (R140 to R142, R145). -/

namespace Sys2Proof.Machine

section
variable {w : State}

/-! ## Outputs, timers and patterns -/

theorem resetTail_waits (h : w.operating = false) : w.resetTail.sirens = w.sirens := by
  obtain ⟨operating, -, -, -, -, -⟩ := resetClaims_read w
  have units : w.resetClaims.sirens.units = w.sirens.units := vector_eq fun o => by
    rw [resetClaims_unit, h, Bool.false_and, if_neg Bool.false_ne_true]
  rw [resetTail_sirens, resetSirens_waits (operating.trans h), resetClaims_cadence, units]

theorem resetSirens_other (s : State) (o : Output) (h : (s.role o).isSiren = false) :
    s.resetSirens.sirens.units[o] = s.sirens.units[o] := by
  rcases Bool.eq_false_or_eq_true s.operating with going | waits
  · have none : ¬(s.unsilenced.operating && (s.unsilenced.role o).isSiren) = true := by
      show ¬(s.operating && (s.role o).isSiren) = true
      rw [h, Bool.and_false]
      exact Bool.false_ne_true
    rw [resetSirens_operating going, choosePatterns_unit, if_neg none, unsilenced_unit,
      if_neg (by rw [h]; exact Bool.false_ne_true)]
  · rw [resetSirens_waits waits]

theorem resetTail_other (o : Output) (h : (w.role o).isSiren = false) :
    w.resetTail.sirens.units[o] = w.sirens.units[o] := by
  obtain ⟨-, role, -, -, -, -⟩ := resetClaims_read w
  rw [resetTail_sirens, resetSirens_other _ o (by rw [role]; exact h), resetClaims_unit,
    if_neg (by rw [h, Bool.and_false]; exact Bool.false_ne_true)]

theorem unsilenced_fault (s : State) (o : Output) : s.unsilenced.sirens.units[o].fault = s.sirens.units[o].fault := by
  rw [unsilenced_unit]
  split
  · split <;> rfl
  · rfl

theorem resetTail_fault (w : State) (o : Output) : w.resetTail.sirens.units[o].fault = w.sirens.units[o].fault := by
  rcases Bool.eq_false_or_eq_true w.operating with going | waits
  · obtain ⟨operating, -, -, -, -, -⟩ := resetClaims_read w
    obtain ⟨-, -, fault, -⟩ := choosePatterns_unit_kept w.resetClaims.unsilenced o
    rw [resetTail_sirens, resetSirens_operating (operating.trans going), fault, unsilenced_fault, resetClaims_unit]
    split <;> rfl
  · rw [resetTail_waits waits]

theorem resetTail_resound (w : State) : w.resetTail.sirens.resound = if w.operating then none else w.sirens.resound := by
  rcases Bool.eq_false_or_eq_true w.operating with going | waits
  · obtain ⟨operating, -, -, -, -, -⟩ := resetClaims_read w
    obtain ⟨resound, -⟩ := (choosePatterns_consumes w.resetClaims.unsilenced).sirens
    rw [resetTail_sirens, resetSirens_operating (operating.trans going), resound, going]
    rfl
  · rw [resetTail_waits waits, waits]
    rfl

/-- R138: steps 1 to 3 of R145 leave the absence count of an output. -/
theorem unsilenced_absence (s : State) (o : Output) :
    s.unsilenced.sirens.units[o].absence = s.sirens.units[o].absence ∧
      s.unsilenced.sirens.units[o].absenceFrom = s.sirens.units[o].absenceFrom ∧
      s.unsilenced.sirens.units[o].absenceTaken = s.sirens.units[o].absenceTaken := by
  rw [unsilenced_unit]
  split
  · split <;> exact ⟨rfl, rfl, rfl⟩
  · exact ⟨rfl, rfl, rfl⟩

theorem patternsChosen_judgeFlags {s t : State} (h : s.patternsChosen t) : s.patternsChosen t.judgeFlags :=
  ⟨h.pattern, h.counts, h.slow, h.fast, h.leaders⟩

theorem resetSirens_chosen (s : State) (h : s.operating = true) : s.patternsChosen s.resetSirens := by
  rw [resetSirens_operating h]
  exact patternsChosen_from (choosePatterns_chosen _) rfl rfl rfl rfl rfl rfl rfl (unsilenced_absence s)

theorem resetTail_chosen (h : w.operating = true) : w.patternsChosen w.resetTail := by
  obtain ⟨operating, -, -, clock, setup, peers⟩ := resetClaims_read w
  have cadence := resetClaims_cadence w
  have unit := resetClaims_unit w
  rw [State.resetTail]
  generalize w.resetClaims = c at operating clock setup peers cadence unit ⊢
  have chosen : w.patternsChosen c.resetSirens := by
    refine patternsChosen_from (resetSirens_chosen c (operating.trans h)) clock setup peers (by rw [cadence]) (by rw [cadence])
      (by rw [cadence]) (by rw [cadence]) fun o => ?_
    rw [unit]
    split <;> exact ⟨rfl, rfl, rfl⟩
  exact patternsChosen_judgeFlags
    (patternsChosen_forth chosen (fillOnChange_consumes _) (by rw [fillOnChange_frame]))

/-! ## The claims -/

theorem resetTail_claims (h : w.operating = true) (o : Output) (siren : (w.role o).isSiren = true) :
    w.claimsFollow w.resetTail o ∧ ∀ c ∈ w.resetTail.sirens.units[o].claims, c.silenced = false := by
  obtain ⟨claims, earned, kept⟩ := resetTail_unit h o siren
  obtain ⟨levels, claimed, since⟩ := claimsFor_follow w o
  have read : w.resetTail.role = w.role ∧ w.resetTail.zoneLevel = w.zoneLevel := by
    obtain ⟨b, x, r, m, la, lb, a, e⟩ := (resetTail_beside w).cases
    rw [e]
    exact ⟨rfl, rfl⟩
  refine ⟨⟨fun c m => ?_, fun z covered level => ?_, fun c m => ?_, fun some => ?_⟩, fun c m => ?_⟩
  · rw [claims] at m
    obtain ⟨d, member, rfl⟩ := List.mem_map.mp m
    rw [read.1, read.2]
    exact levels d member
  · rw [read.1] at covered
    rw [read.2] at level
    obtain ⟨d, member, e⟩ := claimed z covered level
    exact ⟨{ d with silenced := false }, by rw [claims]; exact List.mem_map.mpr ⟨d, member, rfl⟩, e⟩
  · rw [claims] at m
    obtain ⟨d, member, rfl⟩ := List.mem_map.mp m
    have follows := since d member
    split at follows
    · rename_i none
      simp only [none]
      exact follows.1
    · rename_i old found
      simp only [found]
      exact follows.1
  · have some : w.claimsFor o ≠ [] := fun none => some (by rw [claims, none]; rfl)
    rcases Bool.eq_false_or_eq_true (w.resetClaims.earnsAllClear o) with earns | earns
    · exact absurd (earnsAllClear_claims o siren earns) some
    · rw [(kept earns).1, if_neg (by rw [List.isEmpty_iff]; exact some)]
  · rw [claims] at m
    obtain ⟨d, -, rfl⟩ := List.mem_map.mp m
    rfl

end

end Sys2Proof.Machine
end

section
/-! SUPPORT. A RESET taken at the barriers (R124, R129, R135). -/

namespace Sys2Proof.Machine

section
variable {u w b : State}

theorem resetSirens_barriers (s : State) : s.resetSirens.barriers = s.barriers := by
  unfold State.resetSirens
  split <;> rfl

theorem fillOnChange_barriers (s : State) : s.fillOnChange.judgeFlags.barriers = s.barriers := by
  show s.fillOnChange.barriers = s.barriers
  rw [fillOnChange_frame]

theorem followZones_barriers (s : State) : s.followZones.barriers = s.barriers := rfl

/-- R135: after a RESET the barriers are those released and considered, armed again. -/
theorem resetTail_barriers (w : State) : ∃ x r m la lb a,
    w.resetTail = w.judgeBarriers.besideReset w.judgeBarriers.rearmBarriers.barriers x r m la lb a := by
  have beside : Beside w.judgeBarriers w.resetTail :=
    ((rearmBarriers_beside _).trans (followZones_beside _)).trans
      ((resetSirens_beside _).trans ((fillOnChange_beside _).trans (judgeFlags_beside _)))
  have barriers : w.resetTail.barriers = w.judgeBarriers.rearmBarriers.barriers := by
    rw [State.resetTail, fillOnChange_barriers, resetSirens_barriers, State.resetClaims, followZones_barriers]
  unfold Beside at beside
  rw [barriers] at beside
  exact ⟨_, _, _, _, _, _, beside⟩

/-- R135: a barrier after RESET. -/
theorem rearmBarriers_unit (b : State) (o : Output) : b.rearmBarriers.barriers.units[o] =
    if (b.role o).isBarrier && (b.barrier o).state.rearmed && !b.releaseHolds o then (b.barrier o).hold else b.barrier o :=
  tabulate_at _ o

theorem resetJudged_motors (h : u.motorsInTurn) : u.resetJudged.motorsInTurn := by
  refine (resetJudged_consumes u).motors ?_
  obtain ⟨own, sensing, zones, views, flags, front⟩ := resetFront_beforeFan u
  rw [front]
  exact ⟨h.closing, h.motor, h.supply, h.queued, h.once, h.unarmed, h.order, h.run⟩

theorem resetJudged_grows (u : State) : Grows u u.resetJudged := by
  obtain ⟨clock, -, -, -, -, record⟩ := resetFront_kept u
  obtain ⟨judged, fs, filed⟩ := (resetJudged_flooded u).grows
  exact ⟨judged.trans clock, fs, by rw [filed, record, clock]⟩

/-- R124, R125, R127 to R131: the releases and the queue considered, seen from the state with the press taken. -/
theorem resetJudged_barriers (u : State) : u.barriersSettle u.resetJudged.judgeBarriers := by
  obtain ⟨-, -, -, inputs, -, barriers, -⟩ := resetJudged_kept u
  exact barriersSettle_back (judgeBarriers_barriersSettle _) barriers inputs resetJudged_motors (resetJudged_grows u)
    (judgeBarriers_consumes _).clock

/-! ## Barriers armed again (R135) -/

theorem hold_eq (b : Barrier) : b.hold =
    { b with state := .held, travelTimer := none, run := none, kept := none, attempts := 0, wait := .idle } := rfl

/-- R135: a barrier that is not re-armed stands. -/
theorem rearm_stands (o : Output) (h : (b.role o).isBarrier = false ∨ (b.barrier o).state.rearmed = false) :
    b.rearmBarriers.barriers.units[o] = b.barrier o := by
  rw [rearmBarriers_unit]
  refine if_neg ?_
  rcases h with h | h <;> rw [h] <;> simp

/-- What a RESET does to the barriers, in the terms of State.resetFrom: u is the state with the press taken, b the one with
every release made and the queue considered, and t is b with the barriers armed again. -/
structure Rearmed (u t : State) : Prop where
  rearmed : ∀ o : Output, (u.role o).isBarrier = true → (u.barrier o).state.rearmed = true → o ∉ u.barriers.queue →
    t.barrier o = if t.releaseHolds o then u.barrier o else
      { u.barrier o with
        state := .held, travelTimer := none, run := none, kept := none, attempts := 0, wait := .idle }
  stand : ∀ o : Output, o ∉ u.barriers.queue →
    ((u.role o).isBarrier = false ∨ (u.barrier o).state = .unarmed ∨ (u.barrier o).state = .closing ∨
      (u.barrier o).state = .held ∧ t.releaseHolds o = false) → t.barrier o = u.barrier o
  waiting : ∀ o : Output, (u.barrier o).state = .queued → o ∈ t.barriers.queue →
    t.barrier o = { u.barrier o with wait := (t.barrier o).wait }
  queue : ∀ o ∈ u.barriers.queue, o ∈ t.barriers.queue ∨ t.barriers.running = some o
  fresh : ∀ o ∈ t.barriers.queue, o ∈ u.barriers.queue ∨ (u.barrier o).state = .held
  running : ∀ o : Output, u.barriers.running = some o → t.barriers.running = some o
  started : t.barriers.running ≠ u.barriers.running → t.operating = true ∧ t.supply.low = false
  released : t.barriersFollow
  barriers : ∃ b c : Barriers, u.barriersReleased t b ∧ ({ t with barriers := c } : State).considers b ∧
    t.barriers = { c with units := tabulate fun o =>
      if (u.role o).isBarrier && c.units[o].state.rearmed && !t.releaseHolds o then { c.units[o] with
        state := .held, travelTimer := none, run := none, kept := none, attempts := 0, wait := .idle }
      else c.units[o] }

theorem rearmed_of {x : Sirens} {r : EventRecord} {m : BitVec 16} {la lb : LineInterface} {a : Assembler}
    (h : u.barriersSettle b) (role : ∀ o : Output, b.role o = u.role o) :
    Rearmed u (b.besideReset b.rearmBarriers.barriers x r m la lb a) where
  rearmed o barrier state absent := by
    have stands : b.barrier o = u.barrier o := h.stand o absent
      (.inr (.inr (.inl fun held => by rw [held] at state; cases state)))
    show b.rearmBarriers.barriers.units[o] = if b.releaseHolds o then u.barrier o else _
    rw [rearmBarriers_unit, stands, role, barrier, state, hold_eq]
    cases b.releaseHolds o <;> rfl
  stand o absent why := by
    have stands : b.barrier o = u.barrier o := h.stand o absent (by
      rcases why with other | state | state | ⟨-, holds⟩
      · exact .inr (.inl (by rw [role]; exact other))
      · exact .inr (.inr (.inl (by rw [state]; simp)))
      · exact .inr (.inr (.inl (by rw [state]; simp)))
      · exact .inr (.inr (.inr holds)))
    refine (rearm_stands o ?_).trans stands
    rw [stands, role]
    rcases why with other | state | state | ⟨state, -⟩
    · exact .inl other
    all_goals exact .inr (by rw [state]; rfl)
  waiting o queued member := by
    have stands : b.barrier o = { u.barrier o with wait := (b.barrier o).wait } :=
      h.waiting o member (by rw [queued]; simp)
    have same : b.rearmBarriers.barriers.units[o] = b.barrier o := rearm_stands o (.inr (by rw [stands, queued]; rfl))
    show b.rearmBarriers.barriers.units[o] = { u.barrier o with wait := b.rearmBarriers.barriers.units[o].wait }
    rw [same]
    exact stands
  queue := h.queue
  fresh := h.fresh
  running := h.running
  started := h.started
  released operating o barrier held := by
    have held : b.rearmBarriers.barriers.units[o].state = .held := held
    have barrier : (b.role o).isBarrier = true := barrier
    show b.releaseHolds o = false
    rcases Bool.eq_false_or_eq_true (b.releaseHolds o) with holds | holds
    · rw [rearmBarriers_unit, holds, Bool.not_true, Bool.and_false, if_neg Bool.false_ne_true] at held
      exact h.released operating o barrier held
    · exact holds
  barriers := by
    obtain ⟨b', rel, con⟩ := h.whole
    refine ⟨b', b.barriers, ⟨rel.units, rel.running, rel.joined, rel.stays, rel.order⟩,
      ⟨con.starts, con.waits, con.run, con.rest⟩, ?_⟩
    have units : (fun o : Output => if (b.role o).isBarrier && (b.barrier o).state.rearmed && !b.releaseHolds o then
        (b.barrier o).hold else b.barrier o) = fun o : Output =>
        if (u.role o).isBarrier && (b.barrier o).state.rearmed && !b.releaseHolds o then (b.barrier o).hold
        else b.barrier o := funext fun o => by rw [role]
    show ({ b.barriers with units := tabulate _ } : Barriers) = _
    rw [units]
    rfl

theorem takeReset_rearmed (u : State) : Rearmed u u.takeReset := by
  obtain ⟨x, r, m, la, lb, a, e⟩ := resetTail_barriers u.resetJudged
  rw [takeReset_eq, e]
  refine rearmed_of (resetJudged_barriers u) fun o => ?_
  obtain ⟨-, -, setup, -, -, -, -⟩ := resetJudged_kept u
  rw [(judgeBarriers_consumes _).role]
  unfold State.role
  rw [setup]

end

end Sys2Proof.Machine
end

section
/-! SUPPORT. A RESET taken: its records (R94, R107, R125, R145), and its calm with the derived picture standing (R32, R36, R95). -/

namespace Sys2Proof.Machine

section
variable (u : State)

/-! ## Records -/

theorem reset_due (o : Output) : u.resetMarked.releaseDue u.takeReset o = u.resetJudged.due o := by
  obtain ⟨-, -, -, -, -, barriers, -⟩ := resetJudged_kept u
  have barrier : u.resetMarked.barrier o = u.resetJudged.barrier o := by
    show u.barriers.units[o] = u.resetJudged.barriers.units[o]
    rw [barriers]
  obtain ⟨b, x, r, m, la, lb, a, e⟩ := (resetTail_beside u.resetJudged).cases
  unfold State.releaseDue
  rw [barrier, takeReset_eq, e]
  rfl

theorem reset_cutOff (o : Output) : cutOffFiling u.resetFront.clock o u.resetFront.valves[o] =
    ⟨.cutOff, octet o.val, sat16 (u.resetMarked.valves[o].openTime u.clock / 1000)⟩ := by
  rw [resetFront_frame]
  rfl

/-- R145: an ALL_CLEAR record is filed for the outputs that get an ALL_CLEAR claim. -/
theorem allClearDue_iff (o : Output) (siren : (u.role o).isSiren = true) :
    u.resetJudged.resetClaims.earnsAllClear o = true ↔ u.allClearDue u.takeReset o := by
  obtain ⟨-, -, setup, -, -, -, sirens⟩ := resetJudged_kept u
  obtain ⟨zones, -, -, -, -, -⟩ := resetTail_read u.resetJudged
  have role : u.resetJudged.role o = u.role o := by
    unfold State.role
    rw [setup]
  rw [earnsAllClear_iff o (by rw [role]; exact siren), role, sirens]
  unfold State.allClearDue State.zoneLevel
  rw [takeReset_eq, zones, and_iff_right siren]

theorem resetJudged_operating : u.resetJudged.operating = u.operating := by
  obtain ⟨-, start, -, -, -, -, -⟩ := resetJudged_kept u
  unfold State.operating
  rw [start]

theorem resetJudged_role : u.resetJudged.role = u.role := by
  obtain ⟨-, -, setup, -, -, -, -⟩ := resetJudged_kept u
  unfold State.role
  rw [setup]

theorem allClearFilings_mem {f : Filing} (m : f ∈ u.resetJudged.resetClaims.allClearFilings) :
    ∃ o : Output, u.operating = true ∧ u.allClearDue u.takeReset o ∧ f = ⟨.allClear, octet o.val, 0⟩ := by
  obtain ⟨operating, role, -, -, -, -⟩ := resetClaims_read u.resetJudged
  unfold State.allClearFilings at m
  rw [operating, resetJudged_operating] at m
  split at m
  · rename_i going
    obtain ⟨o, member, rfl⟩ := List.mem_map.mp m
    have earns := (List.mem_filter.mp member).2
    have siren : (u.role o).isSiren = true := by
      rw [State.earnsAllClear, Bool.and_eq_true, Bool.and_eq_true, role, resetJudged_role] at earns
      exact earns.1.1
    exact ⟨o, going, (allClearDue_iff u o siren).mp earns, rfl⟩
  · cases m

/-- R94, R107, R125, R145, R159: the records of a RESET, each with its cause. -/
theorem takeReset_files : ∃ fs, u.takeReset.record = u.record.fileAll u.clock fs ∧ u.phaseRecords u.takeReset fs ∧
    ∀ f ∈ fs, u.resetMarked.bringsRecord u.takeReset f ∨
      ∃ o : Output, u.operating = true ∧ u.allClearDue u.takeReset o ∧ f = ⟨.allClear, octet o.val, 0⟩ := by
  obtain ⟨gs, record, released⟩ := resetTail_record u.resetJudged
  obtain ⟨fs, filed, from_, phases⟩ := (resetJudged_flooded u).files
  obtain ⟨clock, -, -, -, -, start⟩ := resetFront_kept u
  obtain ⟨judged, -, -, inputs, -, -, -⟩ := resetJudged_kept u
  obtain ⟨-, -, extraction, -, -, -⟩ := resetTail_read u.resetJudged
  rw [resetFront_phase] at phases
  have phase : u.takeReset.extraction.phase = u.resetJudged.extraction.phase := by rw [takeReset_eq, extraction]
  rw [← phase] at phases
  have plain {f : Filing} (m : f ∈ gs ++ u.resetJudged.resetClaims.allClearFilings) : (f.kind == .fanPhase) = false := by
    rcases List.mem_append.mp m with m | m
    · obtain ⟨o, -, -, rfl⟩ := released f m
      rfl
    · obtain ⟨o, -, -, rfl⟩ := allClearFilings_mem u m
      rfl
  refine ⟨fs ++ (gs ++ u.resetJudged.resetClaims.allClearFilings), ?_, ?_, fun f m => ?_⟩
  · rw [takeReset_eq, record, filed, judged, clock, start, ← fileAll_append]
  · unfold State.phaseRecords
    have none : (gs ++ u.resetJudged.resetClaims.allClearFilings).filter (fun f => f.kind == .fanPhase) = [] :=
      List.filter_eq_nil_iff.mpr fun f m => by rw [plain m]; exact Bool.false_ne_true
    rw [List.filter_append, none, List.append_nil, phases]
  · rcases List.mem_append.mp m with m | m
    · rcases from_ f m with kind | ⟨o, cut, rfl⟩
      · refine .inl (.inl ⟨kind, fun same => ?_⟩)
        have member := List.mem_filter (p := fun f : Filing => f.kind == .fanPhase) |>.mpr ⟨m, by rw [kind]; rfl⟩
        have same : u.takeReset.extraction.phase = u.extraction.phase := same
        rw [same, passed_still] at phases
        rw [List.map_eq_nil_iff.mp phases] at member
        cases member
      · exact .inl (.inr (.inl ⟨o, (reset_cuts u o).mpr cut, reset_cutOff u o⟩))
    · rcases List.mem_append.mp m with m | m
      · obtain ⟨o, due, feedback, e⟩ := released f m
        have active : u.feedback o = true := by
          unfold State.feedback at feedback ⊢
          rw [← inputs]
          exact feedback
        exact .inl (.inr (.inr ⟨o, (reset_due u o).trans due, active, e⟩))
      · exact .inr (allClearFilings_mem u m)

end

end Sys2Proof.Machine
end

section
/-! SUPPORT. The calm of a RESET with the derived picture standing: no level rises, so no condition arises, no view and no flood
state changes and no valve is cut (R32, R33, R36, R95, R113). -/

namespace Sys2Proof.Machine

/-! ## Levels that a RESET does not raise -/

theorem higher_max (x y : Level) : (x.higher y).code = max x.code y.code := by
  cases x <;> cases y <;> rfl

/-- R32: a highest contribution grows with the level that it starts from. -/
theorem highest_mono (z : Zone) (cs : List (Zone × Level)) {x y : Level} (h : x.code ≤ y.code) :
    (cs.foldl (fun l c => if c.1 = z then l.higher c.2 else l) x).code ≤
      (cs.foldl (fun l c => if c.1 = z then l.higher c.2 else l) y).code := by
  induction cs generalizing x y with
  | nil => exact h
  | cons c cs ih =>
    refine ih ?_
    dsimp only
    split
    · rw [higher_max, higher_max]
      exact max_le_max_right _ h
    · exact h

theorem highestIn_mono (z zone : Zone) (cs : List (Zone × Level)) {x y : Level} (h : x.code ≤ y.code) :
    (highestIn z ((zone, x) :: cs)).code ≤ (highestIn z ((zone, y) :: cs)).code := by
  refine highest_mono z cs ?_
  dsimp only
  split
  · rw [higher_max, higher_max]
    exact max_le_max_left _ h
  · exact Nat.le_refl _

theorem watch_le_fire (c : Prop) [Decidable c] : (if c then Level.watch else Level.quiet).code ≤ Level.fire.code := by
  split <;> decide

section
variable (u : State)

/-- R54: without the escalation latch the own level is no higher. -/
theorem composedLevel_reset : u.resetEscalation.composedLevel.code ≤ u.composedLevel.code := by
  have storm : u.resetEscalation.anyStorm = u.anyStorm := rfl
  have started : u.resetEscalation.started = u.started := rfl
  simp only [State.composedLevel, storm, started]
  simp only [State.resetEscalation, Bool.or_false]
  cases u.own.escalation with
  | false =>
    rw [Bool.or_false]
    exact Nat.le_refl _
  | true =>
    simp only [Bool.or_true, if_true]
    split_ifs
    · exact Nat.le_refl _
    · exact Nat.le_refl _
    · exact Nat.le_refl _
    · decide
    all_goals exact watch_le_fire _

/-- R35: after a RESET no live level is higher. -/
theorem resetFront_live_le (p : u.pictureStands) (z : Zone) :
    (u.resetFront.zones.live[z]).code ≤ (u.zones.live[z]).code := by
  obtain ⟨-, -, setup, -, peers, -⟩ := resetFront_kept u
  have own : u.resetFront.own.level = u.resetEscalation.composedLevel := by
    simp only [State.resetFront, State.chooseViews, State.resetMarks, State.resetValves, State.resetZones, State.recomposeOwn]
  have live (s : State) : s.liveLevels[z] =
      highestIn z ((s.setup.zone, s.own.level) :: s.peers.toList.filterMap Peer.contribution) := tabulate_at _ z
  rw [resetFront_live, p.live, live, live, setup, peers, own, p.own]
  exact highestIn_mono z _ _ (composedLevel_reset u)

theorem latchRule_quiet (live : Level) : (latchRule live .quiet).code ≤ live.code := by
  cases live <;> decide

/-- R33, R35: after a RESET no zone is at a higher level. -/
theorem resetFront_level_le (p : u.pictureStands) (z : Zone) : (u.resetFront.zoneLevel z).code ≤ (u.zoneLevel z).code := by
  have live := resetFront_live_le u p z
  have latched := latchRule_quiet u.resetFront.zones.live[z]
  unfold State.zoneLevel ZonePicture.level
  rw [higher_max, higher_max, resetFront_latched]
  omega

theorem resetFront_anyZone (p : u.pictureStands) (zs : ZoneSet) (l : Level) (h : u.resetFront.anyZone zs l = true) :
    u.anyZone zs l = true := by
  unfold State.anyZone at *
  obtain ⟨z, member, both⟩ := List.any_eq_true.mp h
  obtain ⟨covered, level⟩ := Bool.and_eq_true_iff.mp both
  have above := resetFront_level_le u p z
  refine List.any_eq_true.mpr ⟨z, member, Bool.and_eq_true_iff.mpr ⟨covered, ?_⟩⟩
  unfold Level.atLeast at *
  exact decide_eq_true (Nat.le_trans (of_decide_eq_true level) above)

/-! ## Conditions, views and flood states -/

/-- R97, R98: a valve after RESET has no trouble that it had not before. -/
theorem clearedValve_trouble (o : Output) (h : (u.clearedValve o).trouble = true) : (u.valves[o]).trouble = true := by
  unfold State.clearedValve at h
  split at h
  · simp only [Valve.trouble, Bool.false_or, Bool.or_false, Bool.and_eq_true] at h
    obtain ⟨⟨stuck, -⟩, -⟩ := h
    rw [Valve.trouble, stuck, Bool.or_true, Bool.true_or]
  · exact h

theorem resetFront_valves (o : Output) : u.resetFront.valves[o] = u.clearedValve o := by
  rw [resetFront_frame]
  exact tabulate_at u.clearedValve o

/-- R97, R98: valve trouble after RESET stood before. -/
theorem resetFront_valveTrouble (h : u.resetFront.valveTrouble = true) : u.valveTrouble = true := by
  obtain ⟨-, -, setup, -, -, -⟩ := resetFront_kept u
  have role : u.resetFront.role = u.role := by unfold State.role; rw [setup]
  unfold State.valveTrouble at *
  obtain ⟨o, member, both⟩ := List.any_eq_true.mp h
  obtain ⟨valve, trouble⟩ := Bool.and_eq_true_iff.mp both
  rw [resetFront_valves] at trouble
  rw [role] at valve
  exact List.any_eq_true.mpr ⟨o, member, Bool.and_eq_true_iff.mpr ⟨valve, clearedValve_trouble u o trouble⟩⟩

theorem arisen_none {old new : Conditions} (fire : new.fire = true → old.fire = true)
    (storm : new.storm = true → old.storm = true) (trouble : new.valveTrouble = true → old.valveTrouble = true) :
    old.arisen new = [] := by
  have none {a b : Bool} (h : a = true → b = true) : (a && !b) = false := by cases a <;> cases b <;> simp_all
  unfold Conditions.arisen
  rw [none fire, none storm, none trouble]
  rfl

/-- R113: with the picture standing a RESET brings no condition. -/
theorem resetFront_conditions (p : u.pictureStands) :
    u.resetFront.extraction.conditions.arisen u.resetFront.conditionsNow = [] := by
  obtain ⟨-, start, setup, -, peers, -⟩ := resetFront_kept u
  have zone := resetFront_anyZone u p
  have trouble := resetFront_valveTrouble u
  have conditions : u.resetFront.extraction.conditions = u.conditionsNow := by
    rw [resetFront_frame]
    exact p.conditions
  rw [conditions]
  generalize u.resetFront = v at *
  have started : (v.started && v.hasFan) = (u.started && u.hasFan) := by
    unfold State.started State.hasFan
    rw [start, setup]
  have valve : v.hasValve = u.hasValve := by
    unfold State.hasValve
    rw [setup]
  have peer : v.peerTrouble = u.peerTrouble := by
    unfold State.peerTrouble
    rw [setup, peers]
  unfold State.conditionsNow
  rw [started, valve, peer, setup]
  cases u.started && u.hasFan with
  | false => rfl
  | true =>
    refine arisen_none (zone _ _) (zone _ _) fun stands => ?_
    simp only [if_true, Bool.or_eq_true, Bool.and_eq_true] at stands ⊢
    exact stands.imp_left fun h => ⟨h.1, trouble h.2⟩

/-! ## The fan and the valves, judged with nothing new -/

section
variable {v : State} (flood : ∀ d : System, v.inFlood d = v.flood[d])
  (none : v.extraction.conditions.arisen v.conditionsNow = [])
include flood none

/-- R95, R113: flood states that stand and no condition that arises leave the conditions and the sampler to be judged. -/
theorem judgeExtraction_calm : v.judgeExtraction [] =
    State.judgeSampler { v with extraction := { v.extraction with conditions := v.conditionsNow } } := by
  have first : v.judgeCauses [] = { v with extraction := { v.extraction with conditions := v.conditionsNow } } := by
    unfold State.judgeCauses
    rw [none]
    rfl
  unfold State.judgeExtraction
  rw [judgeFlood_still flood, first, judgeCauses_still rfl]

theorem judgeExtraction_still : (v.judgeExtraction []).flood = v.flood ∧ (v.judgeExtraction []).valves = v.valves ∧
    (v.judgeExtraction []).flags = v.flags ∧ (v.judgeExtraction []).extraction.phase = v.extraction.phase ∧
    (v.judgeExtraction []).extraction.causes = v.extraction.causes ∧
    (v.judgeExtraction []).extraction.first = v.extraction.first := by
  rw [judgeExtraction_calm flood none]
  unfold State.judgeSampler
  rw [judgeMode_sets]
  exact ⟨rfl, rfl, rfl, rfl, rfl, rfl⟩

end

/-! ## The calm of a RESET -/

theorem resetFront_stillViews (p : u.pictureStands) : u.resetFront.views = u.views := by
  obtain ⟨-, start, setup, -, peers, -⟩ := resetFront_kept u
  have chosen : u.resetFront.chosenView = u.chosenView := by
    unfold State.chosenView State.candidates State.candidate State.started State.hasFan
    rw [start, setup, peers]
  rw [resetFront_views, chosen, p.views]

theorem resetFront_stillFlags (p : u.pictureStands) : u.resetFront.flags = u.flags := by
  have views := resetFront_stillViews u p
  have before : u.resetEscalation.recomposeOwn.resetZones.resetValves.resetMarks.flags = u.flags ∧
      u.resetEscalation.recomposeOwn.resetZones.resetValves.resetMarks.views = u.views := by
    simp only [State.resetMarks, State.resetValves, State.resetZones, State.recomposeOwn, State.resetEscalation, and_self]
  unfold State.resetFront at *
  rw [chooseViews_still (views.trans before.2.symm), before.1]

theorem resetFront_stillFlood (p : u.pictureStands) (d : System) : u.resetFront.inFlood d = u.resetFront.flood[d] := by
  obtain ⟨-, -, setup, -, peers, -⟩ := resetFront_kept u
  have kept : u.resetFront.flood = u.flood ∧
      u.resetFront.extraction.phase = u.extraction.phase ∧ u.resetFront.extraction.lowFlow = u.extraction.lowFlow := by
    rw [resetFront_frame]
    exact ⟨rfl, rfl, rfl⟩
  obtain ⟨flood, phase, lowFlow⟩ := kept
  rw [inFlood_same (resetFront_stillViews u p) setup peers (by rw [phase, lowFlow]) d, flood, p.flood]
  exact (tabulate_at u.inFlood d).symm

/-- R32, R36, R95, R161: with the picture standing a RESET changes no view, flood state, phase or cause, and sets no flag. -/
theorem takeReset_calm (p : u.pictureStands) : u.takeReset.views = u.views ∧ u.takeReset.flood = u.flood ∧
    u.takeReset.extraction.phase = u.extraction.phase ∧ u.takeReset.extraction.causes = u.extraction.causes ∧
    u.takeReset.extraction.first = u.extraction.first ∧ (∀ o : Output, u.takeReset.valves[o] = u.clearedValve o) ∧
    ∀ a : Attention, u.takeReset.flagged a = (u.flagged a && u.takeReset.condition a) := by
  have judged := judgeExtraction_still (resetFront_stillFlood u p) (resetFront_conditions u p)
  have kept : u.resetFront.flood = u.flood ∧ u.resetFront.extraction.phase = u.extraction.phase ∧
      u.resetFront.extraction.causes = u.extraction.causes ∧ u.resetFront.extraction.first = u.extraction.first := by
    rw [resetFront_frame]
    exact ⟨rfl, rfl, rfl, rfl⟩
  obtain ⟨flood, valves, flags, phase, causes, first⟩ := judged
  obtain ⟨floodKept, phaseKept, causesKept, firstKept⟩ := kept
  obtain ⟨-, views, extraction, tailFlood, tailValves, -⟩ := resetTail_read u.resetJudged
  have judgedViews : u.resetJudged.views = u.views := (resetJudged_consumes u).views.trans (resetFront_stillViews u p)
  have judgedFlags : u.resetJudged.flags = u.flags := flags.trans (resetFront_stillFlags u p)
  rw [takeReset_eq, views, extraction, tailFlood, tailValves]
  refine ⟨judgedViews, flood.trans floodKept, phase.trans phaseKept, causes.trans causesKept, first.trans firstKept,
    fun o => ?_, fun a => ?_⟩
  · have valve : u.resetJudged.valves[o] = u.resetFront.valves[o] := congrArg (fun x : Vector Valve 4 => x[o]) valves
    rw [valve, resetFront_valves]
  · rw [resetTail_flagged]
    unfold State.flagged
    rw [judgedFlags]

end

end Sys2Proof.Machine
end

section
/-! SUPPORT. What a RESET taken comes to (R35, R43, R54, R98, R118, R135, R145, R161). -/

namespace Sys2Proof.Machine

section
variable (u : State)

/-! ## The escalation timer and the zone picture -/

/-- R54: a RESET in a storm starts the escalation timer again. -/
theorem resetEscalation_eq : u.resetEscalation = ({ u with
    own := { u.own with escalation := false }
    sensing := { u.sensing with
      escalation :=
        if u.anyStorm = true ∧ u.setup.sensing.escalation ≠ 0 then
          some (after u.clock (u.setup.sensing.escalation * 1000))
        else u.sensing.escalation } } : State) := by
  unfold State.resetEscalation
  simp only [Bool.and_eq_true, bne_iff_ne]

/-- R30, R32, R35, R36: the own level, the zone picture and the views after a RESET are recomputed. -/
theorem takeReset_picture : u.takeReset.own.level = u.takeReset.composedLevel ∧
    u.takeReset.zones.live = u.takeReset.liveLevels ∧
    (∀ z : Zone, u.takeReset.zones.latched[z] = latchRule u.takeReset.zones.live[z] .quiet) ∧
    u.takeReset.views = tabulate u.takeReset.chosenView := by
  have judged := resetJudged_consumes u
  have own : u.resetJudged.own.level = u.resetJudged.composedLevel := by
    rw [judged.own, judged.composedLevel]
    exact resetFront_own u
  have live : u.resetJudged.zones.live = u.resetJudged.liveLevels := by
    rw [judged.zones, judged.liveLevels]
    exact resetFront_live u
  have latched (z : Zone) : u.resetJudged.zones.latched[z] = latchRule u.resetJudged.zones.live[z] .quiet := by
    rw [judged.zones]
    exact resetFront_latched u z
  have views : u.resetJudged.views = tabulate u.resetJudged.chosenView := by
    rw [judged.views, judged.chosenView]
    exact resetFront_views u
  rw [takeReset_eq]
  generalize u.resetJudged = w at *
  obtain ⟨b, x, r, m, la, lb, a, e⟩ := (resetTail_beside w).cases
  rw [e]
  exact ⟨own, live, latched, views⟩

/-! ## The sirens -/

/-- What a RESET does at the sirens, in the terms of State.resetFrom. -/
structure Unsilenced (u t : State) : Prop where
  claims : u.operating = true → ∀ o : Output, (u.role o).isSiren = true →
    u.claimsFollow t o ∧ ∀ c ∈ t.sirens.units[o].claims, c.silenced = false
  allClear : u.operating = true → ∀ o : Output, (u.role o).isSiren = true →
    (u.allClearDue t o →
      t.sirens.units[o].allClear = some ⟨u.clock, none⟩ ∧ t.sirens.units[o].fireSeen = false ∧
        u.filed t ⟨.allClear, octet o.val, 0⟩) ∧
    (¬u.allClearDue t o →
      t.sirens.units[o].fireSeen = u.sirens.units[o].fireSeen ∧
        t.sirens.units[o].allClear = if t.sirens.units[o].claims = [] then u.sirens.units[o].allClear else none)
  chosen : u.operating = true → u.patternsChosen t
  faults : ∀ o : Output, t.sirens.units[o].fault = u.sirens.units[o].fault
  others : ∀ o : Output, (u.role o).isSiren = false → t.sirens.units[o] = u.sirens.units[o]
  waits : u.operating = false → t.sirens = u.sirens
  resound : t.sirens.resound = if u.operating then none else u.sirens.resound

/-- R145: the ALL_CLEAR record of an output that gets an ALL_CLEAR claim is filed. -/
theorem allClear_filed {o : Output} (going : u.operating = true) (due : u.resetJudged.resetClaims.earnsAllClear o = true) :
    u.filed u.takeReset ⟨.allClear, octet o.val, 0⟩ := by
  obtain ⟨operating, -, -, -, -, -⟩ := resetClaims_read u.resetJudged
  obtain ⟨gs, record, -⟩ := resetTail_record u.resetJudged
  have clock : u.takeReset.clock = u.resetJudged.clock := by
    rw [takeReset_eq]
    exact clock_of_apart (resetTail_apart _)
  have member : (⟨.allClear, octet o.val, 0⟩ : Filing) ∈ u.resetJudged.resetClaims.allClearFilings := by
    unfold State.allClearFilings
    rw [operating, resetJudged_operating, if_pos going]
    exact List.mem_map.mpr ⟨o, List.mem_filter.mpr ⟨mem_indexes o, due⟩, rfl⟩
  rw [← takeReset_eq] at record
  exact filed_before (resetJudged_grows u) (filed_mem record clock (List.mem_append_right _ member)) clock

theorem claimsFollow_from {w t : State} {o : Output} (h : w.claimsFollow t o) (clock : w.clock = u.clock)
    (sirens : w.sirens = u.sirens) : u.claimsFollow t o := by
  refine ⟨h.levels, h.claimed, ?_, h.allClear⟩
  rw [← clock, ← sirens]
  exact h.since

theorem takeReset_unsilenced : Unsilenced u u.takeReset := by
  obtain ⟨clock, -, setup, -, peers, -, sirens⟩ := resetJudged_kept u
  have operating := resetJudged_operating u
  have role := resetJudged_role u
  have due := allClearDue_iff u
  have filed (o : Output) := allClear_filed u (o := o)
  rw [takeReset_eq] at due filed ⊢
  generalize u.resetJudged = w at *
  refine
    { claims := fun going o siren => ?claims
      allClear := fun going o siren => ?allClear
      chosen := fun going => ?chosen
      faults := fun o => by rw [resetTail_fault, sirens]
      others := fun o other => by rw [resetTail_other o (by rw [role]; exact other), sirens]
      waits := fun waits => (resetTail_waits (operating.trans waits)).trans sirens
      resound := by rw [resetTail_resound, operating, sirens] }
  case claims =>
    obtain ⟨follow, unsilenced⟩ := resetTail_claims (operating.trans going) o (by rw [role]; exact siren)
    exact ⟨claimsFollow_from u follow clock sirens, unsilenced⟩
  case allClear =>
    obtain ⟨claims, earned, kept⟩ := resetTail_unit (operating.trans going) o (by rw [role]; exact siren)
    rw [← due o siren]
    refine ⟨fun earns => ?_, fun not => ?_⟩
    · obtain ⟨allClear, seen⟩ := earned earns
      exact ⟨clock ▸ allClear, seen, filed o going earns⟩
    · obtain ⟨allClear, seen⟩ := kept (Bool.eq_false_iff.mpr not)
      rw [allClear, seen, claims, sirens]
      simp only [List.isEmpty_iff, List.map_eq_nil_iff, and_self]
  case chosen =>
    exact patternsChosen_from (resetTail_chosen (operating.trans going)) clock setup peers (by rw [sirens]) (by rw [sirens])
      (by rw [sirens]) (by rw [sirens]) fun o => by rw [sirens]; exact ⟨rfl, rfl, rfl⟩

/-- R35, R43: what a RESET taken comes to. -/
theorem takeReset_resetFrom : u.resetFrom u.takeReset := by
  obtain ⟨own, live, latched, views⟩ := takeReset_picture u
  have barriers := takeReset_rearmed u
  have sirens := takeReset_unsilenced u
  have apart := takeReset_apart u
  rw [resetEscalation_eq] at apart
  exact
    { apart := apart
      own := own, live := live, latched := latched, views := views
      fan := takeReset_fanSettles u, calm := takeReset_calm u, flags := takeReset_flags u
      rearmed := barriers.rearmed, stand := barriers.stand, waiting := barriers.waiting, queue := barriers.queue
      fresh := barriers.fresh, running := barriers.running, started := barriers.started, released := barriers.released
      barriers := barriers.barriers
      claims := sirens.claims, allClear := sirens.allClear, chosen := sirens.chosen, faults := sirens.faults
      others := sirens.others, waits := sirens.waits, resound := sirens.resound
      record := takeReset_files u, refills := takeReset_refills u, report := takeReset_reportStands u }

end

/-- R41, R163: the KEY-RESET slots of both lines. -/
theorem fillKey_reset (v : State) (count : Byte) : v.fillKey .reset count = { v with
    lineA := { v.lineA with slots := { v.lineA.slots with reset := some count } }
    lineB := { v.lineB with slots := { v.lineB.slots with reset := some count } } } := rfl

/-- R41: the RESET key debounced active and the press counted. -/
theorem counted_reset (s : State) (now : Time) : (s.takeAt now).counted .reset = { s with
    clock := now
    press := { s.press with reset := s.press.reset + 1 }
    inputs := { s.inputs with reset := ⟨true, true, none⟩ }
    record := s.record.file now ⟨.keyReset, stationOctet s.setup.number, (s.press.reset + 1).zeroExtend 16⟩ } := rfl

/-- Settles O29: the press is counted, the RESET taken, and the KEY slots filled with the count. -/
theorem resetPressed : Obligations.ResetPressed := by
  intro now s started
  have taken : exec (.resetPress now) s = .next (((s.takeAt now).counted .reset).takeReset.fillKey .reset _) :=
    congrArg answer (if_pos started)
  have reset := takeReset_resetFrom ((s.takeAt now).counted .reset)
  generalize ((s.takeAt now).counted .reset).takeReset = v at taken reset
  rw [fillKey_reset] at taken
  rw [counted_reset] at reset
  exact ⟨_, v, taken, reset, rfl⟩

end Sys2Proof.Machine
end

section
/-! SUPPORT. A KEY notice with another count (R42; O24). -/

namespace Sys2Proof.Machine

section
variable (s : State)

/-- R17: a fill finds nothing to do while the most recent fill carries every reported field. -/
theorem fillOnChange_stands (h : s.reportStands) : s.fillOnChange = s := by
  rcases Bool.eq_false_or_eq_true s.reportChanged with changed | same
  · rw [State.reportChanged, Bool.and_eq_true, bne_iff_ne] at changed
    exact absurd (h changed.1) changed.2
  · rw [State.fillOnChange, same]
    rfl

theorem pressCount_storePress (p : Peer) (key : KeyKind) (count : Byte) :
    (p.storePress key count).pressCount key = some count := by cases key <;> rfl

/-- R42: the count of a peer's press stored, and its record. -/
def State.stored (k : Station) (key : KeyKind) (count : Byte) : State :=
  { s with
    peers := change s.peers k fun p => p.storePress key count
    record := s.record.file s.clock ⟨key.record, stationOctet k, count.zeroExtend 16⟩ }

theorem deliverKey_other {k : Station} {start : Time} {key : KeyKind} {count : Byte}
    (h : (s.peers[k]).pressCount key ≠ some count) :
    s.deliverKey k start (key, count) = (s.stored k key count).takeKey key := if_neg h

/-! ## The tests of the lines and the channels do not read the press counts -/

/-- Another peer table that shows the same presences and the same instants heard. -/
structure HeardAlike (v w : Vector Peer 32) : Prop where
  presence : ∀ j : Station, (w[j]).presence = (v[j]).presence
  heardA : ∀ j : Station, (w[j]).heardA = (v[j]).heardA
  heardB : ∀ j : Station, (w[j]).heardB = (v[j]).heardB

theorem heardAlike_storePress (v : Vector Peer 32) (k : Station) (key : KeyKind) (count : Byte) :
    HeardAlike v (change v k fun p => p.storePress key count) := by
  have stored (j : Station) : (change v k fun p => p.storePress key count)[j] = v[j] ∨
      (change v k fun p => p.storePress key count)[j] = (v[j]).storePress key count := by
    by_cases h : j = k
    · subst h
      exact .inr (change_same v j _)
    · exact .inl (change_other v k j _ h)
  constructor <;> intro j <;> rcases stored j with e | e <;> rw [e] <;> cases key <;> rfl

section
variable {s} {peers : Vector Peer 32} (h : HeardAlike s.peers peers)
include h

/-- R22: the quiet tests read the presences and the instants heard. -/
theorem quietTests_alike (l : Line) : ({ s with peers := peers } : State).quietTests l = s.quietTests l := by
  have other : ({ s with peers := peers } : State).heardOnOther l = s.heardOnOther l := by
    rw [Bool.eq_iff_iff, heardOnOther_iff, heardOnOther_iff]
    simp only [h.presence, h.heardA, h.heardB]
  unfold State.quietTests
  rw [other]
  rfl

/-- R61, R62: the unserved field reads the presences. -/
theorem anyUnserved_alike : ({ s with peers := peers } : State).anyUnserved = s.anyUnserved := by
  unfold State.anyUnserved State.served State.servingPresent
  simp only [h.presence]
  rfl

end

/-- R42: a press stored after its notice was heard is one stored as it is heard, with its record after the others. -/
theorem stored_noticed (now : Time) (l : Line) (k : Station) (start : Time) (key : KeyKind) (count : Byte) :
    (s.noticed now l k start (fun p => p) []).afterHearing.stored k key count =
      { (s.noticed now l k start (fun p => p.storePress key count) []).afterHearing with
        record := (s.noticed now l k start (fun p => p.storePress key count) []).afterHearing.record.fileAll now
          [⟨key.record, stationOctet k, count.zeroExtend 16⟩] } := by
  have heard : s.noticed now l k start (fun p => p.storePress key count) [] =
      { s.noticed now l k start (fun p => p) [] with
        peers := change (s.noticed now l k start (fun p => p) []).peers k fun p => p.storePress key count } := by
    simp only [State.noticed, change_change]
  have clock : (s.noticed now l k start (fun p => p) []).clock = now := rfl
  rw [heard]
  generalize s.noticed now l k start (fun p => p) [] = n at clock ⊢
  subst clock
  have alike := heardAlike_storePress n.peers k key count
  have quiet := quietTests_alike (s := n) alike
  have unserved := anyUnserved_alike (s := n) alike
  rw [afterHearing_eq, afterHearing_eq]
  unfold State.quietRecords State.heardFlags
  simp only [quiet, unserved]
  rfl

/-- R42: what a key taken from a notice comes to, with the fill that follows. -/
theorem takeKey_filled (key : KeyKind) : (match key with
    | .silence => ∃ v : State, s.silencedFrom v ∧ v.refilledFrom (s.takeKey key).fillOnChange
    | .reset => s.resetFrom (s.takeKey key).fillOnChange) := by
  cases key with
  | silence => exact ⟨s.takeSilence, takeSilence_silencedFrom s, fillOnChange_refilledFrom _⟩
  | reset =>
    show s.resetFrom s.takeReset.fillOnChange
    rw [fillOnChange_stands _ (takeReset_reportStands s)]
    exact takeReset_resetFrom s

/-- R42: keys taken and fills leave the peer entries. -/
theorem takeKey_peers (key : KeyKind) : (s.takeKey key).fillOnChange.peers = s.peers := by
  have filled : (s.takeKey key).fillOnChange.peers = (s.takeKey key).peers := by rw [fillOnChange_frame]
  rw [filled]
  cases key with
  | silence =>
    show s.takeSilence.peers = s.peers
    rw [takeSilence_frame]
  | reset =>
    have apart := takeReset_apart s
    show s.takeReset.peers = s.peers
    generalize s.takeReset = t at apart
    exact (congrArg State.peers apart : t.apart.peers = s.resetEscalation.apart.peers)

end

/-- Settles O24: the notice is heard, its count stored and its record filed, and the key is taken as a local press. -/
theorem keyNoticeTaken : Obligations.KeyNoticeTaken := by
  intro now l rx k key count start s stage place started check payload sender station other hstart fresh
  have unread : ((s.noticed now l k start (fun p => p) []).afterHearing.peers[k]).pressCount key ≠ some count := by
    rw [present_of_noticed, pressCount_hear]
    exact fresh
  have taken : exec (.keyNotice now l rx) s =
      .next (((s.noticed now l k start (fun p => p) []).afterHearing.stored k key count).takeKey key).fillOnChange := by
    have length : payloadLength classKey = some rx.payload.length := by rw [payload]; rfl
    have content : readKey? rx.payload = some (key, count) := by rw [payload]; exact readKey_octet key count
    simp only [exec, execKeyNotice, answer_eq,
      receive_taken stage place started check length content sender station other hstart, deliverKey_other _ unread]
  rw [stored_noticed] at taken
  have held : ((s.noticed now l k start (fun p => p.storePress key count) []).afterHearing.peers[k]).pressCount key =
      some count := by
    rw [present_of_noticed, pressCount_storePress]
  have frame := noticed_frame s now l k start (fun p => p.storePress key count) []
  have line := noticed_line s now l k start (fun p => p.storePress key count) []
  have flags := noticed_flags s now l k start (fun p => p.storePress key count) []
  have record := noticed_record s now l k start (fun p => p.storePress key count) []
  generalize (s.noticed now l k start (fun p => p.storePress key count) []).afterHearing = w at *
  have controllers : s.sameControllers w := by
    rw [frame]
    exact ⟨rfl, rfl, rfl, rfl, rfl, rfl, rfl⟩
  refine ⟨_, _, taken, takeKey_filled _ key, controllers, ?_, line, flags, ?_, ?_⟩
  · conv_lhs => rw [frame]
    rfl
  · rw [List.append_nil] at record
    rw [fileAll_append]
    exact congrArg (fun r : EventRecord => r.fileAll now [⟨key.record, stationOctet k, count.zeroExtend 16⟩]) record
  · rw [takeKey_peers]
    exact held

end Sys2Proof.Machine
end

section
/-! SUPPORT. The edges of a spark channel (R45 to R47, O32) and the classes of a pulse but for a spark (R48, R56, R57; O33). -/

namespace Sys2Proof.Machine

theorem bitAt_false (i : Nat) : bitAt false i = 0 := rfl

/-- R58: a change of a channel's flags with the fill that follows. -/
theorem changeFlags_refilledFrom (s : State) (c : Channel) (set : Bool) (x : SparkChannel) :
    ({ s with
      sensing := { s.sensing with channels := put s.sensing.channels c x }
      record := s.record.file s.clock ⟨.sensorFlag, octet c.val, x.flagBits⟩
      flags := if set then s.flags ||| Attention.sensorFault.mask else s.flags } : State).refilledFrom
        (s.changeFlags c set x).fillOnChange :=
  fillOnChange_refilledFrom (s.changeFlags c set x)

section
variable {now : Time} {c : Channel} {s : State}

/-! ## Edges (R45 to R47) -/

theorem channelActive_iff : s.channelActive c = true ↔ s.permitted = true ∧ s.setup.channels[c].enabled = true :=
  Bool.and_eq_true_iff

/-- R46: on an inactive channel an edge moves the pin alone. -/
theorem edge_inactive (h : s.channelActive c = false) :
    exec (.sensorPulseStart now c) s = .next ((s.takeAt now).setSparkPin c true) ∧
      ∀ width : Nat, exec (.sensorPulseEnd now c width) s = .next ((s.takeAt now).setSparkPin c false) := by
  have inactive (level : Bool) : ¬((s.takeAt now).setSparkPin c level).channelActive c = true := by
    rw [Bool.not_eq_true]
    exact h
  exact ⟨congrArg answer (if_neg (inactive true)), fun _ => congrArg answer (if_neg (inactive false))⟩

theorem pulseStart_active (h : s.channelActive c = true) :
    exec (.sensorPulseStart now c) s = .next (((s.takeAt now).setSparkPin c true).pulseStart c) :=
  congrArg answer (if_pos h)

theorem pulseEnd_active (h : s.channelActive c = true) (width : Nat) :
    exec (.sensorPulseEnd now c width) s = .next (((s.takeAt now).setSparkPin c false).pulseEnd c width) :=
  congrArg answer (if_pos h)

theorem blindDue_of {x : SparkChannel} {pulse : Time} (sighted : x.blinded = false) (high : x.pulse = some pulse)
    (h : reached now (after pulse 250) = true) : x.blindDue now = true := by
  rw [SparkChannel.blindDue, sighted, high, Bool.not_false, Bool.true_and]
  exact h

theorem clearDue_of {x : SparkChannel} {low : Time} (blinded : x.blinded = true) (since : x.lowSince = some low)
    (h : reached now (after low 1000) = true) : x.clearDue now = true := by
  rw [SparkChannel.clearDue, blinded, since, Bool.true_and]
  exact h

end

/-- Settles O32: an edge of an inactive channel moves the pin; of an active one it is taken by the channel's BLINDED flag, and
the two changes of that flag are filled. -/
theorem channelEdges : Obligations.ChannelEdges := by
  intro now c s
  refine ⟨edge_inactive, fun permitted enabled => ?_⟩
  have active : s.channelActive c = true := channelActive_iff.mpr ⟨permitted, enabled⟩
  refine ⟨pulseStart_active active, fun blinded width => ?_, fun pulse sighted high hd => ?_,
    fun low blinded since hd => ?_⟩
  · rw [pulseEnd_active active]
    exact congrArg Host.Outcome.next (if_pos blinded)
  · refine ⟨_, congrArg answer (if_pos (Bool.and_eq_true_iff.mpr ⟨active, blindDue_of sighted high hd⟩)), ?_⟩
    exact changeFlags_refilledFrom (s.takeAt now) c true
      { s.channel c with pulse := none, blinded := true, lowSince := none }
  · refine ⟨_, congrArg answer (if_pos (Bool.and_eq_true_iff.mpr ⟨active, clearDue_of blinded since hd⟩)), ?_⟩
    have filled := changeFlags_refilledFrom (s.takeAt now) c false { s.channel c with blinded := false, lowSince := none }
    rw [SparkChannel.flagBits, bitAt_false, Nat.zero_add] at filled
    exact filled

/-! ## The classes of a pulse (R46, R48, Table 3.4) -/

section
variable {now pulse : Time} {c : Channel} {s : State} {width : Nat}

/-- R46: the falling edge of a pulse on an active channel that is not BLINDED brings the pulse to its class. -/
theorem pulseEnd_classified (active : s.channelActive c = true) (sighted : (s.channel c).blinded = false)
    (high : (s.channel c).pulse = some pulse) :
    exec (.sensorPulseEnd now c width) s = .next (((s.takeAt now).setSparkPin c false).classify c pulse width) := by
  rw [pulseEnd_active active]
  refine congrArg Host.Outcome.next ((if_neg ?_).trans ?_)
  · rw [Bool.not_eq_true]
    exact sighted
  · rw [show (((s.takeAt now).setSparkPin c false).channel c).pulse = some pulse from high]

/-- Table 3.4, its bounds in numbers. -/
theorem classify_eq : s.classify c pulse width =
    if width < 10 then s.withChannel c { s.channel c with pulse := none }
    else if width < 800 then s.spark c pulse
    else if width < 2000 then s.noisePulse c
    else if width < 6000 then s.testPulse c
    else if width < 25000 then s.noisePulse c
    else (s.becomeBlinded c).lowBegins c := rfl

theorem classify_glitch (h : width < 10) :
    s.classify c pulse width = s.withChannel c { s.channel c with pulse := none } := if_pos h

theorem classify_spark (low : 10 ≤ width) (high : width < 800) : s.classify c pulse width = s.spark c pulse := by
  rw [classify_eq, if_neg (by omega), if_pos high]

theorem classify_noise (h : (800 ≤ width ∧ width < 2000) ∨ (6000 ≤ width ∧ width < 25000)) :
    s.classify c pulse width = s.noisePulse c := by
  rw [classify_eq, if_neg (by omega), if_neg (by omega)]
  rcases h with ⟨-, high⟩ | ⟨low, high⟩
  · rw [if_pos high]
  · rw [if_neg (by omega), if_neg (by omega), if_pos high]

theorem classify_test (low : 2000 ≤ width) (high : width < 6000) : s.classify c pulse width = s.testPulse c := by
  rw [classify_eq, if_neg (by omega), if_neg (by omega), if_neg (by omega), if_pos high]

theorem classify_blinds (h : 25000 ≤ width) : s.classify c pulse width = (s.becomeBlinded c).lowBegins c := by
  rw [classify_eq, if_neg (by omega), if_neg (by omega), if_neg (by omega), if_neg (by omega), if_neg (by omega)]

end

/-! ## Noise, test pulses and blinding (R47, R48, R56, R57) -/

section
variable (s : State) (c : Channel)

theorem becomesNoisy_iff (x : SparkChannel) :
    x.becomesNoisy = true ↔ x.noisy = false ∧ 10 ≤ windowCount x.noiseBuckets := by
  rw [SparkChannel.becomesNoisy, Bool.and_eq_true, Bool.not_eq_true', decide_eq_true_iff]
  rfl

/-- R48, R57: what a noise pulse comes to. -/
theorem noisePulse_refilledFrom :
    (if (s.channel c).noisy = false ∧ 10 ≤ windowCount (s.channel c).countNoise.noiseBuckets then
        s.changeFlags c true { (s.channel c).countNoise with noisy := true }
      else s.withChannel c (s.channel c).countNoise).refilledFrom (s.noisePulse c) := by
  have filled : s.noisePulse c = State.fillOnChange
      (if (s.channel c).noisy = false ∧ 10 ≤ windowCount (s.channel c).countNoise.noiseBuckets then
        s.changeFlags c true { (s.channel c).countNoise with noisy := true }
      else s.withChannel c (s.channel c).countNoise) :=
    congrArg State.fillOnChange (ite_congr (propext (becomesNoisy_iff (s.channel c).countNoise)) (fun _ => rfl) fun _ => rfl)
  rw [filled]
  exact fillOnChange_refilledFrom _

/-- R48, R56: what a test pulse comes to. -/
theorem testPulse_refilledFrom :
    (if s.operating = true ∧ (s.channel c).silent = true then
        s.changeFlags c false { s.countTest (s.channel c) with silent := false }
      else s.withChannel c (s.countTest (s.channel c))).refilledFrom (s.testPulse c) := by
  have filled : s.testPulse c = State.fillOnChange
      (if s.operating = true ∧ (s.channel c).silent = true then
        s.changeFlags c false { s.countTest (s.channel c) with silent := false }
      else s.withChannel c (s.countTest (s.channel c))) :=
    congrArg State.fillOnChange (ite_congr (propext Bool.and_eq_true_iff) (fun _ => rfl) fun _ => rfl)
  rw [filled]
  exact fillOnChange_refilledFrom _

theorem withChannel_withChannel (x y : SparkChannel) : (s.withChannel c x).withChannel c y = s.withChannel c y :=
  congrArg (fun v => ({ s with sensing := { s.sensing with channels := v } } : State))
    (change_change s.sensing.channels c (fun _ => x) fun _ => y)

theorem channel_withChannel (x : SparkChannel) : (s.withChannel c x).channel c = x := put_same _ _ _

/-- A change of a channel that is not reported may come before a fill or after it. -/
theorem fillOnChange_withChannel {x : SparkChannel} (h : x.fault = (s.channel c).fault) :
    s.fillOnChange.withChannel c x = (s.withChannel c x).fillOnChange := by
  have reported := withChannel_reported c h
  have changed : (s.withChannel c x).reportChanged = s.reportChanged := by
    unfold State.reportChanged
    rw [reported]
    rfl
  unfold State.fillOnChange State.fillIf
  rw [changed, reported]
  rfl

/-- R47, R58: the low time is no flag, so it may begin before the change of flags is filled or after. -/
theorem changeFlags_withLow (x : SparkChannel) (low : Option Time) :
    (s.changeFlags c true x).fillOnChange.withChannel c { x with lowSince := low } =
      (s.changeFlags c true { x with lowSince := low }).fillOnChange := by
  have marked : (s.changeFlags c true x).withChannel c { x with lowSince := low } =
      s.changeFlags c true { x with lowSince := low } :=
    congrArg (fun t : State => { s.changeFlags c true x with sensing := t.sensing })
      (withChannel_withChannel s c x { x with lowSince := low })
  rw [fillOnChange_withChannel, marked]
  have held := channel_withChannel s c x
  exact (congrArg SparkChannel.fault held).symm

/-- R47: a pulse that blinds a channel and ends: the low time begins as the channel becomes BLINDED. -/
theorem becomeBlinded_lowBegins : (s.becomeBlinded c).lowBegins c =
    (s.changeFlags c true
      { s.channel c with pulse := none, blinded := true, lowSince := some s.clock }).fillOnChange := by
  have held : (s.becomeBlinded c).channel c = { s.channel c with pulse := none, blinded := true, lowSince := none } :=
    put_same ..
  rw [State.lowBegins, held]
  exact changeFlags_withLow s c { s.channel c with pulse := none, blinded := true, lowSince := none } (some s.clock)

end

/-- Settles O33: the width decides the class, and each class changes the channel in its own way. -/
theorem pulseClasses : Obligations.PulseClasses := by
  intro now c width pulse s permitted enabled sighted high x taken
  have active : s.channelActive c = true := channelActive_iff.mpr ⟨permitted, enabled⟩
  simp only [pulseEnd_classified active sighted high]
  refine ⟨fun short => ?_, fun noise => ?_, fun low below => ?_, fun long => ?_⟩
  · rw [classify_glitch short]
    rfl
  · rw [classify_noise noise]
    exact ⟨_, rfl, noisePulse_refilledFrom ((s.takeAt now).setSparkPin c false) c⟩
  · rw [classify_test low below]
    exact ⟨_, rfl, testPulse_refilledFrom ((s.takeAt now).setSparkPin c false) c⟩
  · rw [classify_blinds long, becomeBlinded_lowBegins]
    exact ⟨_, rfl, changeFlags_refilledFrom ((s.takeAt now).setSparkPin c false) c true
      { x with pulse := none, blinded := true, lowSince := some now }⟩

end Sys2Proof.Machine
end

section
/-! SUPPORT. Bucket boundaries: the buckets turned, and the tests of a storm's end and of NOISY (R50, R53, R54, R57; O35). -/

namespace Sys2Proof.Machine

/-! ## One channel -/

theorem turnBuckets_new (b : Vector Count 10) : (turnBuckets b)[0] = 0 := tabulate_at _ (0 : Fin 10)

theorem turnBuckets_old (b : Vector Count 10) (i : Fin 9) : (turnBuckets b)[i.val + 1] = b[i.val] := by
  have at_ : (turnBuckets b)[i.val + 1] = if i.succ = 0 then 0 else b[i.succ - 1] := tabulate_at _ i.succ
  have back : i.succ - 1 = i.castSucc := (by decide : ∀ j : Fin 9, j.succ - 1 = j.castSucc) i
  rw [at_, if_neg (Fin.succ_ne_zero i)]
  exact congrArg (fun j : Fin 10 => b[j]) back

/-- R53: the exit test in numbers. -/
theorem exitTest_eq (stormOff count : Nat) (m : Storm) : exitTest stormOff count m =
    if count ≤ stormOff then if 3 ≤ m.exitCount then none else some ⟨m.entry, m.exitCount + 1⟩
    else some ⟨m.entry, 0⟩ := by
  have fourth : Config.stormExit ≤ m.exitCount + 1 ↔ 3 ≤ m.exitCount := Nat.succ_le_succ_iff
  simp only [exitTest, fourth]

/-- R53, R57: what a channel files at a boundary, case by case. -/
theorem boundaryFilings_eq (now : Time) (c : Channel) (x y : SparkChannel) (blinded : y.blinded = x.blinded)
    (silent : y.silent = x.silent) : boundaryFilings now c x y =
      (match x.storm, y.storm with
        | some m, none => [⟨.stormOff, octet c.val, sat16 (m.entry.elapsed now / 1000)⟩]
        | _, _ => []) ++
      (if x.noisy = true ∧ y.noisy = false then
        [⟨.sensorFlag, octet c.val, BitVec.ofNat 16 (bitAt x.blinded 0 + bitAt x.silent 1)⟩]
      else []) := by
  refine congrArg₂ (· ++ ·) ?_ ?_
  · cases x.storm with
    | none => rfl
    | some m => cases y.storm <;> rfl
  · cases hy : y.noisy
    · simp only [flagFiling, SparkChannel.flagBits, hy, bitAt_false, Nat.add_zero, blinded, silent, Bool.not_false,
        Bool.and_true, and_true]
    · simp only [Bool.not_true, Bool.and_false, Bool.true_eq_false, and_false, if_false, Bool.false_eq_true]

/-! ## Every channel -/

section
variable {s : State}

theorem boundaryDue_of (permitted : s.permitted = true) (whole : s.clock.toNat % 1000 = 0)
    (new : s.sensing.lastBoundary ≠ some s.clock) : s.boundaryDue = true := by
  rw [State.boundaryDue, permitted, Bool.true_and, Bool.and_eq_true, beq_iff_eq, bne_iff_ne]
  exact ⟨whole, new⟩

theorem boundaryChannels_inactive {c : Channel} (h : s.channelActive c = false) :
    s.boundaryChannels[c] = s.channel c := by
  refine (tabulate_at _ c).trans (if_neg ?_)
  rw [h]
  exact Bool.false_ne_true

theorem boundaryChannels_active {c : Channel} (h : s.channelActive c = true) :
    s.boundaryChannels[c] = (s.channel c).boundary s.setup.sensing.stormOff :=
  (tabulate_at _ c).trans (if_pos h)

/-- A boundary turns no BLINDED and no SILENT flag. -/
theorem boundaryChannels_flags (c : Channel) : (s.boundaryChannels[c]).blinded = (s.channel c).blinded ∧
    (s.boundaryChannels[c]).silent = (s.channel c).silent := by
  rcases Bool.eq_false_or_eq_true (s.channelActive c) with h | h
  · rw [boundaryChannels_active h]
    exact ⟨rfl, rfl⟩
  · rw [boundaryChannels_inactive h]
    exact ⟨rfl, rfl⟩

/-- R50: the state at a boundary, before its consequences. -/
def State.turned (s : State) : State :=
  { s with
    sensing :=
      { s.sensing with
        channels := s.boundaryChannels
        escalation := escalationWith s.boundaryChannels s.sensing.escalation
        lastBoundary := some s.clock }
    record := s.record.fileAll s.clock
      ((indexes 4).flatMap fun c => boundaryFilings s.clock c (s.channel c) s.boundaryChannels[c]) }

theorem boundary_eq (s : State) : s.boundary = s.turned.settle := rfl

end

/-- R50, R53, R57: an active channel at a boundary. -/
theorem boundary_turns (stormOff : Nat) (x : SparkChannel) :
    let y := x.boundary stormOff
    (y.sparkBuckets[0] = 0 ∧ ∀ i : Fin 9, y.sparkBuckets[i.val + 1] = x.sparkBuckets[i.val]) ∧
    (y.noiseBuckets[0] = 0 ∧ ∀ i : Fin 9, y.noiseBuckets[i.val + 1] = x.noiseBuckets[i.val]) ∧
    y.noisy = (x.noisy && windowCount y.noiseBuckets != 0) ∧
    (x.storm = none → y.storm = none) ∧
    (∀ m : Storm, x.storm = some m →
      y.storm =
        if windowCount y.sparkBuckets ≤ stormOff then
          if 3 ≤ m.exitCount then none else some ⟨m.entry, m.exitCount + 1⟩
        else some ⟨m.entry, 0⟩) ∧
    y = { x with
      sparkBuckets := y.sparkBuckets, noiseBuckets := y.noiseBuckets, noisy := y.noisy, storm := y.storm } := by
  have storm : (x.boundary stormOff).storm = x.storm.bind (exitTest stormOff (windowCount (turnBuckets x.sparkBuckets))) :=
    rfl
  refine ⟨⟨turnBuckets_new _, turnBuckets_old _⟩, ⟨turnBuckets_new _, turnBuckets_old _⟩, rfl, fun calm => ?_,
    fun m stormy => ?_, rfl⟩
  · rw [storm, calm]
    rfl
  · rw [storm, stormy]
    exact exitTest_eq ..

/-- Settles O35: the boundary turns every active channel and files what ends, and its consequences follow. -/
theorem bucketBoundaryTurns : Obligations.BucketBoundaryTurns := by
  intro now s permitted whole new
  have due : (s.takeAt now).boundaryDue = true := boundaryDue_of permitted whole new
  refine ⟨_, (s.takeAt now).turned, congrArg answer ((if_pos due).trans (boundary_eq _)), settle_settledFrom _, rfl,
    fun c disabled => ?_, fun c enabled => ?_, rfl, rfl, rfl, ?_⟩
  · have inactive : s.channelActive c = false := (congrArg (s.permitted && ·) disabled).trans (Bool.and_false _)
    exact boundaryChannels_inactive (s := s.takeAt now) inactive
  · have y : (s.takeAt now).turned.channel c = (s.channel c).boundary s.setup.sensing.stormOff :=
      boundaryChannels_active (s := s.takeAt now) (channelActive_iff.mpr ⟨permitted, enabled⟩)
    simp only [y]
    exact boundary_turns s.setup.sensing.stormOff (s.channel c)
  · refine congrArg (s.record.fileAll now) (List.flatMap_congr fun c _ => ?_)
    obtain ⟨blinded, silent⟩ := boundaryChannels_flags (s := s.takeAt now) c
    exact boundaryFilings_eq now c (s.channel c) _ blinded silent

end Sys2Proof.Machine
end

section
/-! SUPPORT. A spark at its channel, at the SPARK slots and at release timing (R49 to R52, R54, R55, R59, R60, R63, R69; O34). -/

namespace Sys2Proof.Machine

/-! ## The own level after a spark (R55) -/

/-- R55: with the watch hold the own level is at least WATCH. -/
theorem composedLevel_held {s : State} (started : s.started = true) (hold : s.own.watchHold.isSome = true) :
    s.composedLevel.atLeast .watch = true := by
  unfold State.composedLevel
  simp only [started, hold, Bool.not_true, Bool.false_eq_true, if_false, if_true]
  split_ifs <;> rfl

theorem started_of_permitted {s : State} (h : s.permitted = true) : s.started = true := by
  unfold State.permitted at h
  unfold State.started
  generalize s.start.phase = p at h ⊢
  cases p with
  | settle => rfl
  | operating => rfl
  | load => cases h
  | listen => cases h
  | configFault => cases h

/-! ## SPARK slots (R59, R60) -/

/-- R60: the span and STALE of a coalesced report in numbers. -/
theorem coalesce_eq (pulse : Time) (unserved : Bool) (r : SparkReport) : r.coalesce pulse unserved = { r with
    count := min 255 (r.count + 1)
    span := min 4095 (r.first.elapsed pulse)
    stale := r.stale || decide (4095 ≤ r.first.elapsed pulse)
    unserved := unserved } := by
  have limit : (min 4095 (r.first.elapsed pulse) == 4095) = decide (4095 ≤ r.first.elapsed pulse) := by
    rw [Bool.eq_iff_iff, beq_iff_eq, decide_eq_true_iff]
    omega
  simp only [SparkReport.coalesce, Config.spanLimit, limit]

/-- R59, R60: a spark at the SPARK slot of a line, in numbers. -/
theorem sparkOnLine_eq (s : State) (c : Channel) (pulse : Time) (x : LineInterface) : s.sparkOnLine c pulse x =
    { x with slots := { x.slots with spark := put x.slots.spark c (some (match x.slots.spark[c] with
      | none => ⟨⟨pulse, none⟩, 0, 1, false, !s.served c, s.setup.channels[c].branch, s.setup.channels[c].position⟩
      | some r => { r with
          count := min 255 (r.count + 1)
          span := min 4095 (r.first.elapsed pulse)
          stale := r.stale || decide (4095 ≤ r.first.elapsed pulse)
          unserved := !s.served c })) } } := by
  refine congrArg (fun r => { x with slots := { x.slots with spark := put x.slots.spark c (some r) } }) ?_
  cases x.slots.spark[c] with
  | none => rfl
  | some r => exact coalesce_eq pulse _ r

/-! ## The spark at its channel (R49, R50, R52, R54) -/

section
variable (s : State) (c : Channel) (pulse : Time)

/-- R54: the escalation timer at an entry into storm. -/
theorem escalationAtEntry_eq : s.escalationAtEntry =
    if s.sensing.escalation = none ∧ s.own.escalation = false ∧ s.setup.sensing.escalation ≠ 0 then
      some (after s.clock (s.setup.sensing.escalation * 1000))
    else s.sensing.escalation := by
  refine ite_congr (propext ?_) (fun _ => rfl) fun _ => rfl
  rw [Bool.and_eq_true, Bool.and_eq_true, Option.isNone_iff_eq_none, Bool.not_eq_true', bne_iff_ne, and_assoc]

/-- R49 to R60: the state with a spark counted, watched and in its slots, before release timing. -/
def State.sparked : State := (s.sparkAtChannel c).restartWatch.sparkSlots c pulse

/-- R49, R50, R52, R54, R55: the spark at its channel, with enters the test of R52. -/
theorem sparked_eq (enters : Bool) (h : (s.channel c).countSpark.entersStorm s.setup.sensing.stormOn = enters) :
    s.sparked c pulse = { s with
      own := { s.own with watchHold := some (after s.clock 60000) }
      sensing := { s.sensing with
        channels := put s.sensing.channels c
          (if enters then { (s.channel c).countSpark with storm := some ⟨⟨s.clock, none⟩, 0⟩ }
            else (s.channel c).countSpark)
        escalation :=
          if enters = true ∧ s.sensing.escalation = none ∧ s.own.escalation = false ∧
            s.setup.sensing.escalation ≠ 0 then some (after s.clock (s.setup.sensing.escalation * 1000))
          else s.sensing.escalation }
      lineA := s.sparkOnLine c pulse s.lineA
      lineB := s.sparkOnLine c pulse s.lineB
      record := s.record.fileAll s.clock
        (if enters then [⟨.stormOn, octet c.val, sat16 (windowCount (s.channel c).countSpark.sparkBuckets)⟩] else []) } := by
  cases enters
  · have calm : s.sparkAtChannel c = s.withChannel c (s.channel c).countSpark := if_neg (Bool.eq_false_iff.mp h)
    rw [State.sparked, calm, if_neg (fun entry => Bool.false_ne_true (And.left entry))]
    rfl
  · have stormy : s.sparkAtChannel c = s.enterStorm c (s.channel c).countSpark := if_pos h
    rw [State.sparked, stormy, State.enterStorm, escalationAtEntry_eq]
    simp only [true_and]
    rfl

theorem spark_eq : s.spark c pulse = ((s.sparked c pulse).handOff c pulse).settleWith (s.channelCauses c) := rfl

/-- R114: the cause UNSERVED of a spark. -/
theorem channelCauses_eq : s.channelCauses c =
    if (!s.served c && s.hasFan && s.branchServed s.setup.channels[c].branch) = true then [.unserved] else [] := by
  unfold State.channelCauses State.unservedCause
  cases s.served c
  · simp only [Bool.not_false, Bool.true_and]
    rfl
  · rfl

end

/-! ## Release timing after a spark (R63, R69) -/

/-- R63, R69: the hand-off at a station that takes sparks. -/
theorem handOff_eq {s : State} (permitted : s.permitted = true) (c : Channel) (pulse : Time) : s.handOff c pulse = { s with
    valves := if s.hasValve then tabulate (s.releasedValve (s.localReport c pulse)) else s.valves
    record := s.record.fileAll s.clock
      (if s.hasValve then (indexes 4).flatMap (s.reportRecords (s.localReport c pulse)) else [])
    flags := s.flags ||| (if s.hasValve then s.reportFlags (s.localReport c pulse) else 0) } := by
  unfold State.handOff
  cases s.hasValve
  · simp only [Bool.false_eq_true, if_false, flags_or_zero, fileAll_nil]
  · simp only [if_true, release_eq, permitted]

/-- R49 to R69: a spark taken at now, with all that it does itself. -/
def State.withSpark (s : State) (now : Time) (c : Channel) (pulse : Time) : State :=
  (((s.takeAt now).setSparkPin c false).sparked c pulse).handOff c pulse

section
variable {s : State} {now : Time} {c : Channel} {pulse : Time} {enters : Bool} (permitted : s.permitted = true)
  (h : (s.channel c).countSpark.entersStorm s.setup.sensing.stormOn = enters)
include permitted h

theorem withSpark_eq : s.withSpark now c pulse = { s with
    clock := now
    inputs := { s.inputs with spark := put s.inputs.spark c false }
    own := { s.own with watchHold := some (after now 60000) }
    sensing := { s.sensing with
      channels := put s.sensing.channels c
        (if enters then { (s.channel c).countSpark with storm := some ⟨⟨now, none⟩, 0⟩ }
          else (s.channel c).countSpark)
      escalation :=
        if enters = true ∧ s.sensing.escalation = none ∧ s.own.escalation = false ∧
          s.setup.sensing.escalation ≠ 0 then some (after now (s.setup.sensing.escalation * 1000))
        else s.sensing.escalation }
    lineA := s.sparkOnLine c pulse s.lineA
    lineB := s.sparkOnLine c pulse s.lineB
    valves :=
      if s.hasValve then tabulate ((s.takeAt now).releasedValve (s.localReport c pulse)) else s.valves
    record := s.record.fileAll now
      ((if enters then [⟨.stormOn, octet c.val, sat16 (windowCount (s.channel c).countSpark.sparkBuckets)⟩] else []) ++
        if s.hasValve then (indexes 4).flatMap ((s.takeAt now).reportRecords (s.localReport c pulse)) else [])
    flags := s.flags ||| (if s.hasValve then (s.takeAt now).reportFlags (s.localReport c pulse) else 0) } := by
  have frame := sparked_eq ((s.takeAt now).setSparkPin c false) c pulse enters h
  have able : (((s.takeAt now).setSparkPin c false).sparked c pulse).permitted = true := by
    rw [frame]
    exact permitted
  rw [State.withSpark, handOff_eq able, frame, ← fileAll_append]
  rfl

end

/-- Settles O34: the spark counted, slotted and handed on is u, and the consequences follow, with the cause UNSERVED. -/
theorem sparkTaken : Obligations.SparkTaken := by
  intro now c width pulse s permitted enabled sighted high low below x counted enters slot filled report unserved
  have active : s.channelActive c = true := channelActive_iff.mpr ⟨permitted, enabled⟩
  have taken : exec (.sensorPulseEnd now c width) s =
      .next ((s.withSpark now c pulse).settleWith (if unserved then [.unserved] else [])) := by
    rw [pulseEnd_classified active sighted high, classify_spark low below, spark_eq, channelCauses_eq]
    rfl
  have frame : s.withSpark now c pulse = _ := withSpark_eq permitted (rfl : _ = enters)
  rw [sparkOnLine_eq, sparkOnLine_eq] at frame
  have settled := settleWith_settledFrom (s.withSpark now c pulse) (if unserved then [.unserved] else [])
  have own := settleWith_own (s.withSpark now c pulse) (if unserved then [.unserved] else [])
  generalize s.withSpark now c pulse = u at taken frame settled own
  have valves := congrArg State.valves frame
  refine ⟨_, u, taken, settled, ?_, fun o e pe reach valve role => ?_, fun o quiet => ?_, congrArg State.record frame,
    congrArg State.flags frame, ?_, fun brings phase => ?_⟩
  · rw [frame]
    rfl
  · rw [valves, ← releasedValve_of (s := s.takeAt now) role]
    simp only [valve, if_true]
    exact tabulate_at _ o
  · rw [valves]
    rcases quiet with none | other
    · simp only [none, Bool.false_eq_true, if_false]
    · dsimp only
      split
      · exact (tabulate_at _ o).trans (releasedValve_none (s := s.takeAt now) other)
      · rfl
  · rw [own, frame]
    exact composedLevel_held (started_of_permitted permitted) rfl
  · have same : u.extraction = s.extraction := by rw [frame]
    have event := fanSettles_event settled.fan .unserved (by rw [if_pos brings]; exact List.mem_singleton_self _)
      (by rw [same]; exact phase)
    rw [same] at event
    exact event

end Sys2Proof.Machine
end

section
/-! SUPPORT. The end of SETTLE (R56, R89, R96, R99, R102, R124, R140, R154; O8). -/

namespace Sys2Proof.Machine

/-! ## What stands at the entry to OPERATING -/

section
variable (s : State) (o : Output)

/-- R96, R102: since when the feedback of an output has been active, none while it is inactive. -/
def State.activeSince : Option Instant := if s.feedback o then s.inputs.feedback[o].activeSince else none

theorem activeSince_active (h : s.feedback o = true) : s.activeSince o = s.inputs.feedback[o].activeSince := if_pos h

theorem activeSince_inactive (h : s.feedback o = false) : s.activeSince o = none := if_neg (Bool.eq_false_iff.mp h)

/-- R96: a valve at the entry to OPERATING after its stuck judgement, before its schedule is taken. -/
def State.stuckJudged : Valve := s.valves[o].beginStuck s.clock s.confirmMs (s.activeSince o)

theorem beginValve_eq : s.beginValve o = (s.stuckJudged o).openIfDue s.clock s.confirmMs (s.feedback o) := by
  unfold State.beginValve State.stuckJudged
  cases feedback : s.feedback o
  · rw [activeSince_inactive s o feedback]
    rfl
  · rw [activeSince_active s o feedback]
    rfl

/-- R96: the stuck judgement, field by field. -/
theorem stuckJudged_eq : s.stuckJudged o = (match s.activeSince o with
    | some i =>
      if s.confirmMs ≤ i.elapsed s.clock then
        { s.valves[o] with
          stuck := true, stuckTimer := none
          counters := { s.valves[o].counters with stuck := bump s.valves[o].counters.stuck } }
      else { s.valves[o] with stuckTimer := some (after i.reading s.confirmMs) }
    | none => s.valves[o]) := by
  unfold State.stuckJudged
  cases s.activeSince o <;> rfl

theorem openIfDue_stuck (now : Time) (confirm : Nat) (feedback : Bool) (v : Valve) :
    (v.openIfDue now confirm feedback).stuck = v.stuck := by
  unfold Valve.openIfDue Valve.enterOpening
  split_ifs <;> rfl

/-- R96: the outputs that come to be stuck; an inactive switch sticks none. -/
theorem stuckAtEntry_eq : s.stuckAtEntry o = ((s.role o).isValve && !s.valves[o].stuck && (s.stuckJudged o).stuck) := by
  unfold State.stuckAtEntry
  rw [beginValve_eq, openIfDue_stuck]
  cases feedback : s.feedback o
  · rw [State.stuckJudged, activeSince_inactive s o feedback]
    simp [Valve.beginStuck]
  · rw [Bool.and_true]

theorem mismatchAtEntry_eq (output : Option Output) (time : Nat) :
    s.mismatchAtEntry output time = .begin_ s.clock time (output.bind s.activeSince) := by
  cases output with
  | none => rfl
  | some o =>
    show (if s.feedback o then _ else _) = Mismatch.begin_ s.clock time (s.activeSince o)
    cases feedback : s.feedback o
    · rw [activeSince_inactive s o feedback]
      rfl
    · rw [activeSince_active s o feedback]
      rfl

end

/-- R83, R89, R99: an IDLE valve takes the window at the head of its schedule when that has opened, field by field. -/
theorem openIfDue_eq (now : Time) (confirm : Nat) (feedback : Bool) (v : Valve) : v.openIfDue now confirm feedback =
    if v.state = .idle ∧ ∃ w ∈ v.schedule.head?, w.opens.later ⟨now, none⟩ = false then
      { v with
        state := if feedback then .flowing else .opening
        confirmTimer := if feedback then none else some (after now confirm)
        openSince := some ⟨now, none⟩
        stuckTimer := none
        counters := { v.counters with
          openings := bump v.counters.openings
          underTrouble := if v.trouble then bump v.counters.underTrouble else v.counters.underTrouble
          confirmed := if feedback then bump v.counters.confirmed else v.counters.confirmed } }
    else v := by
  have opened : v.firstOpen now = true ↔ ∃ w ∈ v.schedule.head?, w.opens.later ⟨now, none⟩ = false := by
    unfold Valve.firstOpen
    cases v.schedule <;> simp [Instant.of]
  refine ite_congr (propext (and_congr_right' opened)) (fun _ => ?_) fun _ => rfl
  cases feedback <;> rfl

theorem or_mask_ite (b : Bool) (m n : BitVec 16) : (if b then m ||| n else m) = m ||| (if b then n else 0) := by
  cases b
  · exact (flags_or_zero m).symm
  · rfl

/-- R102: a mismatch at the entry to OPERATING, by since when the feedback has been active. -/
theorem begin_eq (now : Time) (time : Nat) (since : Option Instant) : Mismatch.begin_ now time since = (match since with
    | some i => if time ≤ i.elapsed now then ⟨none, true⟩ else ⟨some (after i.reading time), false⟩
    | none => ⟨none, false⟩) := by
  cases since <;> rfl

/-- R154: OPERATING begun, before its consequences. -/
def State.opened (s : State) : State :=
  ({ s with start := { s.start with phase := .operating, phaseTimer := none } } :
    State).beginTests.beginValves.beginMismatches.armBarriers.formFireSeen

theorem enterOperating_eq (s : State) : s.enterOperating = s.opened.settle := rfl

/-- R56, R89, R96, R102, R124, R140: OPERATING begun, field by field. -/
theorem opened_eq (s : State) :
    let contactor := Mismatch.begin_ s.clock 2000 (s.contactorOutput.bind s.activeSince)
    let gate := Mismatch.begin_ s.clock s.setup.extraction.gateTime (s.gateOutput.bind s.activeSince)
    let sticks (o : Output) : Bool := (s.role o).isValve && !s.valves[o].stuck && (s.stuckJudged o).stuck
    s.opened = { s with
      start := { s.start with phase := .operating, phaseTimer := none }
      sensing := { s.sensing with channels := tabulate fun c =>
        if s.setup.channels[c].enabled then
          { s.sensing.channels[c] with testTimer := some (after s.clock (s.setup.sensing.testInterval * 1000)) }
        else s.sensing.channels[c] }
      valves := tabulate fun o => if (s.role o).isValve then
        (s.stuckJudged o).openIfDue s.clock s.confirmMs (s.feedback o) else s.valves[o]
      extraction := if s.hasFan then { s.extraction with contactor := contactor, gate := gate } else s.extraction
      barriers := { s.barriers with
        units := tabulate fun o => if (s.role o).isBarrier then (s.barrier o).hold else s.barrier o }
      sirens := { s.sirens with
        units := tabulate fun o =>
          if (s.role o).isSiren then
            { s.siren o with
              fireSeen := (s.siren o).fireSeen ||
                (indexes 16).any fun z => hasZone (s.role o).covered z && (s.zones.latched[z]).atLeast .fire }
          else s.siren o }
      record := s.record.fileAll s.clock
        (((indexes 4).filter sticks).map fun (o : Output) => ⟨.valveStuck, octet o.val, 0⟩)
      flags := s.flags |||
        (if (indexes 4).any sticks then Attention.valveTrouble.mask else 0) |||
        (if s.hasFan && (contactor.stands || gate.stands) then Attention.fanFault.mask else 0) } := by
  intro contactor gate sticks
  have stuck : s.stuckAtEntry = sticks := funext (stuckAtEntry_eq s)
  have contacts : s.mismatchAtEntry s.contactorOutput 2000 = contactor := mismatchAtEntry_eq ..
  have gates : s.mismatchAtEntry s.gateOutput s.setup.extraction.gateTime = gate := mismatchAtEntry_eq ..
  rw [← or_mask_ite, ← or_mask_ite, ← stuck, ← contacts, ← gates]
  simp only [← beginValve_eq]
  rfl

section
variable (s : State) (o : Output)

/-- R96: an output that comes to be stuck has its mark, its record and the flag. -/
theorem opened_sticks (h : s.stuckAtEntry o = true) : (s.opened.valves[o]).stuck = true ∧
    s.filed s.opened ⟨.valveStuck, octet o.val, 0⟩ ∧ s.opened.flagged .valveTrouble = true := by
  have some_ : (indexes 4).any s.stuckAtEntry = true := List.any_eq_true.mpr ⟨o, mem_indexes o, h⟩
  refine ⟨?_, ?_, ?_⟩
  · rw [stuckAtEntry_eq, Bool.and_eq_true, Bool.and_eq_true] at h
    obtain ⟨⟨valve, -⟩, stuck⟩ := h
    have taken : s.opened.valves[o] = (s.stuckJudged o).openIfDue s.clock s.confirmMs (s.feedback o) := by
      rw [opened_eq]
      exact (tabulate_at _ o).trans (if_pos valve)
    rw [taken, openIfDue_stuck]
    exact stuck
  · have record : s.opened.record = s.record.fileAll s.clock
        (((indexes 4).filter s.stuckAtEntry).map fun (o : Output) => ⟨.valveStuck, octet o.val, 0⟩) := rfl
    exact filed_mem record rfl (List.mem_map_of_mem (List.mem_filter.mpr ⟨mem_indexes o, h⟩))
  · have raised : s.beginValves.flagged .valveTrouble = true := by
      unfold State.flagged State.beginValves
      rw [if_pos some_]
      exact flagged_or_mask ..
    have kept : flagsWithin s.beginValves.flags s.opened.flags := flagsWithin_ite ..
    exact flagged_within kept _ raised

/-- R124: every barrier is armed at the entry to OPERATING. -/
theorem opened_held (barrier : (s.role o).isBarrier = true) : (s.opened.barrier o).state = .held := by
  have armed : s.opened.barrier o = (s.barrier o).hold := by
    rw [opened_eq]
    exact (tabulate_at _ o).trans (if_pos barrier)
  rw [armed]
  rfl

/-- R140: a latch of FIRE or above that stands has been seen. -/
theorem opened_fireSeen (siren : (s.role o).isSiren = true) {z : Zone} (covered : hasZone (s.role o).covered z = true)
    (latched : (s.zones.latched[z]).atLeast .fire = true) : (s.opened.sirens.units[o]).fireSeen = true := by
  have formed : s.opened.sirens.units[o] = { s.siren o with
      fireSeen := (s.siren o).fireSeen ||
        (indexes 16).any fun z => hasZone (s.role o).covered z && (s.zones.latched[z]).atLeast .fire } := by
    rw [opened_eq]
    exact (tabulate_at _ o).trans (if_pos siren)
  rw [formed]
  refine Bool.or_eq_true_iff.mpr (.inr (List.any_eq_true.mpr ⟨z, mem_indexes z, ?_⟩))
  rw [covered, latched]
  rfl

end

/-! ## What the consequences leave of it -/

section
variable {u t : State} {event : List Cause}

/-- R94, R96: a change of flood state leaves STUCK. -/
theorem floodTurns_stuck {phases : List FanPhase} (h : u.floodTurns t phases) (o : Output) :
    (t.valves[o]).stuck = (u.valves[o]).stuck := by
  by_cases cut : u.floodCuts t phases o
  · rw [(h.cut o cut).1]
    rfl
  · rw [h.stands o cut]

/-- R124: a HELD barrier outside the queue stays HELD exactly while its release condition does not hold. -/
theorem barriersSettle_held (h : u.barriersSettle t) {o : Output} (outside : o ∉ u.barriers.queue)
    (operating : t.operating = true) (barrier : (t.role o).isBarrier = true) (held : (u.barrier o).state = .held) :
    (t.releaseHolds o = false → (t.barrier o).state = .held) ∧
      (t.releaseHolds o = true → (t.barrier o).state ≠ .held ∧ (t.barrier o).state ≠ .unarmed) := by
  refine ⟨fun quiet => ?_, fun holds => ?_⟩
  · rw [h.stand o outside (.inr (.inr (.inr quiet)))]
    exact held
  · obtain ⟨closed, closing, queued⟩ := h.release o outside operating barrier held holds
    have released : (t.barrier o).state = .closed ∨ (t.barrier o).state = .closing ∨ (t.barrier o).state = .queued := by
      cases feedback : u.feedback o
      · cases motor : (t.role o).isMotor
        · rw [closing feedback motor]
          exact .inr (.inl rfl)
        · rcases (queued feedback motor).2 with waits | runs
          · exact .inr (.inr waits.1)
          · exact .inr (.inl runs.1)
      · rw [(closed feedback).1]
        exact .inl rfl
    rcases released with state | state | state <;> rw [state] <;> exact ⟨nofun, nofun⟩

/-- R104: in STANDBY the sampler of an OPERATING station is OFF. -/
theorem samplerMode_standby (operating : t.operating = true) (phase : t.extraction.phase = .standby) :
    t.samplerMode = .off := by
  have start : t.start.phase = .operating := beq_iff_eq.mp operating
  simp only [State.samplerMode, start, phase, ite_self]

/-- R110, R115: no cause takes the fan out of STANDBY, and its mismatches stand as they were. -/
theorem fanSettles_standby (h : u.fanSettles t event) (phase : u.extraction.phase = .standby) :
    t.extraction.phase = .standby ∧ t.extraction.contactor = u.extraction.contactor ∧
      t.extraction.gate = u.extraction.gate := by
  obtain ⟨_, -, -, -, -, -, moved, -⟩ := h.causes
  have still : t.extraction.phase = u.extraction.phase := by
    rw [moved, phase]
    exact if_neg fun ⟨left, _⟩ => by rcases left with e | e <;> cases e
  obtain ⟨-, -, -, contactor, gate⟩ := h.still still
  exact ⟨still.trans phase, contactor, gate⟩

end

/-- Settles O8: OPERATING begun is u, and each of the clauses is read off the settling of u. -/
theorem settleEnds : Obligations.SettleEnds := by
  intro now s deadline phase timer hd confirm active mismatch contactor gate judged begun sticks
  have due : (s.takeAt now).phaseDue .settle = true := phaseDue_of phase timer hd
  have taken : exec (.settleEnd now) s = .next (s.takeAt now).opened.settle :=
    congrArg answer ((if_pos due).trans (enterOperating_eq _))
  have frame := opened_eq (s.takeAt now)
  have judgement : (s.takeAt now).stuckJudged = judged := funext (stuckJudged_eq (s.takeAt now))
  have mismatches (o : Option Output) (time : Nat) :
      Mismatch.begin_ (s.takeAt now).clock time (o.bind (s.takeAt now).activeSince) = mismatch o time :=
    begin_eq now time (o.bind active)
  simp only [openIfDue_eq, judgement, mismatches] at frame
  have settled := settle_settledFrom (s.takeAt now).opened
  have follows := settle_follows (s.takeAt now).opened
  have stuck (o : Output) (h : sticks o = true) := opened_sticks (s.takeAt now) o (by
    rw [stuckAtEntry_eq, judgement]
    exact h)
  have held := opened_held (s.takeAt now)
  have seen := opened_fireSeen (s.takeAt now)
  generalize (s.takeAt now).opened = u at taken frame settled follows stuck held seen
  generalize u.settle = t at taken settled follows
  have role (o : Output) : t.role o = s.role o := by rw [follows.role, frame]; rfl
  have operating : t.operating = true := by rw [follows.operating, frame]; rfl
  refine ⟨t, u, taken, settled, frame, fun o sticking => ?_, fun o barrier empty => ?_,
    fun o z siren covered latched => ?_, fun o siren => ?_, fun fan standby _ => ?_⟩
  · obtain ⟨mark, filed, flagged⟩ := stuck o sticking
    rw [floodTurns_stuck settled.fan.flood]
    exact ⟨mark, filed_grows filed follows.toKeeps.grows, flagged_within follows.flags _ flagged⟩
  · have outside : o ∉ u.barriers.queue := by
      rw [frame]
      show o ∉ s.barriers.queue
      rw [empty]
      exact List.not_mem_nil
    exact barriersSettle_held settled.barriers outside operating (by rw [role]; exact barrier) (held o barrier)
  · exact (settled.sirens.seen operating o (by rw [role]; exact siren)).mpr (.inl (seen o siren covered latched))
  · exact (settled.sirens.chosen.pattern operating o (by rw [role]; exact siren)).1
  · have begun : u.extraction = { s.extraction with contactor := contactor, gate := gate } := by
      rw [frame]
      exact if_pos fan
    obtain ⟨phase, contacts, gates⟩ := fanSettles_standby settled.fan (by rw [begun]; exact standby)
    rw [begun] at contacts gates
    exact ⟨settled.fan.sampler.taken.trans (samplerMode_standby operating phase), contacts, gates⟩

end Sys2Proof.Machine
end

section
/-! SUPPORT. The insertion of a window into a release schedule (R83 to R86) for every merge gap below 2^30 ms: the windows it
merges, the window it makes of them, and the one it takes from a full list. -/

namespace Sys2Proof.Machine

/-! ## Windows as integers (R149)

As in the section on insertion before, an instant near the base is its reading counted from the base. -/

section
variable {base : Time} {g : Nat} {x y : Instant} {V W v w n : Window} {ws rest taken : List Window}

/-- R149: both instants of a window lie near the base. -/
def Window.lies (base : Time) (w : Window) : Prop := w.opens.near base ∧ w.closes.near base

theorem Window.sound.lies (h : w.sound base) : w.lies base := ⟨h.opens, h.closes⟩

/-- R149: later_after_iff for every gap that keeps the difference of two near instants below half the clock's range. -/
theorem later_gap_iff (hg : g < 2 ^ 30) (hx : x.near base) (hy : y.near base) :
    x.later (y.after g) = true ↔ y.from_ base + g < x.from_ base := by
  have bx := near_from hx
  have by_ := near_from hy
  unfold Instant.from_ at *
  have moved := toInt_after (now := base) (t := y.reading) (by omega : g < 1073741824) (by omega) (by omega)
  simp only [Instant.later, Instant.after, hx.1, hy.1, later, decide_eq_true_eq]
  rw [toInt_between base x.reading (after y.reading g) (by omega) (by omega), moved]
  omega

theorem not_later_gap_iff (hg : g < 2 ^ 30) (hx : x.near base) (hy : y.near base) :
    x.later (y.after g) = false ↔ x.from_ base ≤ y.from_ base + g := by
  rw [← Bool.not_eq_true, later_gap_iff hg hx hy, Int.not_lt]

/-- R85, step 1. -/
theorem within_iff (hg : g < 2 ^ 30) (hv : v.lies base) (hw : w.lies base) : v.within g w = true ↔
    v.opens.from_ base ≤ w.closes.from_ base + g ∧ w.opens.from_ base ≤ v.closes.from_ base + g := by
  simp only [Window.within, Bool.and_eq_true, Bool.not_eq_true', not_later_gap_iff hg hv.1 hw.2,
    not_later_gap_iff hg hw.1 hv.2]

theorem not_within_iff (hg : g < 2 ^ 30) (hv : v.lies base) (hw : w.lies base) : v.within g w = false ↔
    w.before base g v ∨ v.before base g w := by
  rw [← Bool.not_eq_true, within_iff hg hv hw, not_and_or, Int.not_le, Int.not_le]
  rfl

/-- R85: a window that spans another, as integers. -/
def Window.spans (base : Time) (v w : Window) : Prop :=
  v.opens.from_ base ≤ w.opens.from_ base ∧ w.closes.from_ base ≤ v.closes.from_ base

theorem covers_iff (hv : v.lies base) (hw : w.lies base) : v.covers w ↔ v.spans base w := by
  unfold Window.covers Window.spans
  rw [← Bool.not_eq_true, ← Bool.not_eq_true, later_iff hv.1 hw.1, later_iff hw.2 hv.2, Int.not_lt, Int.not_lt]

theorem spans_refl (v : Window) : v.spans base v := ⟨Int.le_refl _, Int.le_refl _⟩

/-- R85: what lies within g of a window lies within g of one that spans it. -/
theorem Window.spans.within (hg : g < 2 ^ 30) (hV : V.lies base) (hv : v.lies base) (hw : w.lies base)
    (h : V.spans base v) (inside : v.within g w = true) : V.within g w = true := by
  rw [within_iff hg hv hw] at inside
  rw [within_iff hg hV hw]
  obtain ⟨opens, closes⟩ := h
  omega

/-- R85: a window lies within g of every window that it spans. -/
theorem Window.spans.close (hg : g < 2 ^ 30) (hv : v.lies base) (hw : w.sound base) (h : v.spans base w) :
    v.within g w = true := by
  rw [within_iff hg hv hw.lies]
  have := hw.proper
  obtain ⟨opens, closes⟩ := h
  omega

/-- R85, step 2: the merged window is the least that spans both. -/
theorem spans_merge (hW : W.sound base) (hw : w.sound base) :
    v.spans base (W.merge w) ↔ v.spans base W ∧ v.spans base w := by
  have opens := later_iff hW.opens hw.opens
  have closes := later_iff hw.closes hW.closes
  have o : (W.merge w).opens = if W.opens.later w.opens then w.opens else W.opens := rfl
  have c : (W.merge w).closes = if w.closes.later W.closes then w.closes else W.closes := rfl
  unfold Window.spans
  rw [o, c]
  split <;> split <;> rename_i e f <;> simp only [opens, closes] at e f <;> omega

/-- R83, R85: a schedule that lies near the base, as integers. -/
theorem inSchedule_gap_iff (hg : g < 2 ^ 30) (near : ∀ w ∈ ws, w.lies base) :
    inSchedule g ws ↔ (∀ w ∈ ws, w.sound base) ∧ ws.Pairwise (Window.before base g) := by
  have proper : (∀ w ∈ ws, w.closes.later w.opens = true) ↔ ∀ w ∈ ws, w.sound base :=
    forall₂_congr fun w m => sound_iff (near w m).1 (near w m).2
  unfold inSchedule
  rw [proper]
  refine and_congr_right fun sound => ⟨fun h => h.imp_of_mem fun mv mw e => ?_, fun h => h.imp_of_mem fun mv mw e => ⟨?_, ?_⟩⟩
  · exact (later_gap_iff hg (near _ mw).1 (near _ mv).2).mp e.2
  · exact (later_iff (near _ mw).1 (near _ mv).1).mpr (before_irrefl_open e (sound _ mv))
  · exact (later_gap_iff hg (near _ mw).1 (near _ mv).2).mpr e

/-! ## A window in its place (R83) -/

theorem place_perm (W : Window) (ws : List Window) : (place W ws).Perm (W :: ws) := by
  induction ws with
  | nil => exact List.Perm.refl _
  | cons w ws ih =>
    unfold place
    split
    · exact List.Perm.refl _
    · exact (ih.cons w).trans (List.Perm.swap ..)

/-- R83, R85: a window apart from every one of a schedule in order stands in order at its place. -/
theorem inSchedule_place (hg : g < 2 ^ 30) (hW : W.sound base) (near : ∀ w ∈ ws, w.lies base) (order : inSchedule g ws)
    (apart : ∀ w ∈ ws, W.within g w = false) : inSchedule g (place W ws) := by
  obtain ⟨sound, before⟩ := (inSchedule_gap_iff hg near).mp order
  have all : ∀ v ∈ place W ws, v.sound base := fun v m => (mem_place.mp m).elim (fun e => e ▸ hW) (sound v)
  have sides (w : Window) (m : w ∈ ws) := (not_within_iff hg hW.lies (near w m)).mp (apart w m)
  have tight {v w : Window} (h : v.before base g w) : v.before base 0 w := by
    unfold Window.before at *
    omega
  have loose : (place W ws).Pairwise (Window.before base 0) :=
    place_order (by decide) hW sound
      (fun w m => (not_within_iff (by decide) hW.lies (near w m)).mpr ((sides w m).imp tight tight)) (before.imp tight)
  have distant : (place W ws).Pairwise fun v w => v.before base g w ∨ w.before base g v :=
    ((place_perm W ws).symm.pairwise_iff Or.symm).mp
      (List.pairwise_cons.mpr ⟨fun w m => (sides w m).symm, before.imp Or.inl⟩)
  refine (inSchedule_gap_iff hg fun v m => (all v m).lies).mpr ⟨all, ?_⟩
  refine (loose.and distant).imp_of_mem fun mv mw ⟨ahead, either⟩ => either.resolve_right fun behind => ?_
  have := before_irrefl_open ahead (all _ mv)
  have := before_irrefl_open behind (all _ mw)
  omega

/-! ## Merging (R85) -/

theorem perm_of_find {p : Window → Bool} (found : ws.find? p = some w) : ws.Perm (w :: ws.eraseP p) := by
  obtain ⟨hit, before, behind, rfl, missed⟩ := List.find?_eq_some_iff_append.mp found
  rw [List.eraseP_append_right _ fun v m => by simpa using missed v m, List.eraseP_cons_of_pos hit]
  exact List.perm_middle

/-- R85: the final window is the new one merged with windows taken out of the list, and the rest is left. -/
theorem mergeAll_taken (g fuel : Nat) (W : Window) (ws : List Window) : ∃ taken,
    ws.Perm (taken ++ (mergeAll g fuel W ws).2.1) ∧ (mergeAll g fuel W ws).1 = taken.foldl Window.merge W := by
  induction fuel generalizing W ws with
  | zero => exact ⟨[], List.Perm.refl _, rfl⟩
  | succ fuel ih =>
    unfold mergeAll
    split
    · exact ⟨[], List.Perm.refl _, rfl⟩
    · rename_i w found
      obtain ⟨taken, perm, fold⟩ := ih (W.merge w) (ws.eraseP (W.within g))
      exact ⟨w :: taken, (perm_of_find found).trans (perm.cons w), fold⟩

/-- R85: nothing is merged exactly when no window of the list lies within g. -/
theorem mergeAll_merged (g : Nat) (W : Window) (ws : List Window) :
    (mergeAll g ws.length W ws).2.2 = false ↔ ∀ w ∈ ws, W.within g w = false := by
  cases ws with
  | nil => exact ⟨fun _ _ m => absurd m List.not_mem_nil, fun _ => rfl⟩
  | cons v ws =>
    have none_iff : (∀ w ∈ v :: ws, W.within g w = false) ↔ (v :: ws).find? (W.within g) = none := by
      simp only [List.find?_eq_none, Bool.not_eq_true]
    rw [none_iff, List.length_cons, mergeAll]
    split
    · rename_i alone
      exact ⟨fun _ => alone, fun _ => rfl⟩
    · rename_i found
      exact ⟨nofun, fun alone => by rw [found] at alone; cases alone⟩

/-- R85: a window that spans the new one and, with every window within g of itself, that window too, spans what merging
makes of the new one. -/
theorem spans_mergeAll (hg : g < 2 ^ 30) (fuel : Nat) (hv : v.lies base) (hW : W.sound base)
    (sound : ∀ w ∈ ws, w.sound base) (spans : v.spans base W)
    (closed : ∀ w ∈ ws, v.within g w = true → v.spans base w) : v.spans base (mergeAll g fuel W ws).1 := by
  induction fuel generalizing W ws with
  | zero => exact spans
  | succ fuel ih =>
    unfold mergeAll
    split
    · exact spans
    · rename_i w found
      have m := List.mem_of_find?_eq_some found
      have hw := sound w m
      have spanned := closed w m (spans.within hg hv hW.lies hw.lies (List.find?_some found))
      exact ih (merge_sound hW hw) (fun y my => sound y (List.mem_of_mem_eraseP my))
        ((spans_merge hW hw).mpr ⟨spans, spanned⟩) fun y my => closed y (List.mem_of_mem_eraseP my)

/-! ## What the new window becomes (R84, R85) -/

/-- R85: V is what the window W becomes with the windows taken, and stands apart from the rest of the schedule. -/
structure Gathers (base : Time) (g : Nat) (W : Window) (ws : List Window) (V : Window) (rest : List Window) : Prop where
  sound : V.sound base
  apart : ∀ x ∈ rest, V.within g x = false
  taken : ∃ taken : List Window, ws.Perm (taken ++ rest) ∧ V = taken.foldl Window.merge W

theorem mergeAll_gathers (fuel : Nat) (enough : ws.length ≤ fuel) (hW : W.sound base) (sound : ∀ w ∈ ws, w.sound base) :
    Gathers base g W ws (mergeAll g fuel W ws).1 (mergeAll g fuel W ws).2.1 :=
  have ⟨merged, apart⟩ := mergeAll_apart (g := g) fuel W ws enough hW sound
  ⟨merged, apart, mergeAll_taken g fuel W ws⟩

/-- R86: a window merged first with one of the list. -/
theorem Gathers.cons (m : n ∈ ws) (h : Gathers base g (W.merge n) (ws.erase n) V rest) : Gathers base g W ws V rest :=
  have ⟨taken, perm, fold⟩ := h.taken
  ⟨h.sound, h.apart, n :: taken, (List.perm_cons_erase m).trans (perm.cons n), fold⟩

theorem spans_foldl (hW : W.sound base) (sound : ∀ w ∈ taken, w.sound base) :
    v.spans base (taken.foldl Window.merge W) ↔ v.spans base W ∧ ∀ w ∈ taken, v.spans base w := by
  induction taken generalizing W with
  | nil => simp
  | cons w taken ih =>
    have hw := sound w (List.mem_cons_self ..)
    rw [List.foldl_cons, ih (merge_sound hW hw) fun y m => sound y (List.mem_cons_of_mem _ m), spans_merge hW hw,
      List.forall_mem_cons, and_assoc]

/-- R84: a mark of the merged window is one of a window merged. -/
theorem mark_foldl {mark : Marks → Bool} (union : ∀ x y, mark (x.union y) = (mark x || mark y)) (W : Window)
    (taken : List Window) : mark (taken.foldl Window.merge W).marks = true ↔ ∃ x ∈ W :: taken, mark x.marks = true := by
  induction taken generalizing W with
  | nil => simp
  | cons w taken ih =>
    have merged : mark (W.merge w).marks = (mark W.marks || mark w.marks) := union W.marks w.marks
    simp only [List.foldl_cons, ih, List.exists_mem_cons_iff, merged, Bool.or_eq_true, or_assoc]

/-- R85: the windows merged are those covered, and the others are the rest. -/
theorem Gathers.covers (hg : g < 2 ^ 30) (hW : W.sound base) (sound : ∀ w ∈ ws, w.sound base)
    (h : Gathers base g W ws V rest) : V.covers W ∧ (∀ x, x ∈ rest ↔ x ∈ ws ∧ ¬V.covers x) ∧
      ∃ taken : List Window, V = taken.foldl Window.merge W ∧ ∀ x, x ∈ taken ↔ x ∈ ws ∧ V.covers x := by
  obtain ⟨taken, perm, fold⟩ := h.taken
  have mem (x : Window) : x ∈ ws ↔ x ∈ taken ∨ x ∈ rest := perm.mem_iff.trans List.mem_append
  have merged (x : Window) (m : x ∈ taken) : x ∈ ws := (mem x).mpr (.inl m)
  obtain ⟨own, others⟩ := (spans_foldl (v := V) hW fun w m => sound w (merged w m)).mp (fold ▸ spans_refl V)
  have covered (x : Window) (m : x ∈ taken) : V.covers x :=
    (covers_iff h.sound.lies (sound x (merged x m)).lies).mpr (others x m)
  have spared (x : Window) (m : x ∈ rest) : ¬V.covers x := fun c => by
    have hx := sound x ((mem x).mpr (.inr m))
    have inside := ((covers_iff h.sound.lies hx.lies).mp c).close hg h.sound.lies hx
    rw [h.apart x m] at inside
    cases inside
  refine ⟨(covers_iff h.sound.lies hW.lies).mpr own, fun x => ⟨fun m => ⟨(mem x).mpr (.inr m), spared x m⟩, fun ⟨m, c⟩ => ?_⟩,
    taken, fold, fun x => ⟨fun m => ⟨merged x m, covered x m⟩, fun ⟨m, c⟩ => ?_⟩⟩
  · exact ((mem x).mp m).resolve_left fun m => c (covered x m)
  · exact ((mem x).mp m).resolve_right fun m => spared x m c

/-- R84: the marks of the final window are those of the windows that it covers. -/
theorem Gathers.marks (hg : g < 2 ^ 30) (hW : W.sound base) (sound : ∀ w ∈ ws, w.sound base)
    (h : Gathers base g W ws V rest) {mark : Marks → Bool} (union : ∀ x y, mark (x.union y) = (mark x || mark y)) :
    mark V.marks = true ↔ ∃ x ∈ W :: ws, V.covers x ∧ mark x.marks = true := by
  obtain ⟨own, -, taken, fold, mem⟩ := h.covers hg hW sound
  have marked := mark_foldl union W taken
  rw [← fold] at marked
  simp only [marked, List.exists_mem_cons_iff, mem, own, true_and, and_assoc]

/-! ## The nearest window of a full list (R86) -/

/-- R86: n is the window of a list whose open is nearest to that of W, the earlier of two equally near. -/
def Window.nearestIn (W n : Window) (ws : List Window) : Prop :=
  n ∈ ws ∧ ∀ x ∈ ws, openDistance W n ≤ openDistance W x ∧
    (openDistance W n = openDistance W x → x.opens.later n.opens = true ∨ x = n)

/-- R86: of the nearest window so far and the next of the list, the nearer. -/
def nearer (W : Window) (best : Option Window) (w : Window) : Option Window :=
  match best with
  | none => some w
  | some b => if openDistance W w < openDistance W b then some w else some b

theorem nearest_concat (W v : Window) (ws : List Window) : nearest W (ws ++ [v]) = nearer W (nearest W ws) v :=
  List.foldl_concat ..

theorem nearest_nearestIn (order : ws.Pairwise fun v w => w.opens.later v.opens = true) (h : nearest W ws = some n) :
    W.nearestIn n ws := by
  induction ws using List.reverseRecOn generalizing n with
  | nil => cases h
  | append_singleton ws v ih =>
    rw [nearest_concat] at h
    obtain ⟨inOrder, -, last⟩ := List.pairwise_append.mp order
    cases best : nearest W ws with
    | none =>
      rw [best] at h
      cases h
      rw [nearest_none best]
      exact ⟨List.mem_singleton_self v, fun x m => by
        rw [List.mem_singleton.mp m]
        exact ⟨Nat.le_refl _, fun _ => .inr rfl⟩⟩
    | some b =>
      obtain ⟨mem, least⟩ := ih inOrder best
      rw [best] at h
      change (if openDistance W v < openDistance W b then some v else some b) = some n at h
      split at h
      · rename_i closer
        cases h
        refine ⟨List.mem_concat_self, fun x m => ?_⟩
        rcases List.mem_append.mp m with m | m
        · have := (least x m).1
          exact ⟨by omega, fun e => by omega⟩
        · rw [List.mem_singleton.mp m]
          exact ⟨Nat.le_refl _, fun _ => .inr rfl⟩
      · rename_i farther
        cases h
        refine ⟨List.mem_append_left _ mem, fun x m => ?_⟩
        rcases List.mem_append.mp m with m | m
        · exact least x m
        · rw [List.mem_singleton.mp m]
          exact ⟨Nat.le_of_not_lt farther, fun _ => .inl (last n mem v (List.mem_singleton_self v))⟩

/-! ## The insertion (R85, R86) -/

/-- R85: no window of the list lies within g of W. -/
def Window.apartFrom (g : Nat) (W : Window) (ws : List Window) : Prop := ∀ w ∈ ws, W.within g w = false

theorem apartFrom_iff (g : Nat) (W : Window) (ws : List Window) : W.apartFrom g ws ↔
    ∀ x ∈ ws, x.opens.later (W.closes.after g) = true ∨ W.opens.later (x.closes.after g) = true := by
  simp only [Window.apartFrom, Window.within, Bool.and_eq_false_iff, Bool.not_eq_false', or_comm]

/-- R85: merged with what lies within g, or with nothing in a list that has room, the window takes its place. -/
theorem insertWindow_placed (h : ¬(W.apartFrom g ws ∧ Config.windows ≤ ws.length)) : insertWindow g W ws =
    ⟨place (mergeAll g ws.length W ws).1 (mergeAll g ws.length W ws).2.1, none⟩ := by
  unfold insertWindow
  cases merged : (mergeAll g ws.length W ws).2.2 with
  | true => simp only [merged, if_true]
  | false =>
    obtain ⟨same, all⟩ := (mergeAll_rest g ws.length W ws).2.2 merged
    have room : ws.length < Config.windows := Nat.lt_of_not_le fun full => h ⟨(mergeAll_merged g W ws).mp merged, full⟩
    simp only [merged, Bool.false_eq_true, if_false, room, if_true, same, all]

/-- R86: with nothing to merge in a full list the window is merged with the nearest, and then with what lies within g. -/
theorem insertWindow_saturated (apart : W.apartFrom g ws) (full : Config.windows ≤ ws.length) :
    ∃ n, nearest W ws = some n ∧ insertWindow g W ws =
      ⟨place (mergeAll g ws.length (W.merge n) (ws.erase n)).1 (mergeAll g ws.length (W.merge n) (ws.erase n)).2.1,
        some (mergeAll g ws.length (W.merge n) (ws.erase n)).1.length⟩ := by
  have unmerged := (mergeAll_merged g W ws).mpr apart
  cases found : nearest W ws with
  | none =>
    rw [nearest_none found] at full
    exact absurd full (by decide)
  | some n =>
    refine ⟨n, rfl, ?_⟩
    unfold insertWindow
    simp only [unmerged, Bool.false_eq_true, if_false, Nat.not_lt.mpr full, found]

/-- What the insertion i of a window W comes to (R83 to R86): the window V that it becomes stands at its place among the rest of
the schedule, V is the least that the merging allows, and a saturation merges W with the nearest window of a full list. -/
structure Inserts (base : Time) (g : Nat) (W : Window) (ws : List Window) (V : Window) (rest : List Window) (i : Inserted) :
    Prop where
  gathers : Gathers base g W ws V rest
  kept : rest.Sublist ws
  schedule : i.schedule = place V rest
  saturates : i.saturated.isSome = true ↔ W.apartFrom g ws ∧ ws.length = Config.windows
  nearest : i.saturated.isSome = true → i.saturated = some V.length ∧ ∃ n, W.nearestIn n ws ∧ V.covers n
  least : ∀ v : Window, v.lies base → v.spans base W → (∀ w ∈ ws, v.within g w = true → v.spans base w) →
    (i.saturated.isSome = true → ∀ n, W.nearestIn n ws → v.spans base n) → v.spans base V

theorem insertWindow_inserts (hg : g < 2 ^ 30) (hW : W.sound base) (near : ∀ w ∈ ws, w.lies base) (order : inSchedule g ws)
    (fits : ws.length ≤ Config.windows) : ∃ V rest, Inserts base g W ws V rest (insertWindow g W ws) := by
  have sound := ((inSchedule_gap_iff hg near).mp order).1
  by_cases saturates : W.apartFrom g ws ∧ Config.windows ≤ ws.length
  · obtain ⟨n, found, inserted⟩ := insertWindow_saturated saturates.1 saturates.2
    have nearestIn := nearest_nearestIn (order.2.imp fun h => h.1) found
    have m := nearestIn.1
    have merged := merge_sound hW (sound n m)
    have left (w : Window) (mw : w ∈ ws.erase n) : w.sound base := sound w (List.mem_of_mem_erase mw)
    have gathered := mergeAll_gathers (g := g) ws.length List.erase_sublist.length_le merged left
    have own := (covers_iff gathered.sound.lies merged.lies).mp (gathered.covers hg merged left).1
    refine ⟨_, _, gathered.cons m, (mergeAll_rest ..).1.trans List.erase_sublist, congrArg Inserted.schedule inserted,
      ⟨fun _ => ⟨saturates.1, Nat.le_antisymm fits saturates.2⟩, fun _ => by rw [inserted]; rfl⟩,
      fun _ => ⟨congrArg Inserted.saturated inserted, n, nearestIn,
        (covers_iff gathered.sound.lies (near n m)).mpr ((spans_merge hW (sound n m)).mp own).2⟩,
      fun v hv spans closed nearests => ?_⟩
    exact spans_mergeAll hg _ hv merged left
      ((spans_merge hW (sound n m)).mpr ⟨spans, nearests (by rw [inserted]; rfl) n nearestIn⟩)
      fun w mw => closed w (List.mem_of_mem_erase mw)
  · have inserted := insertWindow_placed saturates
    have unsaturated : (insertWindow g W ws).saturated.isSome ≠ true := by
      rw [inserted]
      exact Bool.false_ne_true
    exact ⟨_, _, mergeAll_gathers (g := g) ws.length (Nat.le_refl _) hW sound, (mergeAll_rest ..).1,
      congrArg Inserted.schedule inserted, ⟨fun h => absurd h unsaturated, fun h => absurd ⟨h.1, h.2.ge⟩ saturates⟩,
      fun h => absurd h unsaturated, fun v hv spans closed _ => spans_mergeAll hg _ hv hW sound spans closed⟩

end

/-! ## Valves and their windows (R78, R87, R88) -/

section
variable {s : State} {o : Output}

theorem put_put {α : Type} {n : Nat} (v : Vector α n) (i : Fin n) (x y : α) : put (put v i x) i y = put v i y :=
  Vector.set_set ..

/-- R78, R85 to R87: the window of a report handed on, before the valve opens. -/
def State.windowTaken (s : State) (o : Output) (r : Report) (x : Computed) (w : Window) : Valve :=
  { s.valves[o] with
    outcomes := s.valves[o].outcomes.count x
    last := some (x.lastReport s.clock r (s.setup.clampedPosition r.branch r.position))
    schedule := (insertWindow s.setup.valves.gap w s.valves[o].schedule).schedule
    saturations :=
      if (insertWindow s.setup.valves.gap w s.valves[o].schedule).saturated.isSome then bump s.valves[o].saturations
      else s.valves[o].saturations }

theorem valveAfter_handed {r : Report} {x : Computed} {w : Window} (window : x.window = some w) :
    s.valveAfter o r x =
      (if s.operating then (s.windowTaken o r x w).openIfDue s.clock s.confirmMs (s.feedback o) else s.windowTaken o r x w,
        (insertWindow s.setup.valves.gap w s.valves[o].schedule).saturated) := by
  simp only [State.valveAfter, window]
  rfl

theorem openIfDue_report (now : Time) (confirm : Nat) (feedback : Bool) (v : Valve) :
    (v.openIfDue now confirm feedback).outcomes = v.outcomes ∧ (v.openIfDue now confirm feedback).last = v.last := by
  unfold Valve.openIfDue Valve.enterOpening
  split_ifs <;> exact ⟨rfl, rfl⟩

/-- R79, R80: what a report that hands a window on leaves of itself. -/
theorem valveAfter_report {r : Report} {x : Computed} {w : Window} (window : x.window = some w) :
    (s.valveAfter o r x).1.outcomes = s.valves[o].outcomes.count x ∧
    (s.valveAfter o r x).1.last = some (x.lastReport s.clock r (s.setup.clampedPosition r.branch r.position)) := by
  rw [valveAfter_handed window]
  split_ifs
  · exact openIfDue_report ..
  · exact ⟨rfl, rfl⟩

/-- R88, R90 to R93, R99: the close of the first window. -/
theorem closeWindow_eq (valve : (s.role o).isValve = true) : s.closeWindow o =
    s.withValve o (if s.operating then
        ((s.valve o).dropWindow.endWindow s.clock s.confirmMs (s.feedback o)).openIfDue s.clock s.confirmMs (s.feedback o)
      else (s.valve o).dropWindow) := by
  have role (v : Valve) : (s.withValve o v).role o = s.role o := rfl
  have operating (v : Valve) : (s.withValve o v).operating = s.operating := rfl
  have taken (v : Valve) : (s.withValve o v).valve o = v := put_same ..
  have again (v w : Valve) : (s.withValve o v).withValve o w = s.withValve o w :=
    congrArg (fun valves => { s with valves := valves }) (put_put ..)
  unfold State.closeWindow State.openValve
  simp only [operating, role, valve, taken, again, Bool.and_true]
  cases s.operating
  · rfl
  · rfl

/-- R96: the stuck timer at the end of a window. -/
theorem stuckStart_eq (now : Time) (confirm : Nat) (feedback : Bool) (v : Valve) : v.stuckStart now confirm feedback =
    if feedback = true ∧ v.stuck = false then some (after now confirm) else none :=
  ite_congr (by simp) (fun _ => rfl) fun _ => rfl

theorem endWindow_idle (now : Time) (confirm : Nat) (feedback : Bool) (v : Valve) :
    (v.endWindow now confirm feedback).state = .idle := by
  unfold Valve.endWindow
  split
  · assumption
  · rfl
  all_goals rfl

/-- R89: the first window's open on an IDLE valve of an OPERATING station, or no opening. -/
theorem exec_windowOpen (now : Time) (valve : (s.role o).isValve = true) (operating : s.operating = true) :
    exec (.windowOpen now o) s =
      .next ((s.takeAt now).withValve o ((s.valve o).openIfDue now s.setup.valves.confirm (s.feedback o))) :=
  congrArg answer (if_pos (Bool.and_eq_true_iff.mpr ⟨operating, valve⟩))

/-- R88: the first window's close. -/
theorem exec_windowClose (now : Time) (valve : (s.role o).isValve = true) (closed : (s.valve o).firstClosed now = true) :
    exec (.windowClose now o) s = .next ((s.takeAt now).withValve o (if s.operating then
        ((s.valve o).dropWindow.endWindow now s.setup.valves.confirm (s.feedback o)).openIfDue now s.setup.valves.confirm
          (s.feedback o)
      else (s.valve o).dropWindow)) :=
  congrArg answer ((if_pos (Bool.and_eq_true_iff.mpr ⟨valve, closed⟩)).trans (closeWindow_eq (s := s.takeAt now) valve))

/-- R76: the record of an outcome. -/
theorem filings_eq (o : Output) (x : Computed) : x.filings o = (match x with
    | .missed late => [⟨.windowMissed, octet o.val, sat16 late⟩]
    | _ => []) := by
  cases x <;> rfl

/-- R86: the record of a saturation. -/
theorem saturationFilings_eq (o : Output) (length : Option Nat) : saturationFilings o length = (match length with
    | some length => [⟨.scheduleSaturated, octet o.val, sat16 length⟩]
    | none => []) := by
  cases length <;> rfl

end

/-! ## Settling O38 and O39 -/

/-- Settles O38: the two ways to flood are branches of the computation, and the valve's outcome is read off its definition. -/
theorem floodWindowTaken : Obligations.FloodWindowTaken := by
  refine ⟨fun now u view r e pe reach path found near => ⟨fun untimed => ?_, fun reason timed flood => ?_⟩,
    fun o r opens closes now reason s => ?_⟩
  · simp only [Setup.compute, found, if_neg (Nat.not_lt.mpr near), untimed, if_true]
    rfl
  · simp only [Setup.compute, found, if_neg (Nat.not_lt.mpr near), timed, flood, Bool.false_eq_true, if_false]
    rfl
  · have window : (Computed.flood opens closes reason).window = some ⟨⟨opens, none⟩, ⟨closes, none⟩, ⟨false, false, true⟩⟩ :=
      rfl
    obtain ⟨outcomes, last⟩ := valveAfter_report (s := s) (o := o) (r := r) window
    exact ⟨window, outcomes, last, rfl, rfl⟩

/-- Settles O39: the insertion by what the merging gathers, the handing on and the commands by the one rule for the valve. -/
theorem windowsOpenAndClose : Obligations.WindowsOpenAndClose := by
  refine ⟨fun g base w ws hg near proper order fits => ?insertion, fun o r s e pe reach role => ?report,
    fun now o w ws s valve first => ?commands⟩
  case insertion =>
    intro i apart nearest
    obtain ⟨own, others⟩ := List.forall_mem_cons.mp near
    have hw : w.sound base := (sound_iff own.1 own.2).mp proper
    have sound := ((inSchedule_gap_iff hg others).mp order).1
    obtain ⟨v, rest, inserts⟩ := insertWindow_inserts hg hw others order fits
    have hv := inserts.gathers.sound
    obtain ⟨covers, left, -⟩ := inserts.gathers.covers hg hw sound
    have marks {mark : Marks → Bool} := inserts.gathers.marks (mark := mark) hg hw sound
    refine ⟨?_, length_insertWindow g w ws fits, inserts.saturates.trans (and_congr_left' (apartFrom_iff g w ws)), v,
      fun x => ?_, covers, inserts.nearest, fun x opens closes spans closed nearests => ?_,
      marks fun _ _ => rfl, marks fun _ _ => rfl, marks fun _ _ => rfl⟩
    · show inSchedule g (insertWindow g w ws).schedule
      rw [inserts.schedule]
      exact inSchedule_place hg hv (fun x m => others x (inserts.kept.subset m)) (inSchedule_sublist order inserts.kept)
        inserts.gathers.apart
    · show x ∈ (insertWindow g w ws).schedule ↔ _
      rw [inserts.schedule, mem_place, left]
    · have lies : x.lies base := ⟨opens, closes⟩
      refine (covers_iff lies hv.lies).mpr (inserts.least x lies ((covers_iff lies own).mp spans) (fun y m inside => ?_)
        fun saturated n near => (covers_iff lies (others n near.1)).mp (nearests saturated n near))
      simp only [Window.within, Bool.and_eq_true, Bool.not_eq_true'] at inside
      exact (covers_iff lies (others y m)).mp (closed y m inside.2 inside.1)
  case report =>
    intro v k x reported handed
    have handing {w : Window} {k : OutcomeCounters} {last : LastReport} (window : x.window = some w)
        (count : v.outcomes.count x = k) (report : x.lastReport s.clock r (s.setup.clampedPosition r.branch r.position) = last) :
        s.valveAfter o r x = handed w k last := by
      subst count report
      have due : (s.operating && v.state == .idle && (insertWindow s.setup.valves.gap w v.schedule).schedule.head?.any
          fun n => !n.opens.later ⟨s.clock, none⟩) = true ↔ s.operating = true ∧ v.state = .idle ∧
            ∃ n ∈ (insertWindow s.setup.valves.gap w v.schedule).schedule.head?, n.opens.later ⟨s.clock, none⟩ = false := by
        simp [Option.any_eq_true, and_assoc]
      rw [valveAfter_handed window, openIfDue_eq, ← ite_and]
      exact congrArg (·, _) (ite_congr (propext due.symm) (fun _ => rfl) fun _ => rfl)
    refine ⟨fun opens closes late clipped timed => handing (by rw [timed]; rfl) (by rw [timed]; rfl) (by rw [timed]; rfl),
      fun opens closes reason flood => handing (by rw [flood]; rfl) (by rw [flood]; rfl) (by rw [flood]; rfl), ?_⟩
    simp only [State.releaseFor, role, filings_eq, saturationFilings_eq] <;> rfl
  case commands =>
    intro opened ended
    have closing (ends : w.closes.later ⟨now, none⟩ = false) : (s.valve o).firstClosed now = true := by
      unfold Valve.firstClosed
      rw [first]
      exact congrArg not ends
    have dropped : (s.valve o).dropWindow = { s.valve o with schedule := ws } :=
      congrArg (fun schedule => { s.valve o with schedule := schedule }) (congrArg (List.drop 1) first)
    have done : (s.valve o).dropWindow.endWindow now s.setup.valves.confirm (s.feedback o) = ended (s.valve o) := by
      cases state : (s.valve o).state <;>
        simp only [dropped, Valve.endWindow, Valve.turnOff, stuckStart_eq, ended, state]
    have idle : (ended (s.valve o)).state = .idle := by
      rw [← done]
      exact endWindow_idle ..
    have next : (ended (s.valve o)).schedule.head? = ws.head? := by
      rw [← done, (endWindow_works ..).1, dropped]
    refine ⟨fun operating idle opens => ?_, fun ends waiting => ?_, fun ends operating => ?_⟩
    · rw [exec_windowOpen now valve operating, openIfDue_eq, if_pos ⟨idle, w, by rw [first]; rfl, opens⟩]
      rfl
    · rw [exec_windowClose now valve (closing ends), waiting, dropped]
      rfl
    · rw [exec_windowClose now valve (closing ends), operating, if_pos rfl, done, openIfDue_eq, next]
      refine ⟨fun later => ?_, fun due => ?_⟩
      · rw [if_neg fun ⟨_, n, m, opens⟩ => by rw [later n m] at opens; cases opens]
        rfl
      · rw [if_pos ⟨idle, due⟩]
        rfl

end Sys2Proof.Machine
end

section
/-! SUPPORT. The configuration image (R151, R153, R164): the structural tests one by one, the items with a range, and what a usable
image makes of the station; and the end of the image read (R150, R154). -/

namespace Sys2Proof.Machine

/-! ## First and second of a vector's indexes -/

section
variable {n : Nat} {p : Fin n → Bool} {i : Fin n}

theorem find_indexes : (indexes n).find? p = some i ↔ p i = true ∧ ∀ j, j < i → p j = false := by
  rw [indexes, List.find?_eq_some_iff_getElem]
  refine and_congr_right fun _ => ⟨fun ⟨k, inside, here, before⟩ j less => ?_, fun before => ⟨i.val, by simp, by simp, ?_⟩⟩
  · have less : j.val < k := by
      rw [← here] at less
      simpa [Fin.lt_def] using less
    simpa using before j.val less
  · intro k less
    simpa using before ⟨k, by omega⟩ less

theorem find_indexes_none : (indexes n).find? p = none ↔ ∀ i, p i = false := by
  simp [indexes]

/-- The offset of the first record that offends. -/
theorem first_iff {f : Fin n → Nat} {m : Nat} : ((indexes n).find? p).map f = some m ↔
    ∃ i, m = f i ∧ p i = true ∧ ∀ j, j < i → p j = false := by
  simp only [Option.map_eq_some_iff, find_indexes, and_comm, eq_comm (a := m)]

theorem second_of_sorted {l : List (Fin n)} (sorted : l.Pairwise (· < ·)) :
    l[1]? = some i ↔ i ∈ l ∧ ∃ j, j < i ∧ j ∈ l ∧ ∀ k, k < i → k ∈ l → k = j := by
  match l with
  | [] => simp
  | [a] =>
    simp only [List.mem_singleton]
    exact ⟨nofun, fun ⟨here, j, less, there, _⟩ => absurd less (by rw [here, there]; exact lt_irrefl a)⟩
  | a :: b :: l =>
    obtain ⟨first, rest⟩ := List.pairwise_cons.mp sorted
    have ab : a < b := first b (List.mem_cons_self ..)
    have beyond := (List.pairwise_cons.mp rest).1
    simp only [List.getElem?_cons_succ, List.getElem?_cons_zero, Option.some_inj, List.mem_cons]
    constructor
    · rintro rfl
      refine ⟨.inr (.inl rfl), a, ab, .inl rfl, fun k less m => ?_⟩
      rcases m with rfl | rfl | m
      · rfl
      · exact absurd less (lt_irrefl _)
      · exact absurd less (beyond k m).asymm
    · rintro ⟨rfl | rfl | m, j, less, mj, only⟩
      · rcases mj with rfl | rfl | mj
        · exact absurd less (lt_irrefl _)
        · exact absurd less ab.asymm
        · exact absurd less (first j (List.mem_cons_of_mem _ mj)).asymm
      · rfl
      · have aj := only a (ab.trans (beyond i m)) (.inl rfl)
        have bj := only b (beyond i m) (.inr (.inl rfl))
        exact absurd ab (by rw [aj, bj]; exact lt_irrefl j)

end

/-! ## The structural tests (R151, Table 9.2) -/

section
variable {image : List Byte} {offset : Nat}

theorem checkFault_iff : checkFault image = some offset ↔ imageFails image .check offset := by
  simp only [checkFault, Option.ite_none_left_eq_some, Option.some_inj, eq_comm (a := 254)]
  rfl

theorem formatFault_iff : formatFault image = some offset ↔ imageFails image .format offset := by
  simp only [formatFault, Option.ite_none_left_eq_some, Option.some_inj, eq_comm (a := 0) (b := offset), ← BitVec.toNat_inj]
  rfl

theorem numberFault_iff : numberFault image = some offset ↔ imageFails image .stationNumber offset := by
  simp only [numberFault, Option.ite_none_right_eq_some, Option.some_inj, eq_comm (a := 1)]
  rfl

theorem roleFault_iff : roleFault image = some offset ↔ imageFails image .role offset := by
  simp only [roleFault, first_iff, decide_eq_true_eq, decide_eq_false_iff_not, Nat.not_lt]
  rfl

/-! ### The roles (R101, R121) -/

theorem mem_rolesIn {x y : Nat} {o : Output} :
    o ∈ rolesIn image x y ↔ octetAt image (4 + 8 * o.val) = x ∨ octetAt image (4 + 8 * o.val) = y := by
  simp only [rolesIn, List.mem_filter, mem_indexes, true_and, Bool.or_eq_true, beq_iff_eq]
  rfl

theorem rolesIn_sorted (x y : Nat) : (rolesIn image x y).Pairwise (· < ·) := (List.pairwise_lt_finRange 4).filter _

/-- A role is given to exactly one output. -/
theorem rolesIn_one {code : Nat} : (rolesIn image code code).length = 1 ↔
    ∃ o : Output, octetAt image (4 + 8 * o.val) = code ∧ ∀ p : Output, octetAt image (4 + 8 * p.val) = code → p = o := by
  have mem (o : Output) : o ∈ rolesIn image code code ↔ octetAt image (4 + 8 * o.val) = code := by
    rw [mem_rolesIn, or_self]
  have once : (rolesIn image code code).Nodup := (rolesIn_sorted code code).imp fun less => less.ne
  simp only [← mem]
  rw [List.length_eq_one_iff]
  refine exists_congr fun o => ?_
  rw [← List.perm_singleton, List.perm_ext_iff_of_nodup once (List.nodup_singleton o)]
  simp only [List.mem_singleton]
  exact ⟨fun h => ⟨(h o).mpr rfl, fun p m => (h p).mp m⟩, fun ⟨m, only⟩ p => ⟨only p, fun e => e ▸ m⟩⟩

theorem fanRoleFault_iff : fanRoleFault image = some offset ↔ imageFails image .fanRole offset := by
  have two := rolesIn_one (image := image) (code := 2)
  have three := rolesIn_one (image := image) (code := 3)
  have first : (rolesIn image 2 3).head?.map outputOffset = some offset ↔ ∃ o : Output, offset = 4 + 8 * o.val ∧
      (octetAt image (4 + 8 * o.val) = 2 ∨ octetAt image (4 + 8 * o.val) = 3) ∧
        ∀ p, p < o → octetAt image (4 + 8 * p.val) ≠ 2 ∧ octetAt image (4 + 8 * p.val) ≠ 3 := by
    simp only [rolesIn, List.head?_filter, first_iff, Bool.or_eq_true, beq_iff_eq, Bool.or_eq_false_iff, beq_eq_false_iff_ne]
    rfl
  simp only [fanRoleFault, Option.ite_none_left_eq_some, first]
  refine and_congr_left fun ⟨o, _, given, _⟩ => not_congr ?_
  show _ ↔ (∃ o : Output, octetAt image (4 + 8 * o.val) = 2 ∧ _) ∧ ∃ o : Output, octetAt image (4 + 8 * o.val) = 3 ∧ _
  rw [← two, ← three]
  have some_ : 0 < (rolesIn image 2 2).length ∨ 0 < (rolesIn image 3 3).length :=
    given.imp (fun e => List.length_pos_of_mem (mem_rolesIn.mpr (.inl e)))
      fun e => List.length_pos_of_mem (mem_rolesIn.mpr (.inl e))
  omega

/-- R121: a motor barrier. -/
def motorAt (image : List Byte) (o : Output) : Prop :=
  octetAt image (4 + 8 * o.val) = 5 ∨ octetAt image (4 + 8 * o.val) = 6

/-- R121: the ranks of a motor barrier and of another agree, or every output is a motor barrier. -/
def motorOffends (image : List Byte) (o : Output) : Prop :=
  (∀ p, motorAt image p) ∨ (motorAt image o ∧ ∃ p, p ≠ o ∧ motorAt image p ∧
    octetAt image (7 + 8 * p.val) = octetAt image (7 + 8 * o.val))

theorem mem_rankClashes {o : Output} : o ∈ rankClashes image ↔ motorAt image o ∧ ∃ p, p ≠ o ∧ motorAt image p ∧
    octetAt image (7 + 8 * p.val) = octetAt image (7 + 8 * o.val) := by
  simp only [rankClashes, List.mem_filter, List.any_eq_true, mem_rolesIn, Bool.and_eq_true, decide_eq_true_eq, beq_iff_eq,
    and_left_comm (b := _ ≠ o)]
  rfl

/-- R121: the motor barriers that offend by their number or by their ranks, in order. -/
def motorOffenders (image : List Byte) : List Output :=
  if 3 < (rolesIn image 5 6).length then rolesIn image 5 6 else rankClashes image

theorem mem_motorOffenders {o : Output} : o ∈ motorOffenders image ↔ motorOffends image o := by
  have full : 3 < (rolesIn image 5 6).length ↔ ∀ p, motorAt image p := by
    have most : (rolesIn image 5 6).length ≤ (indexes 4).length := List.length_filter_le ..
    have all : (rolesIn image 5 6).length = (indexes 4).length ↔ ∀ p ∈ indexes 4, _ := List.length_filter_eq_length_iff
    have four : (indexes 4).length = 4 := rfl
    simp only [mem_indexes, Bool.or_eq_true, beq_iff_eq, forall_const] at all
    exact ⟨fun more => all.mp (by omega), fun every => by have := all.mpr every; omega⟩
  unfold motorOffenders motorOffends
  rw [← full]
  split
  · rename_i more
    exact ⟨fun _ => .inl more, fun _ => mem_rolesIn.mpr (full.mp more o)⟩
  · rename_i fewer
    rw [mem_rankClashes, or_iff_right fewer]

theorem motorOffenders_sorted : (motorOffenders image).Pairwise (· < ·) := by
  unfold motorOffenders
  split
  · exact rolesIn_sorted 5 6
  · exact (rolesIn_sorted 5 6).filter _

/-- R121: the first motor barrier with a rank above 3. -/
theorem highRank_iff {o : Output} : (rolesIn image 5 6).find? (fun o => 3 < rawRank image o) = some o ↔
    motorAt image o ∧ 3 < octetAt image (7 + 8 * o.val) ∧
      ∀ p, p < o → motorAt image p → octetAt image (7 + 8 * p.val) ≤ 3 := by
  simp only [rolesIn, List.find?_filter, find_indexes, ← Bool.not_eq_true, Bool.or_eq_true,
    beq_iff_eq, decide_eq_true_eq, not_and, Nat.not_lt, and_assoc]
  rfl

theorem motorFault_iff : motorFault image = some offset ↔ imageFails image .motorBarriers offset := by
  have second : (if 3 < (rolesIn image 5 6).length then (rolesIn image 5 6)[1]?.map outputOffset
      else (rankClashes image)[1]?.map outputOffset) = (motorOffenders image)[1]?.map outputOffset := by
    unfold motorOffenders
    split <;> rfl
  show _ ↔ ∃ o : Output, offset = 4 + 8 * o.val ∧
    ((motorAt image o ∧ 3 < octetAt image (7 + 8 * o.val) ∧
        ∀ p, p < o → motorAt image p → octetAt image (7 + 8 * p.val) ≤ 3) ∨
      ((∀ p, motorAt image p → octetAt image (7 + 8 * p.val) ≤ 3) ∧ motorOffends image o ∧
        ∃ p, p < o ∧ motorOffends image p ∧ ∀ q, q < o → motorOffends image q → q = p))
  unfold motorFault
  split
  · rename_i o found
    have high := highRank_iff.mp found
    refine ⟨fun e => ⟨o, (Option.some.inj e).symm, .inl high⟩, fun ⟨p, e, offends⟩ => ?_⟩
    rcases offends with first | ⟨low, _⟩
    · cases (highRank_iff.mpr first).symm.trans found
      exact congrArg some e.symm
    · exact absurd high.2.1 (Nat.not_lt.mpr (low o high.1))
  · rename_i none_
    have low (p : Output) (motor : motorAt image p) : octetAt image (7 + 8 * p.val) ≤ 3 :=
      Nat.not_lt.mp fun more => List.find?_eq_none.mp none_ p (mem_rolesIn.mpr motor) (decide_eq_true more)
    rw [second, Option.map_eq_some_iff]
    refine exists_congr fun o => ?_
    rw [second_of_sorted motorOffenders_sorted, and_comm, eq_comm (b := offset)]
    simp only [mem_motorOffenders]
    exact and_congr_right fun _ => ⟨fun h => .inr ⟨low, h⟩, fun h =>
      (h.resolve_left fun high => absurd high.2.1 (Nat.not_lt.mpr (low o high.1))).2⟩

/-! ### The branches (R67) -/

theorem branchOffends_iff (b : Branch) : branchOffends image b.val = true ↔
    wordAt image (71 + 6 * b.val) ≠ 0 ∧ 128 ≤ octetAt image (68 + 6 * b.val) ∧
      ∃ p : Branch, p.val = octetAt image (68 + 6 * b.val) % 16 ∧ (p = b ∨ 128 ≤ octetAt image (68 + 6 * p.val) ∨
        octetAt image (68 + 6 * p.val) / 16 % 4 ≠ octetAt image (68 + 6 * b.val) / 16 % 4) := by
  have parent : (∃ p : Branch, p.val = octetAt image (68 + 6 * b.val) % 16 ∧ (p = b ∨ 128 ≤ octetAt image (68 + 6 * p.val) ∨
        octetAt image (68 + 6 * p.val) / 16 % 4 ≠ octetAt image (68 + 6 * b.val) / 16 % 4)) ↔
      rawParent image b.val = b.val ∨ 128 ≤ octetAt image (68 + 6 * rawParent image b.val) ∨
        octetAt image (68 + 6 * rawParent image b.val) / 16 % 4 ≠ octetAt image (68 + 6 * b.val) / 16 % 4 :=
    ⟨fun ⟨p, e, h⟩ => by
      have e : rawParent image b.val = p.val := e.symm
      rw [e]
      exact h.imp_left (congrArg Fin.val),
    fun h => ⟨⟨rawParent image b.val, Nat.mod_lt _ (by decide)⟩, rfl, h.imp_left Fin.ext⟩⟩
  simp only [branchOffends, Bool.and_eq_true, Bool.or_eq_true, bne_iff_ne, beq_iff_eq, rawHasParent, decide_eq_true_eq,
    parent, and_assoc, or_assoc]
  rfl

theorem branchFault_iff : branchFault image = some offset ↔ imageFails image .branchTable offset := by
  simp only [branchFault, first_iff, ← Bool.not_eq_true, branchOffends_iff]
  rfl

theorem rawEnabled_iff (c : Channel) : rawEnabled image c = true ↔ octetAt image (36 + 8 * c.val) % 2 = 1 := beq_iff_eq

theorem branchUnusable_iff (b : Nat) : branchUnusable image b = true ↔ 15 < b ∨ wordAt image (71 + 6 * b) = 0 := by
  simp only [branchUnusable, Bool.or_eq_true, decide_eq_true_eq, beq_iff_eq]
  rfl

theorem zeroBranchFault_iff : zeroBranchFault image = some offset ↔ imageFails image .zeroBranch offset := by
  simp only [zeroBranchFault, Option.or_eq_some_iff, Option.map_eq_none_iff, first_iff, find_indexes_none,
    ← Bool.not_eq_true, Bool.and_eq_true, beq_iff_eq, branchUnusable_iff, rawEnabled_iff]
  rfl

end

/-! ### The first test that fails (R151) -/

section
variable {image : List Byte}

/-- The offset that the test of a fault kind reports. -/
def testFault (image : List Byte) : FaultKind → Option Nat
  | .none => none
  | .noImage => none
  | .check => checkFault image
  | .format => formatFault image
  | .stationNumber => numberFault image
  | .role => roleFault image
  | .fanRole => fanRoleFault image
  | .motorBarriers => motorFault image
  | .branchTable => branchFault image
  | .zeroBranch => zeroBranchFault image

theorem testFault_iff (kind : FaultKind) {offset : Nat} : testFault image kind = some offset ↔ imageFails image kind offset := by
  cases kind with
  | none => exact ⟨nofun, nofun⟩
  | noImage => exact ⟨nofun, nofun⟩
  | check => exact checkFault_iff
  | format => exact formatFault_iff
  | stationNumber => exact numberFault_iff
  | role => exact roleFault_iff
  | fanRole => exact fanRoleFault_iff
  | motorBarriers => exact motorFault_iff
  | branchTable => exact branchFault_iff
  | zeroBranch => exact zeroBranchFault_iff

theorem testFault_none_iff (kind : FaultKind) : testFault image kind = none ↔ ∀ offset, ¬imageFails image kind offset := by
  simp only [Option.eq_none_iff_forall_ne_some, ne_eq, testFault_iff]

/-- A test with its kind. -/
def testReport (image : List Byte) (kind : FaultKind) : Option (FaultKind × Nat) := (testFault image kind).map (kind, ·)

theorem structuralError_eq (image : List Byte) : structuralError image = imageTests.findSome? (testReport image) := by
  have cons (k : FaultKind) (ks : List FaultKind) :
      (k :: ks).findSome? (testReport image) = (testReport image k).or (ks.findSome? (testReport image)) := by
    rw [List.findSome?_cons]
    cases testReport image k <;> rfl
  simp only [imageTests, cons, List.findSome?_nil, Option.or_none]
  rfl

theorem structuralError_some_iff {kind : FaultKind} {offset : Nat} : structuralError image = some (kind, offset) ↔
    imageFails image kind offset ∧
      ∃ before behind, imageTests = before ++ kind :: behind ∧ ∀ k ∈ before, ∀ n, ¬imageFails image k n := by
  have reports (k : FaultKind) : testReport image k = some (kind, offset) ↔ k = kind ∧ imageFails image kind offset := by
    simp only [testReport, Option.map_eq_some_iff, Prod.mk.injEq, testFault_iff]
    exact ⟨fun ⟨_, fails, e, e'⟩ => by subst e e'; exact ⟨rfl, fails⟩, fun ⟨e, fails⟩ => by subst e; exact ⟨_, fails, rfl, rfl⟩⟩
  have passes (k : FaultKind) : testReport image k = none ↔ ∀ n, ¬imageFails image k n := by
    rw [testReport, Option.map_eq_none_iff, testFault_none_iff]
  rw [structuralError_eq, List.findSome?_eq_some_iff]
  simp only [reports, passes]
  exact ⟨fun ⟨before, k, behind, tests, ⟨e, fails⟩, passed⟩ => by subst e; exact ⟨fails, before, behind, tests, passed⟩,
    fun ⟨fails, before, behind, tests, passed⟩ => ⟨before, kind, behind, tests, ⟨rfl, fails⟩, passed⟩⟩

theorem structuralError_none_iff : structuralError image = none ↔ ∀ kind offset, ¬imageFails image kind offset := by
  rw [structuralError_eq, List.findSome?_eq_none_iff]
  simp only [testReport, Option.map_eq_none_iff, testFault_none_iff]
  refine ⟨fun passed kind => ?_, fun passed kind _ => passed kind⟩
  cases kind with
  | none => exact fun _ => id
  | noImage => exact fun _ => id
  | _ => exact passed _ (by decide)

end

/-! ## The items with a range (R153) -/

section
variable {image : List Byte} {low high : Nat}

theorem clamp_within (ordered : low ≤ high) (n : Nat) : clamp low high n = within low high n := by
  unfold clamp within
  split_ifs <;> omega

theorem clamp_zero (high n : Nat) : clamp 0 high n = min high n := Nat.zero_max _

/-- R153: an item with a range, as the model reads it. -/
def ImageRange.item (image : List Byte) (r : ImageRange) : Item := ⟨r.offset, r.read image, r.used image⟩

theorem item8_clamp (i : Nat) (ordered : low ≤ high) :
    item8 image i (clamp low high) = (⟨i, 1, low, high, false⟩ : ImageRange).item image :=
  congrArg (Item.mk i (octetAt image i)) (clamp_within ordered _)

theorem item16_clamp (i : Nat) (ordered : low ≤ high) :
    item16 image i (clamp low high) = (⟨i, 2, low, high, false⟩ : ImageRange).item image :=
  congrArg (Item.mk i (wordAt image i)) (clamp_within ordered _)

theorem clampOrZero_within (ordered : low ≤ high) (n : Nat) :
    clampOrZero low high n = if n = 0 then 0 else within low high n :=
  ite_congr rfl (fun _ => rfl) fun _ => clamp_within ordered n

theorem item8_clampOrZero (i : Nat) (ordered : low ≤ high) :
    item8 image i (clampOrZero low high) = (⟨i, 1, low, high, true⟩ : ImageRange).item image := by
  refine congrArg (Item.mk i (octetAt image i)) ((clampOrZero_within ordered _).trans ?_)
  exact ite_congr (propext ⟨fun e => ⟨rfl, e⟩, And.right⟩) (fun _ => rfl) fun _ => rfl

theorem item16_clampOrZero (i : Nat) (ordered : low ≤ high) :
    item16 image i (clampOrZero low high) = (⟨i, 2, low, high, true⟩ : ImageRange).item image := by
  refine congrArg (Item.mk i (wordAt image i)) ((clampOrZero_within ordered _).trans ?_)
  exact ite_congr (propext ⟨fun e => ⟨rfl, e⟩, And.right⟩) (fun _ => rfl) fun _ => rfl

/-- Tables 4.2 and 7.1: the items with a range of an output record, by its role. -/
def outputRanges (image : List Byte) (o : Output) : List ImageRange :=
  match octetAt image (4 + 8 * o.val) with
  | 1 =>
    [⟨6 + 8 * o.val, 2, 0, min 4000 (wordAt image (71 + 6 * octetAt image (5 + 8 * o.val))), false⟩,
     ⟨8 + 8 * o.val, 2, 10, 2000, false⟩]
  | 4 | 5 => [⟨8 + 8 * o.val, 1, 1, 120, false⟩]
  | 6 => [⟨8 + 8 * o.val, 1, 1, 120, false⟩, ⟨9 + 8 * o.val, 1, 0, 3, false⟩]
  | _ => []

/-- Table 3.1. -/
def channelRanges (c : Channel) : List ImageRange :=
  [⟨37 + 8 * c.val, 1, 0, 15, false⟩, ⟨38 + 8 * c.val, 2, 0, 4000, false⟩]

/-- Table 4.1. -/
def branchRanges (image : List Byte) (b : Branch) : List ImageRange :=
  (if 128 ≤ octetAt image (68 + 6 * b.val) then [⟨69 + 6 * b.val, 2, 0, 4000, false⟩] else []) ++
    [⟨71 + 6 * b.val, 2, 0, 4000, false⟩, ⟨73 + 6 * b.val, 1, 1, 128, false⟩]

/-- Tables 4.3, 5.1, 3.2, 6.1, 7.1 and R137, R155. -/
def parameterRanges (image : List Byte) : List ImageRange :=
  [⟨164, 1, 0, 50, false⟩, ⟨165, 2, 0, 1000, false⟩, ⟨167, 2, 0, 2000, false⟩, ⟨169, 2, 20, 400, false⟩,
   ⟨171, 2, 1000, 30000, false⟩, ⟨173, 2, 100, 2000, false⟩, ⟨175, 1, 5, 60, false⟩, ⟨176, 2, 30, 300, false⟩,
   ⟨178, 2, 100, 1000, false⟩, ⟨180, 1, 10, 60, false⟩, ⟨181, 1, 2, 200, false⟩,
   ⟨182, 1, 0, within 2 200 (octetAt image 181) - 1, false⟩, ⟨183, 1, 5, 120, true⟩, ⟨184, 1, 1, 255, false⟩,
   ⟨185, 2, 20, 600, false⟩, ⟨187, 1, 0, 100, false⟩, ⟨188, 1, 0, 200, false⟩, ⟨189, 2, 200, 5000, false⟩,
   ⟨191, 2, 10, 300, false⟩, ⟨193, 1, 5, 60, false⟩, ⟨196, 1, 0, 60, false⟩, ⟨197, 2, 60, 900, true⟩,
   ⟨199, 1, 0, 14, false⟩, ⟨200, 1, min 14 (octetAt image 199) + 1, 15, false⟩]

theorem imageRanges_eq (image : List Byte) : imageRanges image =
    [⟨2, 1, 0, 15, false⟩, ⟨3, 1, 0, 3, false⟩] ++ (indexes 4).flatMap (outputRanges image) ++
      (indexes 4).flatMap channelRanges ++ (indexes 16).flatMap (branchRanges image) ++ parameterRanges image := rfl

theorem valvePositionItem_eq (o : Output) : valvePositionItem image o =
    (⟨6 + 8 * o.val, 2, 0, min 4000 (wordAt image (71 + 6 * octetAt image (5 + 8 * o.val))), false⟩ : ImageRange).item
      image := by
  rw [← item16_clamp _ (Nat.zero_le _), ← clamp_zero]
  rfl

theorem outputItems_eq (o : Output) : outputItems image o = (outputRanges image o).map (ImageRange.item image) := by
  have travel : travelItem image o = (⟨8 + 8 * o.val, 1, 1, 120, false⟩ : ImageRange).item image :=
    item8_clamp (8 + 8 * o.val) (by decide : 1 ≤ 120)
  have code : rawRole image o = octetAt image (4 + 8 * o.val) := rfl
  unfold outputItems outputRanges
  rw [code]
  generalize octetAt image (4 + 8 * o.val) = code
  match code with
  | 1 => exact congrArg₂ (fun x y => [x, y]) (valvePositionItem_eq o) (item16_clamp (8 + 8 * o.val) (by decide : 10 ≤ 2000))
  | 4 => exact congrArg (fun x => [x]) travel
  | 5 => exact congrArg (fun x => [x]) travel
  | 6 => exact congrArg₂ (fun x y => [x, y]) travel (item8_clamp (9 + 8 * o.val) (by decide : 0 ≤ 3))
  | 0 | 2 | 3 | _ + 7 => rfl

theorem channelItems_eq (c : Channel) :
    [channelBranchItem image c, channelPositionItem image c] = (channelRanges c).map (ImageRange.item image) :=
  congrArg₂ (fun x y => [x, y]) (item8_clamp _ (Nat.zero_le _)) (item16_clamp _ (Nat.zero_le _))

theorem branchItems_eq (b : Branch) : branchItems image b.val = (branchRanges image b).map (ImageRange.item image) := by
  have parent : rawHasParent image b.val = true ↔ 128 ≤ octetAt image (68 + 6 * b.val) := decide_eq_true_iff
  unfold branchItems branchRanges
  rw [List.map_append]
  refine congrArg₂ (· ++ ·) ?_ (congrArg₂ (fun x y => [x, y]) (item16_clamp (71 + 6 * b.val) (Nat.zero_le 4000))
    (item8_clamp (73 + 6 * b.val) (by decide : 1 ≤ 128)))
  simp only [parent]
  split
  · exact congrArg (fun x => [x]) (item16_clamp (69 + 6 * b.val) (Nat.zero_le 4000))
  · rfl

theorem stormOffItem_eq (image : List Byte) :
    stormOffItem image = item8 image 182 (clamp 0 (within 2 200 (octetAt image 181) - 1)) := by
  rw [← clamp_within (by decide)]
  rfl

theorem supplyResumeItem_eq (image : List Byte) :
    supplyResumeItem image = item8 image 200 (clamp (min 14 (octetAt image 199) + 1) 15) := by
  rw [← clamp_zero]
  rfl

theorem parameterItems_eq (image : List Byte) :
    [spreadItem image, leadItem image, holdItem image, timingFloorItem image, floodHoldItem image, confirmItem image,
      cutOffItem image, floodCutOffItem image, gapItem image, testIntervalItem image, stormOnItem image, stormOffItem image,
      escalationItem image, scaleItem image, floorItem image, hysteresisItem image, stopItem image, gateTimeItem image,
      rundownItem image, graceItem image, damperWaitItem image, resoundItem image, supplyLowItem image,
      supplyResumeItem image] = (parameterRanges image).map (ImageRange.item image) := by
  simp (disch := omega) only [parameterRanges, List.map_cons, List.map_nil, ← item8_clamp, ← item16_clamp,
    ← item8_clampOrZero, ← item16_clampOrZero, stormOffItem_eq, supplyResumeItem_eq]
  rfl

theorem imageItems_eq (image : List Byte) : imageItems image = (imageRanges image).map (ImageRange.item image) := by
  have place : [zoneItem image, systemItem image] =
      [⟨2, 1, 0, 15, false⟩, ⟨3, 1, 0, 3, false⟩].map (ImageRange.item image) :=
    congrArg₂ (fun x y => [x, y]) (item8_clamp 2 (Nat.zero_le 15)) (item8_clamp 3 (Nat.zero_le 3))
  simp only [imageRanges_eq, imageItems, List.map_append, List.map_flatMap, ← outputItems_eq, ← channelItems_eq,
    ← branchItems_eq, ← parameterItems_eq, place]

/-- R153: the records of the items clamped. -/
theorem clampFilings_eq (image : List Byte) : clampFilings image =
    ((imageRanges image).filter fun r => r.read image ≠ r.used image).map fun r =>
      ⟨.configClamped, octet r.offset, BitVec.ofNat 16 (r.read image)⟩ := by
  rw [clampFilings, imageItems_eq, List.filter_map, List.map_map]
  rfl

/-- R153: every offset at which an image may hold an item with a range, in order. -/
def rangeOffsets : List Nat :=
  [2, 3] ++
  ((indexes 4).flatMap fun o : Output => [6 + 8 * o.val, 8 + 8 * o.val, 9 + 8 * o.val]) ++
  ((indexes 4).flatMap fun c : Channel => [37 + 8 * c.val, 38 + 8 * c.val]) ++
  ((indexes 16).flatMap fun b : Branch => [69 + 6 * b.val, 71 + 6 * b.val, 73 + 6 * b.val]) ++
  [164, 165, 167, 169, 171, 173, 175, 176, 178, 180, 181, 182, 183, 184, 185, 187, 188, 189, 191, 193, 196, 197, 199, 200]

theorem rangeOffsets_sorted : rangeOffsets.Pairwise fun i j => (octet i).toNat < (octet j).toNat := by
  have sorted : rangeOffsets.Pairwise (· < ·) := List.isChain_iff_pairwise.mp (by decide +kernel)
  have octets : ∀ i ∈ rangeOffsets, i < 256 := by decide
  refine sorted.imp_of_mem fun mi mj less => ?_
  simpa [octet, Nat.mod_eq_of_lt, octets _ mi, octets _ mj] using less

theorem imageRanges_offsets (image : List Byte) : ((imageRanges image).map ImageRange.offset).Sublist rangeOffsets := by
  have outputs (o : Output) : ((outputRanges image o).map ImageRange.offset).Sublist
      [6 + 8 * o.val, 8 + 8 * o.val, 9 + 8 * o.val] := by
    unfold outputRanges
    split <;> simp
  have branches (b : Branch) : ((branchRanges image b).map ImageRange.offset).Sublist
      [69 + 6 * b.val, 71 + 6 * b.val, 73 + 6 * b.val] := by
    unfold branchRanges
    split <;> simp
  simp only [imageRanges_eq, List.map_append, List.map_flatMap]
  exact ((((List.Sublist.refl _).append (List.Sublist.flatMap_right _ fun o _ => outputs o)).append
    (List.Sublist.refl _)).append (List.Sublist.flatMap_right _ fun b _ => branches b)).append (List.Sublist.refl _)

/-- R153: the records of the items clamped come in order of offset. -/
theorem clampFilings_sorted (image : List Byte) :
    (clampFilings image).Pairwise fun f g => f.subject.toNat < g.subject.toNat := by
  have sorted := rangeOffsets_sorted.sublist (imageRanges_offsets image)
  rw [clampFilings_eq]
  exact List.pairwise_map.mpr ((List.pairwise_map.mp sorted).filter _)

end

/-! ## What a usable image makes of the station (R164) -/

section
variable {image : List Byte}

theorem roleGiven_iff {x y : Nat} : (!(rolesIn image x y).isEmpty) = true ↔
    ∃ o : Output, octetAt image (4 + 8 * o.val) = x ∨ octetAt image (4 + 8 * o.val) = y := by
  simp only [Bool.not_eq_true', List.isEmpty_eq_false_iff_exists_mem, mem_rolesIn]

/-- R101, R150: with the fan roles given once each or not at all, a station with one has both. -/
theorem fanGiven_iff (sound : fanRoleFault image = none) : (!(rolesIn image 2 3).isEmpty) = true ↔
    (∃ o : Output, octetAt image (4 + 8 * o.val) = 2) ∧ ∃ o : Output, octetAt image (4 + 8 * o.val) = 3 := by
  have given {x : Nat} : 0 < (rolesIn image x x).length ↔ ∃ o : Output, octetAt image (4 + 8 * o.val) = x := by
    simp only [List.length_pos_iff_exists_mem, mem_rolesIn, or_self]
  rw [roleGiven_iff, exists_or, ← given, ← given]
  by_cases once : (rolesIn image 2 2).length = (rolesIn image 3 3).length ∧ (rolesIn image 2 2).length ≤ 1
  · omega
  · rw [fanRoleFault, if_neg once, Option.map_eq_none_iff, List.head?_eq_none_iff] at sound
    have absent (x : Nat) (is : x = 2 ∨ x = 3) : ¬0 < (rolesIn image x x).length := by
      rw [given]
      rintro ⟨o, e⟩
      have m : o ∈ rolesIn image 2 3 := mem_rolesIn.mpr (by rw [e]; exact is)
      rw [sound] at m
      exact absurd m List.not_mem_nil
    have := absent 2 (.inl rfl)
    have := absent 3 (.inr rfl)
    omega

theorem imageOutput_reads (o : Output) :
    let i := 8 * o.val
    let zones : ZoneSet := BitVec.ofNat 16 (wordAt image (5 + i))
    let rank := octetAt image (7 + i)
    let travel := within 1 120 (octetAt image (8 + i))
    imageOutput image o = match octetAt image (4 + i) with
      | 1 => .valve (Fin.ofNat 16 (octetAt image (5 + i)))
          (min (min 4000 (wordAt image (71 + 6 * octetAt image (5 + i)))) (wordAt image (6 + i)))
          (within 10 2000 (wordAt image (8 + i)))
      | 2 => .fanContactor
      | 3 => .abortGate
      | 4 => .magnet zones travel
      | 5 => .shutter zones rank travel
      | 6 => .damper zones rank travel (Fin.ofNat 4 (min 3 (octetAt image (9 + i))))
      | 7 => .siren zones
      | _ => .none := by
  have code : rawRole image o = octetAt image (4 + 8 * o.val) := rfl
  have position : (valvePositionItem image o).used =
      min (min 4000 (wordAt image (71 + 6 * octetAt image (5 + 8 * o.val)))) (wordAt image (6 + 8 * o.val)) :=
    (clamp_zero ..).trans (congrArg (min · _) (clamp_zero ..))
  have reach : (reachItem image o).used = within 10 2000 (wordAt image (8 + 8 * o.val)) := clamp_within (by decide) _
  have travel : (travelItem image o).used = within 1 120 (octetAt image (8 + 8 * o.val)) := clamp_within (by decide) _
  have system : (damperSystemItem image o).used = min 3 (octetAt image (9 + 8 * o.val)) := clamp_zero ..
  unfold imageOutput
  rw [code]
  dsimp only
  generalize octetAt image (4 + 8 * o.val) = code
  match code with
  | 1 => exact congrArg₂ (OutputRole.valve _) position reach
  | 4 => exact congrArg (OutputRole.magnet _) travel
  | 5 => exact congrArg (OutputRole.shutter _ _) travel
  | 6 => exact congrArg₂ (OutputRole.damper _ _) travel (congrArg (Fin.ofNat 4) system)
  | 0 | 2 | 3 | 7 | _ + 8 => rfl

theorem imageChannel_reads (c : Channel) : imageChannel image c =
    { enabled := octetAt image (36 + 8 * c.val) % 2 == 1
      branch := Fin.ofNat 16 (min 15 (octetAt image (37 + 8 * c.val)))
      position := min 4000 (wordAt image (38 + 8 * c.val))
      serving := BitVec.ofNat 32 (wordAt image (40 + 8 * c.val) * 65536 + wordAt image (42 + 8 * c.val)) } := by
  have branch : (channelBranchItem image c).used = min 15 (octetAt image (37 + 8 * c.val)) := clamp_zero ..
  have position : (channelPositionItem image c).used = min 4000 (wordAt image (38 + 8 * c.val)) := clamp_zero ..
  have second : 42 + 8 * c.val = 40 + 8 * c.val + 2 := by omega
  unfold imageChannel
  rw [branch, position, second]
  rfl

theorem imageBranch_reads (b : Branch) : imageBranch image b =
    { system := Fin.ofNat 4 (octetAt image (68 + 6 * b.val) / 16 % 4)
      parent :=
        if 128 ≤ octetAt image (68 + 6 * b.val) then some (Fin.ofNat 16 (octetAt image (68 + 6 * b.val) % 16)) else none
      join := if 128 ≤ octetAt image (68 + 6 * b.val) then min 4000 (wordAt image (69 + 6 * b.val)) else 0
      length := min 4000 (wordAt image (71 + 6 * b.val))
      factor := within 1 128 (octetAt image (73 + 6 * b.val)) } := by
  have parent : rawHasParent image b.val = true ↔ 128 ≤ octetAt image (68 + 6 * b.val) := decide_eq_true_iff
  have join : (joinItem image b.val).used = min 4000 (wordAt image (69 + 6 * b.val)) := clamp_zero ..
  have length : (lengthItem image b.val).used = min 4000 (wordAt image (71 + 6 * b.val)) := clamp_zero ..
  have factor : (factorItem image b.val).used = within 1 128 (octetAt image (73 + 6 * b.val)) := clamp_within (by decide) _
  unfold imageBranch
  simp only [parent, join, length, factor]
  rfl

theorem imageRoles_reads (sound : fanRoleFault image = none) :
    ((imageRoles image).sense = true ↔ ∃ c : Channel, octetAt image (36 + 8 * c.val) % 2 = 1) ∧
    ((imageRoles image).valve = true ↔ ∃ o : Output, octetAt image (4 + 8 * o.val) = 1) ∧
    ((imageRoles image).barrier = true ↔ ∃ o : Output, octetAt image (4 + 8 * o.val) = 4 ∨
      octetAt image (4 + 8 * o.val) = 5 ∨ octetAt image (4 + 8 * o.val) = 6) ∧
    ((imageRoles image).siren = true ↔ ∃ o : Output, octetAt image (4 + 8 * o.val) = 7) ∧
    ((imageRoles image).fan = true ↔
      (∃ o : Output, octetAt image (4 + 8 * o.val) = 2) ∧ ∃ o : Output, octetAt image (4 + 8 * o.val) = 3) := by
  refine ⟨?_, ?_, ?_, ?_, ?_⟩
  · simp only [imageRoles, List.any_eq_true, mem_indexes, true_and, rawEnabled_iff]
  · simp only [imageRoles, roleGiven_iff, or_self]
  · simp only [imageRoles, Bool.or_eq_true, roleGiven_iff, or_self, exists_or]
  · simp only [imageRoles, roleGiven_iff, or_self]
  · simp only [imageRoles, sound, Option.isNone_none, Bool.true_and, fanGiven_iff sound]

theorem imageSensing_reads : (imageSetup image).sensing =
    { testInterval := within 10 60 (octetAt image 180)
      stormOn := within 2 200 (octetAt image 181)
      stormOff := min (within 2 200 (octetAt image 181) - 1) (octetAt image 182)
      escalation := if octetAt image 183 = 0 then 0 else within 5 120 (octetAt image 183) } :=
  (SensingParameters.mk.injEq ..).mpr ⟨clamp_within (by decide) _, clamp_within (by decide) _,
    (congrArg Item.used (stormOffItem_eq image)).trans (clamp_zero ..), clampOrZero_within (by decide) _⟩

/-- R151, R153, R164: a usable image read at its offsets, each item clamped to its range. -/
theorem imageSetup_reads (usable : structuralError image = none) : imageReads image (imageSetup image) := by
  have passes := structuralError_none_iff.mp usable
  obtain ⟨sense, valve, barrier, siren, fan⟩ := imageRoles_reads ((testFault_none_iff .fanRole).mpr (passes .fanRole))
  have number : octetAt image 1 < 32 := by
    have := passes .stationNumber 1
    unfold imageFails at this
    omega
  exact {
    sense, valve, barrier, siren, fan
    station := ⟨Nat.mod_eq_of_lt number, (congrArg (· % 16) (clamp_zero ..)).trans (Nat.mod_eq_of_lt (by omega)),
      (congrArg (· % 4) (clamp_zero ..)).trans (Nat.mod_eq_of_lt (by omega))⟩
    outputs o := (tabulate_at (imageOutput image) o).trans (imageOutput_reads o)
    channels c := (tabulate_at (imageChannel image) c).trans (imageChannel_reads c)
    branches b := (tabulate_at (imageBranch image) b).trans (imageBranch_reads b)
    timing := (TimingParameters.mk.injEq ..).mpr
      ⟨clamp_zero .., clamp_zero .., clamp_zero .., clamp_within (by decide) _, clamp_within (by decide) _⟩
    valves := (ValveParameters.mk.injEq ..).mpr ⟨clamp_within (by decide) _, clamp_within (by decide) _,
      clamp_within (by decide) _, clamp_within (by decide) _⟩
    sensing := imageSensing_reads
    extraction := (ExtractionParameters.mk.injEq ..).mpr ⟨clamp_within (by decide) _, clamp_within (by decide) _,
      clamp_zero .., clamp_zero .., clamp_within (by decide) _, clamp_within (by decide) _, clamp_within (by decide) _, rfl⟩
    damperWait := clamp_zero ..
    resound := clampOrZero_within (by decide) _
    supply := ⟨clamp_zero .., (congrArg Item.used (supplyResumeItem_eq image)).trans (clamp_within (by omega) _)⟩
    mask := rfl }

end

/-! ## The end of the read (R150, R154) -/

/-- R150: a complete read within its time is checked. -/
theorem exec_imageReadComplete {s : State} {now began : Time} {image : List Byte} (load : s.start.phase = .load)
    (reading : s.start.readBegan = some began) (intime : (now - began).toNat ≤ 100) (whole : image.length = 256) :
    exec (.imageReadComplete now image) s = .next ((s.takeAt now).completeRead image) := by
  have within_ : (s.takeAt now).withinRead = true := by
    unfold State.withinRead
    rw [State.takeAt_start, reading]
    exact decide_eq_true intime
  have ready : (s.takeAt now).reading = true := by simp [State.reading, load, reading]
  exact congrArg answer (if_pos (by rw [ready, within_, whole]; rfl))

/-- Settles O6: the structural error is the first test that fails, the items with a range are those of the rules, and the read
ends in CONFIG_FAULT, or in LISTEN with the consequences of the image put to use. -/
theorem imageReadCompletes : Obligations.ImageReadCompletes := by
  refine ⟨fun image kind offset => structuralError_some_iff, fun image => structuralError_none_iff,
    fun image => imageSetup_reads, clampFilings_eq, clampFilings_sorted,
    fun now image s began load reading intime whole => ⟨fun kind offset error => ?_, fun usable => ?_⟩⟩
  · rw [exec_imageReadComplete load reading intime whole, State.completeRead, error]
    rfl
  · refine ⟨((s.takeAt now).listening image).settle, ?_, ?_⟩
    · rw [exec_imageReadComplete load reading intime whole, State.completeRead, usable]
      rfl
    · have flags : (if clampFilings image = [] then s.flags else s.flags ||| Attention.configClamped.mask) =
          if (clampFilings image).isEmpty then s.flags else s.flags ||| Attention.configClamped.mask :=
        ite_congr (propext List.isEmpty_iff.symm) (fun _ => rfl) fun _ => rfl
      rw [flags]
      exact settle_settledFrom ((s.takeAt now).listening image)

end Sys2Proof.Machine
end

section
/-! SUPPORT. The debounced feedbacks of the outputs, and the valve commands besides the windows (R82, R90 to R92, R94 to R97; O40
and O41). -/

namespace Sys2Proof.Machine

section
variable {s t u : State} {o : Output}

/-! ## Feedbacks (R82, R101) -/

/-- R82, R101: a feedback of an output in use that takes another debounced state, with permission to transmit. -/
theorem takesFeedback_of {p : OutputRole → Bool} {active : Bool} (kind : p (s.role o) = true) (used : (s.role o).isNone = false)
    (permitted : s.permitted = true) (other : s.feedback o = !active) : s.takesFeedback p o active = true := by
  unfold State.takesFeedback State.feedbackDebounced
  rw [kind, used, permitted, other]
  cases active <;> rfl

theorem isNone_of_isValve {r : OutputRole} (h : r.isValve = true) : r.isNone = false := by
  cases r with
  | valve => rfl
  | _ => cases h

/-! ## The flow switch (R82, R90 to R92, R96) -/

/-- R82: while OPERATING the debounced change acts on the valve. -/
theorem exec_flowSwitchChange (now : Time) {active : Bool} (valve : (s.role o).isValve = true) (permitted : s.permitted = true)
    (other : s.feedback o = !active) : exec (.flowSwitchChange now o active) s = .next (
      if s.operating then
        ((s.takeAt now).setFeedback o active).withValve o ((s.valve o).takeFlow now s.setup.valves.confirm active)
      else (s.takeAt now).setFeedback o active) :=
  congrArg answer (if_pos (takesFeedback_of (s := s.takeAt now) valve (isNone_of_isValve valve) permitted other))

/-! ## Sticky faults (R90, R91, R94, R96, R97) -/

theorem exec_confirmTimerExpiry (now : Time) (valve : (s.role o).isValve = true)
    (expired : due now (s.valve o).confirmTimer = true) : exec (.confirmTimerExpiry now o) s = .next
      ((s.takeAt now).stickyFault o (s.valve o).failWater .waterFail (sat16 s.setup.valves.confirm)).settle :=
  congrArg answer (if_pos (Bool.and_eq_true_iff.mpr ⟨valve, expired⟩))

theorem exec_cutOff (now : Time) (valve : (s.role o).isValve = true)
    (overtime : (s.valve o).overtime now (s.setup.cutOffSeconds s.flood[s.valveSystem o]) = true) : exec (.cutOff now o) s = .next
      ((s.takeAt now).stickyFault o ((s.valve o).forceOff now s.setup.valves.confirm (s.feedback o)) .cutOff
        (sat16 ((s.valve o).openTime now / 1000))).settle :=
  congrArg answer (if_pos (Bool.and_eq_true_iff.mpr ⟨valve, overtime⟩))

theorem exec_valveStuck (now : Time) (valve : (s.role o).isValve = true) (expired : due now (s.valve o).stuckTimer = true) :
    exec (.valveStuck now o) s = .next ((s.takeAt now).stickyFault o (s.valve o).setStuck .valveStuck 0).settle :=
  congrArg answer (if_pos (Bool.and_eq_true_iff.mpr ⟨valve, expired⟩))

/-- R94: the watch of an open valve that has reached a cut-off. -/
theorem overtime_of {v : Valve} {since : Instant} {now : Time} {seconds : Nat} (on : v.state.on = true)
    (opened : v.openSince = some since) (reached : seconds * 1000 ≤ since.elapsed now) : v.overtime now seconds = true := by
  simp [Valve.overtime, Valve.openTime, on, opened, reached]

/-- R94, R96: the valve forced off. -/
theorem forceOff_eq (now : Time) (confirm : Nat) (feedback : Bool) (v : Valve) : v.forceOff now confirm feedback = { v with
    state := .cut
    confirmTimer := none
    openSince := none
    stuckTimer := if feedback = true ∧ v.stuck = false then some (after now confirm) else none
    cutOff := true
    counters := { v.counters with cutOff := bump v.counters.cutOff } } := by
  rw [← stuckStart_eq]
  rfl

/-- R94: a valve that is off stands through the consequences of an event. -/
theorem settledFrom_off {event : List Cause} (h : u.settledFrom t event) (off : u.valves[o].state.on = false) :
    t.valves[o] = u.valves[o] :=
  h.fan.flood.stands o fun ⟨_, _, _, overtime⟩ => by
    rw [Valve.overtime, off] at overtime
    cases overtime

/-- R82, R94: a VALVE output whose valve is off stays off after the consequences of an event. -/
theorem settle_drivenOutput_off (valve : (u.role o).isValve = true) (off : u.valves[o].state.on = false) :
    u.settle.drivenOutput o = false := by
  have stands := settledFrom_off (settle_settledFrom u) off
  unfold State.drivenOutput
  rw [(settle_follows u).role]
  cases role : u.role o with
  | valve => exact (congrArg (fun v : Valve => v.state.on) stands).trans off
  | _ => exact nomatch valve.symm.trans (congrArg OutputRole.isValve role)

end

/-- Settles O40: the model's cases of the flow switch are those of the statement. -/
theorem flowSwitchChanges : Obligations.FlowSwitchChanges := by
  intro now o active s valve permitted other inputs v timer
  rw [exec_flowSwitchChange now valve permitted other]
  refine ⟨fun waiting => ?_, fun operating => ?_⟩
  · rw [waiting]
    rfl
  · have taken : v.takeFlow now s.setup.valves.confirm active = (match v.state with
        | .opening | .flowingUnconfirmed => if active then v.confirmWater else v
        | .flowing => { v with confirmTimer := if active then none else timer }
        | .idle | .cut => { v with stuckTimer := if active = true ∧ v.stuck = false then timer else none }) := by
      unfold Valve.takeFlow
      cases v.state <;> simp only [stuckStart_eq, timer]
    rw [operating, if_pos rfl, taken]
    rfl

/-- Settles O41: each fault is the event's own effect, and its consequences are settled; the flood states turned by them leave a
valve that is off. -/
theorem valveFaultsSet : Obligations.ValveFaultsSet := by
  intro now o s valve v
  refine ⟨fun deadline timer expired => ?unconfirmed, fun since on opened reached => ?cut,
    fun deadline timer expired => ?stuck⟩
  case unconfirmed =>
    exact ⟨_, exec_confirmTimerExpiry now valve (due_reached timer expired), settle_settledFrom _⟩
  case cut =>
    have taken := exec_cutOff now valve (overtime_of on opened reached)
    have time : v.openTime now = since.elapsed now := by
      unfold Valve.openTime
      rw [opened]
    have closed := settle_drivenOutput_off (u := (s.takeAt now).stickyFault o
      (v.forceOff now s.setup.valves.confirm (s.feedback o)) .cutOff (sat16 (v.openTime now / 1000))) (o := o) valve
      (congrArg (fun w : Valve => w.state.on) (put_same s.valves o _))
    rw [time, forceOff_eq] at taken closed
    exact ⟨_, taken, settle_settledFrom _, closed⟩
  case stuck =>
    exact ⟨_, exec_valveStuck now valve (due_reached timer expired), settle_settledFrom _⟩

end Sys2Proof.Machine
end

section
/-! SUPPORT. The phase timers of the extraction controller, its feedbacks and their mismatches (R101, R102, R107, R108, R110,
R111, R114, R118; O44 and O45). -/

namespace Sys2Proof.Machine

section
variable {s t v : State} {o : Output}

/-! ## A change of phase settled (R107) -/

/-- An entry is filed after any state with the same record. -/
theorem filed_sameRecord {f : Filing} (record : v.record = s.record) (h : v.filed t f) : s.filed t f := by
  unfold State.filed at h ⊢
  rw [← record]
  exact h

/-- R107, R115: a phase entered other than STARTING and RUNNING stands through the consequences, with its timer and its record. -/
theorem phaseChanged_settle {p : FanPhase} (phase : v.extraction.phase = p) (starting : p ≠ .starting)
    (running : p ≠ .running) :
    v.phaseChanged.settle.extraction.phase = p ∧ v.phaseChanged.settle.extraction.timer = v.extraction.timer ∧
    v.phaseChanged.settle.extraction.first = v.extraction.first ∧
    v.filed v.phaseChanged.settle ⟨.fanPhase, octet p.code, phaseRecordValue v.extraction v.extraction.causes⟩ := by
  have made := phaseChanged_made v
  have entered : v.phaseChanged.extraction.phase = p := (phaseChanged_phase v).trans phase
  have rests : v.phaseChanged.settle.extraction.phase = p := settleWith_rest entered starting running []
  obtain ⟨first, timer, -⟩ := (settle_settledFrom v.phaseChanged).fan.still (rests.trans entered.symm)
  have filed := made.filed
  rw [phase] at filed
  exact ⟨rests, timer.trans (by rw [made.fields]), first.trans (by rw [made.fields]),
    filed_grows filed (settle_follows v.phaseChanged).toKeeps.grows⟩

/-- R111: what RUNDOWN is entered with, before what every change of phase brings. -/
def State.rundownBegun (s : State) : State :=
  { s with extraction := { s.extraction with
    phase := .rundown
    timer := some (after s.clock (s.setup.extraction.rundownLimit * 1000))
    stopCount := 0 } }

/-- R112: what STOPPED is entered with. -/
def State.stoppedBegun (s : State) : State :=
  { s with extraction := { s.extraction with phase := .stopped, timer := none } }

theorem enterRundown_eq (s : State) : s.enterRundown = s.rundownBegun.phaseChanged := rfl

theorem enterStopped_eq (s : State) : s.enterStopped = s.stoppedBegun.phaseChanged := rfl

theorem enterRundown_phaseEntered (s : State) : s.rundownBegun.phaseEntered s.enterRundown :=
  phaseChanged_phaseEntered s.rundownBegun

theorem enterStopped_phaseEntered (s : State) : s.stoppedBegun.phaseEntered s.enterStopped :=
  phaseChanged_phaseEntered s.stoppedBegun

/-- R107, R111: RUNDOWN entered and settled. -/
theorem enterRundown_settle (s : State) : s.enterRundown.settle.extraction.phase = .rundown ∧
    s.enterRundown.settle.extraction.timer = some (after s.clock (s.setup.extraction.rundownLimit * 1000)) ∧
    s.enterRundown.settle.extraction.first = s.extraction.first ∧
    s.filed s.enterRundown.settle ⟨.fanPhase, 4, phaseRecordValue s.extraction s.extraction.causes⟩ := by
  obtain ⟨phase, timer, first, filed⟩ := phaseChanged_settle (v := s.rundownBegun) rfl nofun nofun
  rw [enterRundown_eq]
  exact ⟨phase, timer, first, filed_sameRecord rfl filed⟩

/-- R107, R112: STOPPED entered and settled. -/
theorem enterStopped_settle (s : State) : s.enterStopped.settle.extraction.phase = .stopped ∧
    s.enterStopped.settle.extraction.timer = none ∧ s.enterStopped.settle.extraction.first = s.extraction.first ∧
    s.filed s.enterStopped.settle ⟨.fanPhase, 5, phaseRecordValue s.extraction s.extraction.causes⟩ := by
  obtain ⟨phase, timer, first, filed⟩ := phaseChanged_settle (v := s.stoppedBegun) rfl nofun nofun
  rw [enterStopped_eq]
  exact ⟨phase, timer, first, filed_sameRecord rfl filed⟩

/-! ## Feedbacks and mismatches (R101, R102) -/

theorem role_gateOutput (gate : s.gateOutput = some o) : s.role o = .abortGate :=
  eq_of_beq (List.find?_some (p := fun o => s.role o == .abortGate) gate)

theorem role_contactorOutput (contactor : s.contactorOutput = some o) : s.role o = .fanContactor :=
  eq_of_beq (List.find?_some (p := fun o => s.role o == .fanContactor) contactor)

theorem feedbackOf_setFeedback {p : Option Output} (active : Bool) (own : p = some o) :
    (s.setFeedback o active).feedbackOf p = active := by
  rw [own]
  exact congrArg (fun f : Feedback => f.input.state) (change_same s.inputs.feedback o _)

/-- R82, R101: a debounced change leaves the feedback of an output of another role. -/
theorem feedbackOf_setFeedback_other {p : Option Output} (active : Bool) (other : ∀ q ∈ p, s.role q ≠ s.role o) :
    (s.setFeedback o active).feedbackOf p = s.feedbackOf p := by
  cases p with
  | none => rfl
  | some q =>
    exact congrArg (fun f : Feedback => f.input.state)
      (change_other s.inputs.feedback o q _ fun same => other q rfl (by rw [same]))

/-- R102: a mismatch as the statement FanFeedbacksJudged has it judged. -/
def State.mismatch (s : State) (time : Nat) (output feedback : Bool) (m : Mismatch) : Mismatch :=
  if (s.operating && s.hasFan) = false then m
  else if output = feedback then ⟨none, false⟩
  else if m.stands = true ∨ m.timer.isSome = true then m
  else ⟨some (after s.clock time), false⟩

theorem mismatch_eq (s : State) (time : Nat) (output feedback : Bool) (m : Mismatch) : s.mismatch time output feedback m =
    if s.operating && s.hasFan then m.judge s.clock time output feedback else m := by
  unfold State.mismatch Mismatch.judge
  cases s.operating && s.hasFan <;> simp

/-- R102: both mismatches judged. -/
theorem judgeMismatches_eq (s : State) : s.judgeMismatches = { s with extraction := { s.extraction with
    contactor := s.mismatch 2000 s.extraction.phase.contactorOn (s.feedbackOf s.contactorOutput) s.extraction.contactor
    gate := s.mismatch s.setup.extraction.gateTime s.extraction.phase.gateOn (s.feedbackOf s.gateOutput)
      s.extraction.gate } } := by
  have sets : s.judgeMismatches = { s with extraction := s.judgeMismatches.extraction } := rfl
  rw [sets, judgeMismatches_sets, judgedPair_eq, mismatch_eq, mismatch_eq]
  cases s.operating && s.hasFan <;> rfl

/-- R101, R102: the gate feedback taken at now, with both mismatches judged. -/
def State.gateTaken (s : State) (now : Time) (o : Output) (active : Bool) : State :=
  { (s.takeAt now).setFeedback o active with
    extraction := { s.extraction with
      contactor := (s.takeAt now).mismatch 2000 s.extraction.phase.contactorOn (s.feedbackOf s.contactorOutput)
        s.extraction.contactor
      gate := (s.takeAt now).mismatch s.setup.extraction.gateTime s.extraction.phase.gateOn active s.extraction.gate } }

theorem gateFeedback_judged (now : Time) (active : Bool) (gate : s.gateOutput = some o) :
    ((s.takeAt now).setFeedback o active).judgeMismatches = s.gateTaken now o active := by
  have other (q : Output) (contactor : s.contactorOutput = some q) : s.role q ≠ s.role o := by
    rw [role_contactorOutput contactor, role_gateOutput gate]
    decide
  have own := feedbackOf_setFeedback (s := s.takeAt now)
    (p := ((s.takeAt now).setFeedback o active).gateOutput) active gate
  have beside := feedbackOf_setFeedback_other (s := s.takeAt now)
    (p := ((s.takeAt now).setFeedback o active).contactorOutput) active other
  rw [judgeMismatches_eq, own, beside]
  rfl

theorem exec_gateFeedbackChange (now : Time) {active : Bool} (gate : s.gateOutput = some o) (permitted : s.permitted = true)
    (other : s.feedback o = !active) : exec (.gateFeedbackChange now active) s =
      .next ((s.gateTaken now o active).endDiverting active).settle := by
  have role := role_gateOutput gate
  have takes : (s.takeAt now).takesFeedback OutputRole.isGate o active = true :=
    takesFeedback_of (s := s.takeAt now) (congrArg OutputRole.isGate role) (congrArg OutputRole.isNone role) permitted other
  have found : (s.takeAt now).gateOutput = some o := gate
  show execGateFeedbackChange now active s = _
  simp only [execGateFeedbackChange, found, takes, if_true, answer_eq, gateFeedback_judged now active gate]

/-- R110: the gate feedback ends DIVERTING by becoming active, and by nothing else. -/
theorem endDiverting_eq {active : Bool} (diverting : s.extraction.phase = .diverting) (ends : active = true) :
    s.endDiverting active = s.enterRundown :=
  if_pos (Bool.and_eq_true_iff.mpr ⟨beq_iff_eq.mpr diverting, ends⟩)

theorem endDiverting_other {active : Bool} (goes : s.extraction.phase ≠ .diverting ∨ active = false) :
    s.endDiverting active = s := by
  refine if_neg fun ends => ?_
  obtain ⟨phase, rises⟩ := Bool.and_eq_true_iff.mp ends
  rcases goes with moved | inactive
  · exact moved (beq_iff_eq.mp phase)
  · rw [inactive] at rises
    cases rises

/-- R101, R102: the running contact changed, and both mismatches judged with it. -/
theorem runningContact_judged (now : Time) (active : Bool) (contactor : s.contactorOutput = some o) :
    ((s.takeAt now).setFeedback o active).judgeMismatches = { (s.takeAt now).setFeedback o active with
      extraction := { s.extraction with
        contactor := (s.takeAt now).mismatch 2000 s.extraction.phase.contactorOn active s.extraction.contactor
        gate := (s.takeAt now).mismatch s.setup.extraction.gateTime s.extraction.phase.gateOn (s.feedbackOf s.gateOutput)
          s.extraction.gate } } := by
  have other (q : Output) (gate : s.gateOutput = some q) : s.role q ≠ s.role o := by
    rw [role_gateOutput gate, role_contactorOutput contactor]
    decide
  have own := feedbackOf_setFeedback (s := s.takeAt now)
    (p := ((s.takeAt now).setFeedback o active).contactorOutput) active contactor
  have beside := feedbackOf_setFeedback_other (s := s.takeAt now)
    (p := ((s.takeAt now).setFeedback o active).gateOutput) active other
  rw [judgeMismatches_eq, own, beside]
  rfl

theorem exec_runningContactChange (now : Time) {active : Bool} (contactor : s.contactorOutput = some o)
    (permitted : s.permitted = true) (other : s.feedback o = !active) : exec (.runningContactChange now active) s =
      .next ((s.takeAt now).setFeedback o active).judgeMismatches := by
  have role := role_contactorOutput contactor
  have takes : (s.takeAt now).takesFeedback OutputRole.isContactor o active = true :=
    takesFeedback_of (s := s.takeAt now) (congrArg OutputRole.isContactor role) (congrArg OutputRole.isNone role) permitted other
  have found : (s.takeAt now).contactorOutput = some o := contactor
  show execRunningContactChange now active s = _
  simp only [execRunningContactChange, found, takes, if_true, answer_eq]

end

/-- Settles O45: the feedback taken and judged is the event's own effect; the end of DIVERTING is a phase entered. -/
theorem fanFeedbacksJudged : Obligations.FanFeedbacksJudged := by
  intro now active s e inputs judged
  refine ⟨fun o permitted gate other => ⟨fun goes => ?goes, fun diverting ends => ?ends⟩,
    fun o permitted contactor other => ?contact, fun deadline timer expired => ?contactor, fun deadline timer expired => ?gate⟩
  case goes =>
    have taken := exec_gateFeedbackChange now gate permitted other
    rw [endDiverting_other (s := s.gateTaken now o active) goes] at taken
    exact ⟨_, taken, settle_settledFrom _⟩
  case ends =>
    subst ends
    have taken := exec_gateFeedbackChange now gate permitted other
    rw [endDiverting_eq (s := s.gateTaken now o true) diverting rfl] at taken
    obtain ⟨phase, time, first, filed⟩ := enterRundown_settle (s.gateTaken now o true)
    have entered := enterRundown_phaseEntered (s.gateTaken now o true)
    have begun : (s.gateTaken now o true).rundownBegun = { s with
        clock := now
        inputs := inputs o
        extraction := { e with
          phase := .rundown
          timer := some (after now (s.setup.extraction.rundownLimit * 1000))
          stopCount := 0
          contactor := judged 2000 true (s.feedbackOf s.contactorOutput) e.contactor
          gate := judged s.setup.extraction.gateTime true true e.gate } } := by
      unfold State.rundownBegun State.gateTaken
      rw [diverting]
      rfl
    rw [begun] at entered
    exact ⟨_, _, taken, settle_settledFrom _, entered, phase, time, first, filed_sameRecord rfl filed⟩
  case contact =>
    rw [exec_runningContactChange now contactor permitted other, runningContact_judged now active contactor]
    rfl
  case contactor => exact congrArg answer (if_pos (due_reached timer expired))
  case gate => exact congrArg answer (if_pos (due_reached timer expired))

/-! ## Phase timers (R108, R110, R111, R114, R118) -/

/-- R108, R118: START_FAIL marked at now. -/
def State.startFailed (s : State) (now : Time) : State :=
  { s with
    clock := now
    extraction := { s.extraction with startFail := true }
    flags := s.flags ||| Attention.fanFault.mask }

/-- R110, R118: GATE_FAIL marked at now. -/
def State.gateFailed (s : State) (now : Time) : State :=
  { s with
    clock := now
    extraction := { s.extraction with gateFail := true }
    flags := s.flags ||| Attention.fanFault.mask }

/-- R111, R118: RUNDOWN_SLOW marked at now. -/
def State.rundownSlowed (s : State) (now : Time) : State :=
  { s with
    clock := now
    extraction := { s.extraction with rundownSlow := true }
    flags := s.flags ||| Attention.fanFault.mask }

section
variable {s : State} {deadline : Time} (now : Time)

theorem phaseTimerDue_of {p : FanPhase} (phase : s.extraction.phase = p) (timer : s.extraction.timer = some deadline)
    (expired : reached now deadline = true) : (s.takeAt now).phaseTimerDue p = true :=
  Bool.and_eq_true_iff.mpr ⟨beq_iff_eq.mpr phase, due_reached timer expired⟩

theorem exec_startGraceExpiry (phase : s.extraction.phase = .starting) (timer : s.extraction.timer = some deadline)
    (expired : reached now deadline = true) : exec (.startGraceExpiry now) s =
      .next ((s.startFailed now).settleWith [.startFail]) :=
  congrArg answer (if_pos (phaseTimerDue_of now phase timer expired))

theorem exec_gateTimerExpiry (phase : s.extraction.phase = .diverting) (timer : s.extraction.timer = some deadline)
    (expired : reached now deadline = true) : exec (.gateTimerExpiry now) s = .next (s.gateFailed now).enterRundown.settle :=
  congrArg answer (if_pos (phaseTimerDue_of now phase timer expired))

theorem exec_rundownLimitExpiry (phase : s.extraction.phase = .rundown) (timer : s.extraction.timer = some deadline)
    (expired : reached now deadline = true) : exec (.rundownLimitExpiry now) s =
      .next (s.rundownSlowed now).enterStopped.settle :=
  congrArg answer (if_pos (phaseTimerDue_of now phase timer expired))

theorem startFailed_sources (s : State) : SameSources s (s.startFailed now) where
  start := rfl
  setup := rfl
  peers := rfl
  own := rfl
  sensing := rfl
  zones := rfl
  views := rfl
  valves := rfl
  call := rfl
  heat := rfl
  conditions := rfl

/-- R115: with the picture standing START_FAIL is the first cause of the stop. -/
theorem startFail_first (p : s.pictureStands) (phase : s.extraction.phase = .starting) :
    ((s.startFailed now).settleWith [.startFail]).extraction.first = some .startFail := by
  have sources := startFailed_sources now s
  obtain ⟨-, -, -, -, -, extraction⟩ := front_fields (s.startFailed now)
  rw [settleWith_extraction]
  exact judgeExtraction_first (front_flood sources p rfl rfl) (by rw [front_conditions sources p, extraction]; rfl)
    (by rw [extraction]; exact .inl phase)

end

/-- Settles O44: START_FAIL is a cause in STARTING; the other two timers end their phases, and the phase entered stands. -/
theorem phaseTimersExpire : Obligations.PhaseTimersExpire := by
  intro now deadline s timer expired e
  refine ⟨fun starting => ?grace, fun diverting => ?gate, fun rundown => ?limit⟩
  case grace =>
    have settled := settleWith_settledFrom (s.startFailed now) [.startFail]
    obtain ⟨_, -, -, -, -, -, moved, -⟩ := settled.fan.causes
    obtain ⟨cause, -⟩ := fanSettles_event settled.fan .startFail (List.mem_singleton_self _) (by
      show s.extraction.phase ≠ .standby
      rw [starting]; decide)
    exact ⟨_, exec_startGraceExpiry now starting timer expired, settled, cause,
      moved.trans (if_pos ⟨.inl starting, by simp⟩), fun p => startFail_first now p starting⟩
  case gate =>
    obtain ⟨phase, time, first, filed⟩ := enterRundown_settle (s.gateFailed now)
    exact ⟨_, _, exec_gateTimerExpiry now diverting timer expired, settle_settledFrom _,
      enterRundown_phaseEntered (s.gateFailed now), phase, time, first, filed_sameRecord rfl filed⟩
  case limit =>
    obtain ⟨phase, time, first, filed⟩ := enterStopped_settle (s.rundownSlowed now)
    exact ⟨_, _, exec_rundownLimitExpiry now rundown timer expired, settle_settledFrom _,
      enterStopped_phaseEntered (s.rundownSlowed now), phase, time, first, filed_sameRecord rfl filed⟩

end Sys2Proof.Machine
end

section
/-! SUPPORT. A sample completed: judged by the phase in which it completes, with the next window planned (R103, R104, R106, R108,
R111, R114; O43). -/

namespace Sys2Proof.Machine

/-! ## The next window (R104) -/

section
variable {now : Time} {m n : SamplerMode} {e f g : Extraction}

/-- R104: a mode governs alike from any two states of the sampler with the same window and most recent start. -/
theorem governs_same (window : f.window = e.window) (last : f.lastStart = e.lastStart) (h : f.governs now m g) :
    e.governs now m g where
  runsOn := by rw [← window, ← last]; exact h.runsOn
  off := by rw [← window, ← last]; exact h.off
  waits := by rw [← window, ← last]; exact h.waits
  starts := by rw [← window, ← last]; exact h.starts

/-- R104: a mode that governs the next window twice at one instant does as it does once. -/
theorem governs_again (h : e.governs now m f) (h' : f.governs now m g) : e.governs now m g where
  runsOn w running := by
    obtain ⟨window, last, -⟩ := h.runsOn w running
    rw [← last]
    exact h'.runsOn w window
  off idle mode := by
    obtain ⟨window, last, -⟩ := h.off idle mode
    rw [← last]
    exact h'.off window mode
  waits i idle mode last soon := by
    obtain ⟨window, last, -⟩ := h.waits i idle mode last soon
    exact h'.waits i window mode last soon
  starts idle goes := by
    obtain ⟨window, last, -⟩ := h.starts idle goes
    rw [← last]
    exact h'.runsOn _ window

/-- R104: a mode taken and then left to govern the next window does as that mode alone. -/
theorem takesMode_governs (h : e.takesMode now m f) (h' : f.governs now m g) : e.governs now m g := by
  by_cases same : m = e.mode
  · obtain ⟨window, last, -⟩ := h.same same
    exact governs_same window last h'
  · exact governs_again (h.new same) h'

/-- R104: with none in progress, a window that a mode starts is a new one. -/
theorem governs_window (h : e.governs now m f) (idle : e.window = none) : ∀ w, f.window = some w → w = ⟨now, 0⟩ := by
  intro w running
  by_cases goes : m = .continuous ∨ (m = .periodic ∧ ∀ i, e.lastStart = some i → 2000 ≤ i.elapsed now)
  · exact Option.some.inj (running.symm.trans (h.starts idle goes).1)
  · exfalso
    cases m with
    | off => exact nomatch running.symm.trans (h.off idle rfl).1
    | continuous => exact goes (.inl rfl)
    | periodic =>
      simp only [reduceCtorEq, true_and, false_or, not_forall, Nat.not_le] at goes
      obtain ⟨i, last, soon⟩ := goes
      exact nomatch running.symm.trans (h.waits i idle rfl last soon).1

/-- R104: CONTINUOUS, governing after another mode has at the same instant, leaves a new window in progress. -/
theorem takesMode_continuous (planned : e.governs now m f) (idle : e.window = none) (mode : f.mode = m)
    (taken : f.takesMode now .continuous g) : g.window = some ⟨now, 0⟩ := by
  by_cases same : SamplerMode.continuous = f.mode
  · rw [(taken.same same).1]
    exact (planned.starts idle (.inl (mode.symm.trans same.symm))).1
  · cases window : f.window with
    | none => exact ((taken.new same).starts window (.inl rfl)).1
    | some w =>
      rw [((taken.new same).runsOn w window).1, governs_window planned idle w window]

/-- R104: a mode taken that stands already changes nothing. -/
theorem takesMode_still (taken : f.takesMode now n g) (still : g.mode = f.mode) :
    g.window = f.window ∧ g.lastStart = f.lastStart ∧ g.nextStart = f.nextStart :=
  taken.same (taken.taken.symm.trans still)

/-- R104: the planning of the next window writes the window and its starts alone. -/
theorem nextWindow_sets (now : Time) (e : Extraction) : e.nextWindow now = { e with
    window := (e.nextWindow now).window
    lastStart := (e.nextWindow now).lastStart
    nextStart := (e.nextWindow now).nextStart } := by
  unfold Extraction.nextWindow Extraction.planPeriodic Extraction.startWindow
  split
  · rfl
  · split
    · rfl
    · rfl
    · split
      · rfl
      · split <;> rfl

end

/-! ## The sample judged (R103, R106, R108, R111) -/

/-- LOW_FLOW written as it stands. -/
theorem lowFlow_self {e : Extraction} {b : Bool} (low : e.lowFlow = b) : { e with lowFlow := b } = e := by
  subst low; rfl

/-- R106: what a sample judged makes of LOW_FLOW and the low count. -/
theorem judgeLowFlow_eq (p : ExtractionParameters) (e : Extraction) : e.judgeLowFlow p = { e with
    lowFlow :=
      if e.lowFlow then decide (e.velocity < p.floor + p.hysteresis) else decide (e.velocity < p.floor ∧ 3 ≤ e.lowCount)
    lowCount :=
      if e.lowFlow = true then e.lowCount
      else if e.velocity < p.floor then (if 3 ≤ e.lowCount then 0 else e.lowCount + 1) else 0 } := by
  have fourth : Config.successive ≤ e.lowCount + 1 ↔ 3 ≤ e.lowCount := Nat.add_le_add_iff_right (n := 1)
  unfold Extraction.judgeLowFlow
  simp only [fourth]
  cases low : e.lowFlow with
  | true =>
    by_cases risen : p.floor + p.hysteresis ≤ e.velocity
    · simp [risen, Nat.not_lt.mpr risen]
    · simp [risen, Nat.not_le.mp risen, lowFlow_self low]
  | false =>
    by_cases under : e.velocity < p.floor
    · by_cases enough : 3 ≤ e.lowCount
      · simp [under, enough]
      · simp [under, enough]
    · simp [under]

section
variable {s : State}

theorem judgeSample_starting (phase : s.extraction.phase = .starting) : s.judgeSample = s.judgeGood := by
  unfold State.judgeSample
  rw [phase]

theorem judgeSample_rundown (phase : s.extraction.phase = .rundown) : s.judgeSample = s.judgeFlow.judgeStop := by
  unfold State.judgeSample
  rw [phase]

theorem judgeSample_other (starting : s.extraction.phase ≠ .starting) (rundown : s.extraction.phase ≠ .rundown) :
    s.judgeSample = s.judgeFlow := by
  unfold State.judgeSample
  split
  · exact absurd ‹_› starting
  · exact absurd ‹_› rundown
  all_goals rfl

end

section
variable (s : State) (now : Time) (w : SampleWindow)

/-- R103: the velocity of the sample. -/
def State.sampled : Nat := min 1000 (w.pulses * 4 * s.setup.extraction.scale / 16)

/-- R108: the count of successive good samples after it. -/
def State.goodAfter : Nat := if s.setup.extraction.floor ≤ s.sampled w then s.extraction.goodCount + 1 else 0

/-- R111: the count of successive slow samples after it. -/
def State.slowAfter : Nat := if s.sampled w < s.setup.extraction.stop then s.extraction.stopCount + 1 else 0

/-- R106: LOW_FLOW after the sample, when it is judged for it. -/
def State.lowAfter : Bool :=
  if s.extraction.lowFlow then decide (s.sampled w < s.setup.extraction.floor + s.setup.extraction.hysteresis)
  else decide (s.sampled w < s.setup.extraction.floor ∧ 3 ≤ s.extraction.lowCount)

/-- R108, R111: the sample ends STARTING or RUNDOWN. -/
abbrev State.sampleMoves : Prop :=
  (s.extraction.phase = .starting ∧ 4 ≤ s.goodAfter w) ∨ (s.extraction.phase = .rundown ∧ 4 ≤ s.slowAfter w)

/-- R103, R106, R108, R111: the sample judged, before what a change of phase brings. -/
def State.sampleJudged : State :=
  { s with
    clock := now
    extraction := { s.extraction with
      velocity := s.sampled w
      lastSample := some ⟨now, none⟩
      window := none
      lowFlow := if s.extraction.phase = .starting then s.extraction.lowFlow else s.lowAfter w
      lowCount :=
        if s.extraction.phase = .starting ∨ s.extraction.lowFlow = true then s.extraction.lowCount
        else if s.sampled w < s.setup.extraction.floor then
          (if 3 ≤ s.extraction.lowCount then 0 else s.extraction.lowCount + 1)
        else 0
      goodCount := if s.extraction.phase = .starting then s.goodAfter w else s.extraction.goodCount
      stopCount := if s.extraction.phase = .rundown then s.slowAfter w else s.extraction.stopCount
      phase :=
        if s.extraction.phase = .starting ∧ 4 ≤ s.goodAfter w then .running
        else if s.extraction.phase = .rundown ∧ 4 ≤ s.slowAfter w then .stopped else s.extraction.phase
      timer := if s.sampleMoves w then none else s.extraction.timer } }

/-- R108, R111: a sample that moves the fan is judged as the statement has it, and enters the phase. -/
theorem judgeSample_moves_eq (h : s.sampleMoves w) :
    ((s.takeAt now).takeSample w).judgeSample = (s.sampleJudged now w).phaseChanged := by
  have moves := eq_true h
  rcases h with ⟨starting, good⟩ | ⟨rundown, slow⟩
  · rw [judgeSample_starting (s := (s.takeAt now).takeSample w) starting]
    have rundown : ¬s.extraction.phase = .rundown := by rw [starting]; exact nofun
    refine (if_pos good).trans (congrArg State.phaseChanged ?_)
    simp only [State.sampleJudged, moves, eq_true starting, rundown, good, and_self, true_or, if_true, if_false]
    rfl
  · rw [judgeSample_rundown (s := (s.takeAt now).takeSample w) rundown]
    have starting : ¬s.extraction.phase = .starting := by rw [rundown]; exact nofun
    unfold State.judgeFlow
    rw [judgeLowFlow_eq]
    refine (if_pos slow).trans (congrArg State.phaseChanged ?_)
    simp only [State.sampleJudged, moves, starting, eq_true rundown, slow, and_self, false_and, false_or, if_false, if_true]
    rfl

/-- R103, R106, R108, R111: a sample that leaves the phase is judged as the statement has it. -/
theorem judgeSample_stays (h : ¬s.sampleMoves w) : ((s.takeAt now).takeSample w).judgeSample = s.sampleJudged now w := by
  obtain ⟨bad, fast⟩ := not_or.mp h
  by_cases starting : s.extraction.phase = .starting
  · rw [judgeSample_starting (s := (s.takeAt now).takeSample w) starting]
    have rundown : ¬s.extraction.phase = .rundown := by rw [starting]; exact nofun
    have good : ¬4 ≤ s.goodAfter w := fun good => bad ⟨starting, good⟩
    refine (if_neg good).trans ?_
    simp only [State.sampleJudged, h, eq_true starting, rundown, good, and_false, false_and, true_or, if_true, if_false]
    rfl
  by_cases rundown : s.extraction.phase = .rundown
  · rw [judgeSample_rundown (s := (s.takeAt now).takeSample w) rundown]
    have slow : ¬4 ≤ s.slowAfter w := fun slow => fast ⟨rundown, slow⟩
    unfold State.judgeFlow
    rw [judgeLowFlow_eq]
    refine (if_neg slow).trans ?_
    simp only [State.sampleJudged, h, starting, eq_true rundown, slow, and_false, false_and, false_or, if_true, if_false]
    rfl
  · rw [judgeSample_other (s := (s.takeAt now).takeSample w) starting rundown]
    unfold State.judgeFlow
    rw [judgeLowFlow_eq]
    simp only [State.sampleJudged, h, starting, rundown, false_and, false_or, if_false]
    rfl

/-- R106, R114: LOW_FLOW set while RUNNING is the cause FLOW_LOST. -/
theorem sampleCauses_eq : ((s.takeAt now).takeSample w).sampleCauses =
    if decide (s.extraction.phase = .running ∧ s.extraction.lowFlow = false ∧ s.lowAfter w = true) then [.flowLost]
    else [] := by
  have low : ((s.takeAt now).takeSample w).judgeFlow.extraction.lowFlow = s.lowAfter w :=
    congrArg Extraction.lowFlow (judgeLowFlow_eq ..)
  unfold State.sampleCauses
  rw [low]
  refine ite_congr (propext ?_) (fun _ => rfl) fun _ => rfl
  rw [decide_eq_true_iff, Bool.and_eq_true, Bool.and_eq_true, beq_iff_eq, Bool.not_eq_true', and_assoc]
  rfl

theorem exec_sampleComplete (running : s.extraction.window = some w)
    (completed : reached now (after w.start 250) = true) : exec (.sampleComplete now) s =
      .next (((s.takeAt now).takeSample w).judgeSample.planWindow.settleWith ((s.takeAt now).takeSample w).sampleCauses) := by
  have window : (s.takeAt now).extraction.window = some w := running
  show execSampleComplete now s = _
  unfold execSampleComplete
  simp only [window]
  exact congrArg answer (if_pos completed)

/-- R107: a sample that moves the fan brings what a change of phase brings. -/
theorem judgeSample_entered (h : s.sampleMoves w) :
    (s.sampleJudged now w).phaseEntered ((s.takeAt now).takeSample w).judgeSample := by
  rw [judgeSample_moves_eq s now w h]
  exact phaseChanged_phaseEntered _

/-- R107: and files the phase entered. -/
theorem judgeSample_filed (h : s.sampleMoves w) : s.filed ((s.takeAt now).takeSample w).judgeSample
    ⟨.fanPhase, octet (s.sampleJudged now w).extraction.phase.code, phaseRecordValue s.extraction s.extraction.causes⟩ := by
  rw [judgeSample_moves_eq s now w h]
  exact filed_sameRecord rfl (phaseChanged_made (s.sampleJudged now w)).filed

theorem judgeSample_clock : ((s.takeAt now).takeSample w).judgeSample.clock = now := by
  by_cases h : s.sampleMoves w
  · rw [judgeSample_moves_eq s now w h]
    exact (phaseChanged_consumes _).clock
  · rw [judgeSample_stays s now w h]
    rfl

/-- R103: a sample leaves RUNNING to its causes. -/
theorem judgeSample_running (running : s.extraction.phase = .running) :
    ((s.takeAt now).takeSample w).judgeSample.extraction.phase = .running := by
  have stays : ¬s.sampleMoves w := by
    rintro (⟨other, -⟩ | ⟨other, -⟩) <;> exact nomatch other.symm.trans running
  rw [judgeSample_stays s now w stays]
  simp [State.sampleJudged, running]

theorem planWindow_governs {v : State} (clock : v.clock = now) :
    v.extraction.governs now v.extraction.mode v.planWindow.extraction := by
  rw [← clock]
  exact nextWindow_governs v.clock v.extraction

/-- R104: the mode that holds after the sample plans the next window, whatever mode held before. -/
theorem sampleJudged_governs : (s.sampleJudged now w).extraction.governs now
    ((s.takeAt now).takeSample w).judgeSample.extraction.mode
    ((s.takeAt now).takeSample w).judgeSample.planWindow.extraction := by
  have next := planWindow_governs now (judgeSample_clock s now w)
  have entered := judgeSample_entered s now w
  have stays := judgeSample_stays s now w
  generalize ((s.takeAt now).takeSample w).judgeSample = moved at next entered stays ⊢
  by_cases h : s.sampleMoves w
  · have taken : (s.sampleJudged now w).extraction.takesMode now (s.sampleJudged now w).samplerMode moved.extraction :=
      (entered h).sampler
    rw [← taken.taken] at taken
    exact takesMode_governs taken next
  · exact governs_same (congrArg (fun v : State => v.extraction.window) (stays h))
      (congrArg (fun v : State => v.extraction.lastStart) (stays h)) next

theorem planWindow_sets (v : State) : v.planWindow = { v with extraction := { v.extraction with
    window := v.planWindow.extraction.window
    lastStart := v.planWindow.extraction.lastStart
    nextStart := v.planWindow.extraction.nextStart } } :=
  congrArg (fun e => { v with extraction := e }) (nextWindow_sets v.clock v.extraction)

end

/-- Settles O43: the sample judged is the event's own effect, with a phase entered when it moves the fan; the mode that then holds
plans the next window, and what follows judges the mode again. -/
theorem sampleCompletes : Obligations.SampleCompletes := by
  intro now w s running completed e p v low good slow moves lost judged
  have taken : exec (.sampleComplete now) s = .next (((s.takeAt now).takeSample w).judgeSample.planWindow.settleWith
      (if lost then [.flowLost] else [])) :=
    (exec_sampleComplete s now w running completed).trans (by rw [sampleCauses_eq]; rfl)
  have entered := judgeSample_entered s now w
  have filed := judgeSample_filed s now w
  have stays := judgeSample_stays s now w
  have runs := judgeSample_running s now w
  have clock := judgeSample_clock s now w
  have governed := planWindow_governs now clock
  have planned := sampleJudged_governs s now w
  generalize ((s.takeAt now).takeSample w).judgeSample = moved at taken entered filed stays runs clock governed planned
  have frame := planWindow_sets moved
  have phase : moved.planWindow.extraction.phase = moved.extraction.phase := planWindow_phase moved
  have mode : moved.planWindow.extraction.mode = moved.extraction.mode := nextWindow_mode ..
  have grows : Grows moved moved.planWindow := ⟨rfl, [], rfl⟩
  have clock : moved.planWindow.clock = now := clock
  generalize moved.planWindow = u at taken governed planned frame phase mode grows clock
  have grows := grows.trans (settleWith_follows u (if lost then [.flowLost] else [])).toKeeps.grows
  have settled := settleWith_settledFrom u (if lost then [.flowLost] else [])
  generalize u.settleWith (if lost then [.flowLost] else []) = t at taken grows settled
  have sampler := settled.fan.sampler
  rw [clock] at sampler
  have idle : (s.sampleJudged now w).extraction.window = none := rfl
  refine ⟨t, u, moved, taken, settled, entered, stays, frame, governed, fun moves => filed_grows (filed moves) grows,
    fun loses => ?lost, sampler.taken, fun continuous => ?continuous, fun before after => ?off,
    fun i before after last => ?periodic⟩
  case lost =>
    obtain ⟨running, -⟩ := of_decide_eq_true loses
    have phase : u.extraction.phase = .running := phase.trans (runs running)
    obtain ⟨cause, stops⟩ := fanSettles_event settled.fan .flowLost (by rw [if_pos loses]; exact List.mem_singleton_self _)
      (by rw [phase]; exact nofun)
    exact ⟨cause, stops (.inr phase)⟩
  case continuous =>
    have taken := sampler
    rw [← sampler.taken, continuous] at taken
    exact takesMode_continuous planned idle mode taken
  case off =>
    obtain ⟨window, last, next⟩ := takesMode_still sampler (after.trans (mode.trans before).symm)
    obtain ⟨none, start, nothing⟩ := planned.off idle before
    exact ⟨window.trans none, next.trans nothing, last.trans start⟩
  case periodic =>
    obtain ⟨window, start, next⟩ := takesMode_still sampler (after.trans (mode.trans before).symm)
    rw [window, start, next]
    split
    · exact planned.starts idle (.inr ⟨before, fun j other => by rwa [← Option.some.inj (last.symm.trans other)]⟩)
    · exact planned.waits i idle before last (Nat.not_le.mp ‹_›)

end Sys2Proof.Machine
end

section
/-! SUPPORT. The sample age where it is read, and the flow sampler's pulses and PERIODIC starts (R16, R103, R104, R105, R158; O14
and O42). -/

namespace Sys2Proof.Machine

/-! ## The sample age (R105) -/

section
variable {s : State}

theorem sampleAge_sampled {i : Instant} (last : s.extraction.lastSample = some i) :
    s.sampleAge = min 65535 (i.elapsed s.clock) := by
  rw [State.sampleAge, last]

theorem sampleAge_unsampled (last : s.extraction.lastSample = none) : s.sampleAge = 65535 := by
  rw [State.sampleAge, last]

/-- R16: an attempt with a STATE of a station with the FAN role writes the sample age of its instant. -/
theorem stampState_sampleAge (fan : s.hasFan = true) (c : StateContent) : (s.stampState c).sampleAge = s.sampleAge :=
  if_pos fan

/-- R16: the notice that the STATE slot gives is its content with the transmission-start fields written. -/
theorem noticeFrom_state {x : Slots} {c : StateContent} (filled : x.state = some c) :
    s.noticeFrom x .state = some (.state (s.stampState c)) := by
  rw [State.noticeFrom, filled]
  rfl

theorem timerField_length (now : Time) (timer : Option Time) : (timerField now timer).length = 4 := by
  cases timer <;> rfl

/-- R158: the sample age stands in the FAN record after the phase, the causes, the timer, the mode, the window and the velocity. -/
theorem fanRecord_age (fan : s.hasFan = true) : (s.fanRecord.drop 12).take 2 = be16 s.sampleAge := by
  have timer := timerField_length s.clock s.extraction.timer
  rw [State.fanRecord, if_pos fan, Extraction.fields]
  generalize timerField s.clock s.extraction.timer = field at timer ⊢
  match field, timer with
  | [_, _, _, _], _ => rfl

/-- R158: the response to FAN is the record of the instant of its snapshot. -/
theorem exec_fan (now : Time) (argument : Byte) :
    exec (.fan now argument) s = .next ((s.takeAt now).transact requestFan argument) := rfl

theorem transact_fan (argument : Byte) : (s.transact requestFan argument).port.response = s.fanRecord := rfl

end

/-- Settles O14: the age is a function of the last sample and the clock, which the own view, an attempt with a STATE and the FAN
record read; the reported fields name neither. -/
theorem sampleAge : Obligations.SampleAge := by
  intro s
  refine ⟨fun i last => sampleAge_sampled last, sampleAge_unsampled, rfl, ?attempt, ?record, fun now i => rfl⟩
  case attempt =>
    intro now l c fan permitted idle free due filled
    have begins := execAttemptStart_begins permitted idle free due (noticeFrom_state (s := s.takeAt now) filled)
    exact ⟨_, _, _, begins, congrArg LineInterface.place (State.line_withLine ..), rfl,
      stampState_sampleAge (s := s.takeAt now) fan c⟩
  case record =>
    intro now argument fan
    refine ⟨_, exec_fan now argument, ?_⟩
    rw [transact_fan]
    exact fanRecord_age fan

/-! ## The flow sampler (R103, R104) -/

section
variable {s : State}

theorem exec_flowPulse (now : Time) : exec (.flowPulse now) s = .next { s with
    clock := now
    extraction := { s.extraction with window := s.extraction.window.map (SampleWindow.count now) } } := rfl

/-- R104: at the due instant in PERIODIC mode a sample window starts. -/
theorem exec_periodicWindowStart {now : Time} (mode : s.extraction.mode = .periodic)
    (expired : due now s.extraction.nextStart = true) :
    exec (.periodicWindowStart now) s = .next { s with clock := now, extraction := s.extraction.startWindow now } := by
  have starts : ((s.takeAt now).extraction.mode == .periodic && due now (s.takeAt now).extraction.nextStart) = true := by
    rw [State.takeAt_extraction, mode, expired]
    rfl
  exact congrArg Host.Outcome.next (if_pos starts)

/-- R103: without a window in progress there is none to count in. -/
theorem pulse_unwindowed {e : Extraction} (now : Time) (idle : e.window = none) :
    { e with window := e.window.map (SampleWindow.count now) } = e := by
  obtain ⟨⟩ := e
  subst idle
  rfl

end

/-- Settles O42: a pulse is the window's own matter, and with none in progress the extraction controller stands as it was; a due
start in PERIODIC mode is a window started. -/
theorem samplerWindows : Obligations.SamplerWindows := by
  refine ⟨fun now s idle => ?idle, fun now w s running => ?running, fun now deadline s mode next past => ?starts⟩
  case idle => rw [exec_flowPulse, pulse_unwindowed now idle]
  case running =>
    rw [exec_flowPulse, running]
    rfl
  case starts => exact exec_periodicWindowStart mode (due_reached next past)

end Sys2Proof.Machine
end

section
/-! SUPPORT. What a consideration of the closing queue comes to (R129, R131), case by case, and what it leaves alone. -/

namespace Sys2Proof.Machine

/-- R129, R131: no run starts: every barrier stands but for its wait. -/
structure State.waitsOn (b : Barriers) (t : State) : Prop where
  running : t.barriers.running = b.running
  queue : t.barriers.queue = b.queue
  stands : ∀ p : Output, t.barrier p = { b.units[p] with wait := (t.barrier p).wait }
  why : t.operating = false ∨ b.running ≠ none ∨ t.supply.low = true ∨ ∀ p ∈ b.queue, t.mayRun p = false

/-- R129: the run of an entry of the queue starts. -/
structure State.runsNow (b : Barriers) (t : State) (o : Output) : Prop where
  member : o ∈ b.queue
  idle : b.running = none
  operating : t.operating = true
  low : t.supply.low = false
  running : t.barriers.running = some o
  queue : t.barriers.queue = b.queue.filter fun p => p ≠ o
  state : (t.barrier o).state = .closing
  stands : ∀ p : Output, p ≠ o → t.barrier p = { b.units[p] with wait := (t.barrier p).wait }

section
variable {t : State} {b : Barriers} {o p : Output}

/-- R129: the first entry that may run, when there is one. -/
theorem firstMayRun (h : ¬∀ p ∈ b.queue, t.mayRun p = false) : ∃ before behind o, b.queue = before ++ o :: behind ∧
    (∀ p ∈ before, t.mayRun p = false) ∧ t.mayRun o = true := by
  cases first : b.queue.find? t.mayRun with
  | none => exact absurd (fun p m => Bool.eq_false_iff.mpr (List.find?_eq_none.mp first p m)) h
  | some o =>
    obtain ⟨may, before, behind, queue, none_⟩ := List.find?_eq_some_iff_append.mp first
    exact ⟨before, behind, o, queue, fun p m => by simpa using none_ p m, may⟩

/-- R129: a consideration of the queue starts one run or none. -/
theorem State.considers.cases (h : t.considers b) : t.waitsOn b ∨ ∃ o, t.runsNow b o := by
  by_cases why : t.operating = false ∨ b.running ≠ none ∨ t.supply.low = true ∨ ∀ p ∈ b.queue, t.mayRun p = false
  · obtain ⟨running, queue, stands⟩ := h.rest why
    exact .inl ⟨running, queue, stands, why⟩
  · simp only [not_or, Bool.not_eq_false, Bool.not_eq_true, ne_eq, not_not] at why
    obtain ⟨operating, idle, low, may⟩ := why
    obtain ⟨before, behind, o, place, none_, yes⟩ := firstMayRun may
    obtain ⟨running, queue, at_, stands⟩ := h.run before behind o operating idle low place none_ yes
    exact .inr ⟨o, by rw [place]; simp, idle, operating, low, running, queue, by rw [at_], stands⟩

/-- R131: a wait that does not start stands. -/
theorem State.considers.wait_stands (h : t.considers b) (busy : p ∉ b.queue ∨ b.units[p].wait ≠ .idle) :
    (t.barrier p).wait = b.units[p].wait := by
  refine h.waits p ?_
  rintro ⟨before, behind, queue, -, idle, -⟩
  rcases busy with absent | busy
  · exact absent (by rw [queue]; simp)
  · exact busy idle

/-- R129, R131: outside the queue a barrier stands. -/
theorem State.considers.outside (h : t.considers b) (absent : p ∉ b.queue) : t.barrier p = b.units[p] := by
  have wait := h.wait_stands (.inl absent)
  have stands : t.barrier p = { b.units[p] with wait := (t.barrier p).wait } := by
    rcases h.cases with none_ | ⟨o, run⟩
    · exact none_.stands p
    · exact run.stands p fun e => absent (e ▸ run.member)
  rw [stands, wait]

/-- R129: a motor that runs goes on. -/
theorem State.considers.goes_on (h : t.considers b) (running : b.running = some p) : t.barriers.running = some p := by
  rcases h.cases with none_ | ⟨o, run⟩
  · exact none_.running.trans running
  · rw [run.idle] at running
    cases running

/-- R129: the motor that runs ran before or comes from the queue. -/
theorem State.considers.runs_from (h : t.considers b) (running : t.barriers.running = some p) :
    b.running = some p ∨ p ∈ b.queue := by
  rcases h.cases with none_ | ⟨o, run⟩
  · exact .inl (none_.running.symm.trans running)
  · obtain rfl := Option.some.inj (run.running.symm.trans running)
    exact .inr run.member

/-- R129: no entry joins. -/
theorem State.considers.queue_subset (h : t.considers b) (m : p ∈ t.barriers.queue) : p ∈ b.queue := by
  rcases h.cases with none_ | ⟨o, run⟩
  · rw [none_.queue] at m
    exact m
  · rw [run.queue] at m
    exact List.mem_of_mem_filter m

/-- R129: an entry waits on as QUEUED, or its motor runs. -/
theorem State.considers.entry (h : t.considers b) (m : p ∈ b.queue) (queued : b.units[p].state = .queued) :
    (t.barrier p).state = .queued ∧ p ∈ t.barriers.queue ∨
      (t.barrier p).state = .closing ∧ t.barriers.running = some p := by
  rcases h.cases with none_ | ⟨o, run⟩
  · exact .inl ⟨by rw [none_.stands p]; exact queued, by rw [none_.queue]; exact m⟩
  · by_cases e : p = o
    · subst e
      exact .inr ⟨run.state, run.running⟩
    · exact .inl ⟨by rw [run.stands p e]; exact queued, by rw [run.queue]; simp [m, e]⟩

/-- R129: a barrier that is HELD was so before. -/
theorem State.considers.held (h : t.considers b) (held : (t.barrier p).state = .held) : b.units[p].state = .held := by
  rcases h.cases with none_ | ⟨o, run⟩
  · rw [none_.stands p] at held
    exact held
  · by_cases e : p = o
    · subst e
      rw [run.state] at held
      cases held
    · rw [run.stands p e] at held
      exact held

/-- R129: with nothing running and LOW clear no entry may run. -/
theorem State.considers.turn (h : t.considers b) (operating : t.operating = true) (idle : t.barriers.running = none)
    (low : t.supply.low = false) : ∀ p ∈ t.barriers.queue, t.mayRun p = false := by
  rcases h.cases with none_ | ⟨o, run⟩
  · rw [none_.queue]
    rcases none_.why with h | h | h | h
    · rw [operating] at h; cases h
    · exact absurd (none_.running.symm.trans idle) h
    · rw [low] at h; cases h
    · exact h
  · rw [run.running] at idle
    cases idle

end

/-- R129, R131: a consideration of the queue, and that the barriers alone change. -/
theorem considerQueue_considered (s : State) : s.considerQueue.considers s.barriers ∧
    s.considerQueue = { s with barriers := s.considerQueue.barriers } :=
  ⟨considerQueue_considers s, considerQueue_frame s⟩

end Sys2Proof.Machine
end

section
/-! SUPPORT. The motor barriers in turn (R123, R128, R129) and the release conditions followed (R124): what they read of the
station, and the barrier controller's own operations. -/

namespace Sys2Proof.Machine

/-- What a change leaves of the motor barriers in turn, and of the release conditions followed. -/
structure KeepsTurn (s t : State) : Prop where
  motors : s.motorsInTurn → t.motorsInTurn
  follow : s.barriersFollow → t.barriersFollow

section
variable {s t u : State}

theorem KeepsTurn.refl (s : State) : KeepsTurn s s := ⟨id, id⟩

theorem KeepsTurn.trans (h : KeepsTurn s t) (h' : KeepsTurn t u) : KeepsTurn s u :=
  ⟨h'.motors ∘ h.motors, h'.follow ∘ h.follow⟩

/-! ## Changes that leave what they read -/

/-- R123, R128, R129: what the motors in turn read of the station. -/
theorem motorsInTurn_same (h : s.motorsInTurn) (operating : t.operating = s.operating) (setup : t.setup = s.setup)
    (low : t.supply.low = s.supply.low) (queue : t.barriers.queue = s.barriers.queue)
    (running : t.barriers.running = s.barriers.running) (state : ∀ p, (t.barrier p).state = (s.barrier p).state)
    (kept : ∀ p, (t.barrier p).kept = (s.barrier p).kept) (run : ∀ p, (t.barrier p).run = (s.barrier p).run) :
    t.motorsInTurn := by
  have role (p : Output) : t.role p = s.role p := by rw [State.role, setup]; rfl
  refine
    { closing := fun p m => ?_, motor := fun p e => ?_, supply := fun e => ?_, queued := fun p => ?_, once := ?_
      unarmed := fun e => ?_, order := ?_, run := fun p e => ?_ }
  · rw [state, running]
    exact h.closing p (role p ▸ m)
  · rw [role]
    exact h.motor p (running ▸ e)
  · rw [running]
    exact h.supply (low ▸ e)
  · rw [queue, role, state]
    exact h.queued p
  · rw [queue]
    exact h.once
  · obtain ⟨unarmed, empty, idle⟩ := h.unarmed (operating ▸ e)
    exact ⟨fun p => (state p).trans (unarmed p), queue.trans empty, running.trans idle⟩
  · have order : s.queueInOrder t.barriers := order_congr h.order (by rw [queue]) fun p _ => kept p
    unfold State.queueInOrder at order ⊢
    simpa only [role] using order
  · rw [run]
    exact h.run p (running ▸ e)

/-- A change of the parts that neither reads. -/
theorem keepsTurn_beside (same : t = { s with
      clock := t.clock, agings := t.agings, start := { t.start with phase := s.start.phase }
      lineA := t.lineA, lineB := t.lineB, assembler := t.assembler, peers := t.peers, views := t.views, flood := t.flood
      inputs := t.inputs, press := t.press, own := t.own, sensing := t.sensing, valves := t.valves
      extraction := t.extraction, sirens := t.sirens, supply := { t.supply with low := s.supply.low }
      record := t.record, flags := t.flags, port := t.port, pending := t.pending }) : KeepsTurn s t where
  motors h := by
    rw [same]
    exact motorsInTurn_same h rfl rfl rfl rfl rfl (fun _ => rfl) (fun _ => rfl) fun _ => rfl
  follow h := by
    rw [same]
    exact barriersFollow_same h rfl rfl rfl rfl

/-- R124: consequences that neither release nor hold a barrier. -/
theorem keepsTurn_consumes (c : Consumes s t) (held : ∀ p : Output, (t.barrier p).state = .held → (s.barrier p).state = .held) :
    KeepsTurn s t where
  motors := c.motors
  follow h operating p barrier state := by
    rw [c.releaseHolds]
    exact h (c.operating ▸ operating) p (c.role p ▸ barrier) (held p state)

theorem keepsTurn_considerQueue (s : State) : KeepsTurn s s.considerQueue :=
  keepsTurn_consumes (considerQueue_consumes s) fun _ => (considerQueue_considers s).held

/-- R129: the queue considered, and the fill. -/
theorem keepsTurn_considered (s : State) : KeepsTurn s s.considerQueue.fillOnChange :=
  (keepsTurn_considerQueue s).trans (keepsTurn_beside rfl)

/-- R124, R129: the consequences of an event release every barrier whose release condition holds. -/
theorem keepsTurn_settled (motors : s.motorsInTurn → u.motorsInTurn) (event : List Cause) :
    KeepsTurn s (u.settleWith event) where
  motors := (settleWith_follows u event).motors ∘ motors
  follow _ := (settleWith_settledFrom u event).barriers.released

/-! ## No motor runs and none waits -/

/-- R123: with no motor running and none waiting, the motors are in turn. -/
theorem motorsInTurn_still (queue : t.barriers.queue = []) (running : t.barriers.running = none)
    (state : ∀ p, (t.barrier p).state ≠ .closing ∧ (t.barrier p).state ≠ .queued)
    (unarmed : t.operating = false → ∀ p, (t.barrier p).state = .unarmed) : t.motorsInTurn where
  closing p _ := by
    rw [running]
    exact ⟨fun e => absurd e (state p).1, fun e => nomatch e⟩
  motor _ e := nomatch running.symm.trans e
  supply _ := running
  queued p := by
    rw [queue]
    exact ⟨fun m => (nomatch m), fun e => absurd e.2 (state p).2⟩
  once := by rw [queue]; exact List.nodup_nil
  unarmed e := ⟨unarmed e, queue, running⟩
  order := by
    unfold State.queueInOrder
    rw [queue]
    exact List.Pairwise.nil
  run _ e := nomatch running.symm.trans e

/-- R123: before OPERATING every barrier is UNARMED, whatever else changes. -/
theorem keepsTurn_waits (before : s.operating = false) (after : t.operating = false) (barriers : t.barriers = s.barriers) :
    KeepsTurn s t where
  motors h := by
    obtain ⟨unarmed, queue, running⟩ := h.unarmed before
    have still (p : Output) : (t.barrier p).state = .unarmed := by
      rw [State.barrier, barriers]
      exact unarmed p
    refine motorsInTurn_still (by rw [barriers]; exact queue) (by rw [barriers]; exact running) (fun p => ?_)
      fun _ => still
    rw [still p]
    exact ⟨(nomatch ·), (nomatch ·)⟩
  follow _ operating := nomatch after.symm.trans operating

/-- R124: at the entry to OPERATING every barrier output becomes HELD. -/
theorem motorsInTurn_armed (h : s.motorsInTurn) (before : s.operating = false) (after : u.operating = true)
    (barriers : u.barriers = s.armBarriers.barriers) : u.motorsInTurn := by
  obtain ⟨unarmed, queue, running⟩ := h.unarmed before
  refine motorsInTurn_still (by rw [barriers]; exact queue) (by rw [barriers]; exact running) (fun p => ?_)
    fun e => nomatch after.symm.trans e
  have armed : u.barrier p = if (s.role p).isBarrier then (s.barrier p).hold else s.barrier p := by
    rw [State.barrier, barriers]
    exact tabulate_at _ p
  rw [armed]
  split
  · exact ⟨(nomatch ·), (nomatch ·)⟩
  · rw [unarmed p]
    exact ⟨(nomatch ·), (nomatch ·)⟩

end

/-! ## One barrier changed -/

section
variable {s : State} {o : Output} {b : Barrier} {q : List Output} {r : Option Output}

/-- R124: a barrier changed that is not made HELD against its release condition. -/
theorem follow_put (h : s.barriersFollow) (held : b.state = .held → s.releaseHolds o = false) :
    ({ s with barriers := ⟨put s.barriers.units o b, q, r⟩ } : State).barriersFollow := by
  intro operating p barrier state
  show s.releaseHolds p = false
  by_cases e : p = o
  · subst e
    rw [barrier_put] at state
    exact held state
  · rw [barrier_put_other _ _ _ _ _ _ e] at state
    exact h operating p barrier state

theorem operating_of_running (h : s.motorsInTurn) (running : s.barriers.running = some o) : s.operating = true :=
  Bool.of_not_eq_false fun e => by
    rw [(h.unarmed e).2.2] at running
    cases running

theorem closing_of_running (h : s.motorsInTurn) (running : s.barriers.running = some o) : (s.barrier o).state = .closing :=
  (h.closing o (h.motor o running)).mpr running

/-- R128: the queue stands in order when a barrier outside it changes. -/
theorem order_put (h : s.motorsInTurn) (absent : o ∉ s.barriers.queue) :
    s.queueInOrder ⟨put s.barriers.units o b, s.barriers.queue, r⟩ :=
  order_congr h.order (List.Sublist.refl _) fun p m => congrArg Barrier.kept
    (barrier_put_other s o p b s.barriers.queue r fun e => absent (e ▸ m))

/-- R132: the run of the motor that runs ends. -/
theorem motors_endRun (h : s.motorsInTurn) (running : s.barriers.running = some o) (f : Barrier → Barrier)
    (closed : ∀ b, (f b).state ≠ .closing ∧ (f b).state ≠ .queued) : (s.endRun o f).motorsInTurn := by
  have closing := closing_of_running h running
  have absent : o ∉ s.barriers.queue := not_queued h o (by rw [closing]; exact (nomatch ·))
  have operating := operating_of_running h running
  exact motors_put h o _ s.barriers.queue none
    (fun _ => ⟨fun e => absurd e (closed _).1, (nomatch ·)⟩)
    (fun p e => ⟨(nomatch ·), fun r => absurd (Option.some.inj (running.symm.trans r)).symm e⟩)
    (nomatch ·) (fun _ => rfl) ⟨fun m => absurd m absent, fun e => absurd e.2 (closed _).2⟩
    (fun _ _ => Iff.rfl) h.once (fun e => nomatch operating.symm.trans e) (order_put h absent) (nomatch ·)

/-- R132: a run that ends does not leave a barrier HELD. -/
theorem keepsTurn_endRun (running : s.barriers.running = some o) (f : Barrier → Barrier)
    (closed : ∀ b, (f b).state ≠ .closing ∧ (f b).state ≠ .queued ∧ (f b).state ≠ .held) : KeepsTurn s (s.endRun o f) where
  motors h := motors_endRun h running f fun b => ⟨(closed b).1, (closed b).2.1⟩
  follow h := follow_put h fun e => absurd e (closed _).2.2

/-- R127: a QUEUED barrier that closes leaves the queue. -/
theorem motors_leaveQueue (h : s.motorsInTurn) (operating : s.operating = true) (b : Barrier)
    (queued : (s.barrier o).state = .queued) (closed : b.state ≠ .closing ∧ b.state ≠ .queued) :
    ({ s with barriers := ⟨put s.barriers.units o b, leaveQueue o s.barriers.queue, s.barriers.running⟩ } :
      State).motorsInTurn := by
  have idle := not_running h o (by rw [queued]; exact (nomatch ·))
  exact motors_put h o b _ _
    (fun _ => ⟨fun e => absurd e closed.1, fun e => absurd e idle⟩)
    (fun _ _ => Iff.rfl) (fun e => absurd e idle) h.supply
    ⟨fun m => absurd rfl ((mem_leaveQueue ..).mp m).2, fun e => absurd e.2 closed.2⟩
    (fun p e => by rw [mem_leaveQueue]; simp [e]) (nodup_leaveQueue o _ h.once)
    (fun e => nomatch operating.symm.trans e)
    (order_congr h.order List.filter_sublist fun p m => congrArg Barrier.kept
      (barrier_put_other s o p b (leaveQueue o s.barriers.queue) s.barriers.running ((mem_leaveQueue ..).mp m).2))
    fun e => absurd e idle

/-- A barrier that neither runs nor is queued takes a state in which it does neither. -/
theorem keepsTurn_rest (operating : s.operating = true)
    (rests : (s.barrier o).state ≠ .closing ∧ (s.barrier o).state ≠ .queued)
    (goes : b.state ≠ .closing ∧ b.state ≠ .queued) (held : b.state = .held → s.releaseHolds o = false) :
    KeepsTurn s (s.withBarrier o b) where
  motors h := motors_rest h operating o b rests.1 rests.2 (fun _ => goes.1) fun _ => goes.2
  follow h := follow_put h held

/-- R125: a MAGNET that neither is nor becomes HELD: it never has a motor. -/
theorem keepsTurn_magnet (operating : s.operating = true) (magnet : (s.role o).isMotor = false) (held : b.state ≠ .held) :
    KeepsTurn s (s.withBarrier o b) where
  motors h := by
    have absent : o ∉ s.barriers.queue := fun m => nomatch magnet.symm.trans ((h.queued o).mp m).1
    have idle : s.barriers.running ≠ some o := fun e => nomatch magnet.symm.trans (h.motor o e)
    exact motors_put h o b _ _ (fun e => nomatch magnet.symm.trans e) (fun _ _ => Iff.rfl) (fun e => absurd e idle) h.supply
      ⟨fun m => absurd m absent, fun e => nomatch magnet.symm.trans e.1⟩ (fun _ _ => Iff.rfl) h.once
      (fun e => nomatch operating.symm.trans e) (order_put h absent) fun e => absurd e idle
  follow h := follow_put h fun e => absurd e held

/-! ## The supply (R133) -/

/-- R133: the motor that runs stops, and its barrier returns to the head of the queue with its travel kept. -/
theorem motors_paused (h : s.motorsInTurn) (running : s.barriers.running = some o) (b : Barrier) (queued : b.state = .queued)
    (kept : b.kept.isSome = true) :
    ({ s with barriers := ⟨put s.barriers.units o b, o :: s.barriers.queue, none⟩ } : State).motorsInTurn := by
  have absent : o ∉ s.barriers.queue := not_queued h o (by rw [closing_of_running h running]; exact (nomatch ·))
  have operating := operating_of_running h running
  have head : (put s.barriers.units o b)[o] = b := put_same ..
  refine motors_put h o b (o :: s.barriers.queue) none
    (fun _ => ⟨fun e => (nomatch queued.symm.trans e), (nomatch ·)⟩)
    (fun p e => ⟨(nomatch ·), fun r => absurd (Option.some.inj (running.symm.trans r)).symm e⟩)
    (nomatch ·) (fun _ => rfl) ⟨fun _ => ⟨h.motor o running, queued⟩, fun _ => List.mem_cons_self⟩
    (fun p e => by simp [e]) (List.nodup_cons.mpr ⟨absent, h.once⟩) (fun e => nomatch operating.symm.trans e)
    (List.pairwise_cons.mpr ⟨fun p _ => .inl ?_, order_put (r := none) h absent⟩) (nomatch ·)
  rw [head]
  exact kept

theorem pauseRun_idle (h : s.barriers.running = none) : s.pauseRun = s := by
  unfold State.pauseRun
  rw [h]

/-- R133: the barrier whose motor is stopped, with its travel kept. -/
def Barrier.pause (now : Time) (b : Barrier) : Barrier :=
  { b with state := .queued, ran := b.travelled now, kept := b.run.map fun r => remaining now r.2, run := none }

theorem pauseRun_running (h : s.barriers.running = some o) : s.pauseRun = { s with barriers :=
    ⟨put s.barriers.units o ((s.barrier o).pause s.clock), o :: s.barriers.queue, none⟩ } := by
  unfold State.pauseRun
  rw [h]
  rfl

theorem motors_pauseRun (h : s.motorsInTurn) : s.pauseRun.motorsInTurn ∧ s.pauseRun.barriers.running = none := by
  cases running : s.barriers.running with
  | none =>
    rw [pauseRun_idle running]
    exact ⟨h, running⟩
  | some o =>
    rw [pauseRun_running running]
    refine ⟨motors_paused h running _ rfl ?_, rfl⟩
    rw [Barrier.pause, Option.isSome_map]
    exact h.run o running

theorem follow_pauseRun (h : s.barriersFollow) : s.pauseRun.barriersFollow := by
  cases running : s.barriers.running with
  | none =>
    rw [pauseRun_idle running]
    exact h
  | some o =>
    rw [pauseRun_running running]
    exact follow_put h (nomatch ·)

/-- R133: a pause reads the barriers and the clock alone. -/
theorem pauseRun_marked (s : State) (x : Supply) (r : EventRecord) (m : BitVec 16) :
    ({ s with supply := x, record := r, flags := m } : State).pauseRun =
      { s.pauseRun with supply := x, record := r, flags := m } := by
  cases running : s.barriers.running with
  | none =>
    rw [pauseRun_idle running]
    exact pauseRun_idle running
  | some o =>
    rw [pauseRun_running running]
    exact pauseRun_running running

/-- R133, R156: LOW set stops the motor that runs. -/
theorem keepsTurn_paused (s : State) (x : Supply) (r : EventRecord) (m : BitVec 16) :
    KeepsTurn s ({ s with supply := x, record := r, flags := m } : State).pauseRun where
  motors h := by
    obtain ⟨motors, idle⟩ := motors_pauseRun h
    rw [pauseRun_marked]
    exact ⟨motors.closing, motors.motor, fun _ => idle, motors.queued, motors.once, motors.unarmed, motors.order, motors.run⟩
  follow h := by
    rw [pauseRun_marked]
    exact barriersFollow_same (follow_pauseRun h) rfl rfl rfl rfl

/-! ## A RESET taken (R135) -/

/-- Barriers changed that neither run nor wait, nor come to. -/
theorem motors_units (h : s.motorsInTurn) (v : Vector Barrier 4) (change : ∀ p : Output, v[p] = s.barrier p ∨
      ((s.barrier p).state ≠ .closing ∧ (s.barrier p).state ≠ .queued ∧ (s.barrier p).state ≠ .unarmed) ∧
        v[p].state ≠ .closing ∧ v[p].state ≠ .queued) :
    ({ s with barriers := { s.barriers with units := v } } : State).motorsInTurn where
  closing p m := by
    show v[p].state = .closing ↔ s.barriers.running = some p
    rcases change p with e | ⟨⟨closing, -, -⟩, still, -⟩
    · rw [e]
      exact h.closing p m
    · exact ⟨fun e => absurd e still, fun e => absurd e (not_running h p closing)⟩
  motor := h.motor
  supply := h.supply
  queued p := by
    show p ∈ s.barriers.queue ↔ (s.role p).isMotor = true ∧ v[p].state = .queued
    rcases change p with e | ⟨⟨-, queued, -⟩, -, still⟩
    · rw [e]
      exact h.queued p
    · exact ⟨fun m => absurd m (not_queued h p queued), fun e => absurd e.2 still⟩
  once := h.once
  unarmed waiting := by
    obtain ⟨unarmed, rest⟩ := h.unarmed waiting
    refine ⟨fun p => ?_, rest⟩
    show v[p].state = .unarmed
    rcases change p with e | ⟨⟨-, -, armed⟩, -⟩
    · rw [e]
      exact unarmed p
    · exact absurd (unarmed p) armed
  order := order_congr h.order (List.Sublist.refl _) fun p m => by
    rcases change p with e | ⟨⟨-, queued, -⟩, -⟩
    · exact congrArg Barrier.kept e
    · exact absurd m (not_queued h p queued)
  run p running := by
    show v[p].run.isSome = true
    rcases change p with e | ⟨⟨closing, -, -⟩, -⟩
    · rw [e]
      exact h.run p running
    · exact absurd running (not_running h p closing)

/-- R135: barriers armed again neither ran nor waited. -/
theorem motors_rearmBarriers (h : s.motorsInTurn) : s.rearmBarriers.motorsInTurn :=
  motors_units h s.rearmBarriers.barriers.units fun p => by
    rw [rearmBarriers_unit]
    split
    · rename_i armed
      rw [Bool.and_eq_true, Bool.and_eq_true] at armed
      refine .inr ⟨?_, (nomatch ·), (nomatch ·)⟩
      revert armed
      cases (s.barrier p).state <;> simp [BarrierState.rearmed]
    · exact .inl rfl

theorem motors_resetTail (h : s.motorsInTurn) : s.resetTail.motorsInTurn := by
  have claims (u : State) : KeepsTurn u u.followZones := keepsTurn_beside rfl
  have sirens (u : State) : KeepsTurn u u.resetSirens := by
    unfold State.resetSirens
    split
    · exact keepsTurn_beside rfl
    · exact .refl u
  have last (u : State) : KeepsTurn u u.fillOnChange.judgeFlags := keepsTurn_beside rfl
  have tail : KeepsTurn s.judgeBarriers.rearmBarriers s.resetTail := (claims _).trans ((sirens _).trans (last _))
  exact tail.motors (motors_rearmBarriers ((judgeBarriers_consumes s).motors h))

/-- R43, R124, R135: after a RESET no barrier is HELD whose release condition holds. -/
theorem keepsTurn_takeReset (s : State) : KeepsTurn s s.takeReset where
  motors h := by
    rw [takeReset_eq]
    exact motors_resetTail (resetJudged_motors h)
  follow _ := (takeReset_rearmed s).released

end

end Sys2Proof.Machine
end

section
/-! SUPPORT. The motor barriers in turn and the release conditions followed, through every command and every step (O56). -/

namespace Sys2Proof.Machine

/-- What a command leaves of the motor barriers in turn, and of the release conditions followed. -/
def Turns (c : Instr) : Prop := ∀ s t : State, exec c s = .next t → KeepsTurn s t

section
variable {c : Instr} {now : Time} {s t u : State}

theorem turns_of {f : State → State} (h : ∀ s, exec c s = .next (f s)) (keeps : ∀ s, KeepsTurn s (f s)) : Turns c :=
  fun s t e => by
    rw [h s] at e
    cases e
    exact keeps s

theorem keepsTurn_takeAt (s : State) (now : Time) : KeepsTurn s (s.takeAt now) := keepsTurn_beside rfl

theorem keepsTurn_if {b : Bool} (h : b = true → KeepsTurn (s.takeAt now) t) :
    KeepsTurn s (if b then t else s.takeAt now) := by
  cases b with
  | false => exact keepsTurn_takeAt s now
  | true => exact (keepsTurn_takeAt s now).trans (h rfl)

theorem KeepsTurn.settled (h : KeepsTurn s u) (event : List Cause) : KeepsTurn s (u.settleWith event) :=
  keepsTurn_settled h.motors event

theorem KeepsTurn.settles (h : KeepsTurn s u) : KeepsTurn s u.settle := h.settled []

theorem KeepsTurn.filled (h : KeepsTurn s u) : KeepsTurn s u.fillOnChange := h.trans (keepsTurn_beside rfl)

/-- A command whose consequences are settled, when its event can occur. -/
theorem turns_settles {b : State → Bool} {f : State → State} {event : State → List Cause}
    (h : ∀ s, exec c s = .next (if b s then (f s).settleWith (event s) else s.takeAt now))
    (keeps : ∀ s, KeepsTurn (s.takeAt now) (f s)) : Turns c :=
  turns_of h fun s => keepsTurn_if fun _ => (keeps s).settled _

end

/-! ### The station line -/

section
variable {c : Instr} {s : State} (now : Time) (l : Line)

theorem turns_attemptStart : Turns (.attemptStart now l) :=
  turns_of (fun _ => rfl) fun _ => keepsTurn_if fun _ => by
    unfold State.startAttempt
    split
    · exact keepsTurn_beside rfl
    · exact .refl _

/-- The end of an attempt, when a notice is in transmission. -/
theorem turns_placed {f : State → Attempt → State} (h : ∀ s, exec c s = .next (match ((s.takeAt now).line l).place with
    | some a => f (s.takeAt now) a
    | none => s.takeAt now)) (keeps : ∀ (u : State) (a : Attempt), KeepsTurn u (f u a)) : Turns c :=
  turns_of h fun s => by
    cases ((s.takeAt now).line l).place with
    | none => exact keepsTurn_takeAt s now
    | some a => exact (keepsTurn_takeAt s now).trans (keeps _ a)

theorem turns_contentionLost : Turns (.contentionLost now l) :=
  turns_placed now l (f := fun u a => u.withLine l ((u.line l).loseContention a)) (fun _ => rfl)
    fun _ _ => keepsTurn_beside rfl

theorem turns_txError (place : LineBit) : Turns (.txError now place) :=
  turns_placed now place.line (f := fun u a => u.txErrorOn place.line place.bit a) (fun _ => rfl)
    fun _ _ => keepsTurn_beside rfl

theorem turns_attemptSuccess : Turns (.attemptSuccess now l) :=
  turns_placed now l (f := fun u a => u.succeedOn l a) (fun _ => rfl) fun _ _ => keepsTurn_beside rfl

theorem turns_checkError (class_ : BitVec 3) (rx : Received) : Turns (.checkError now l class_ rx) :=
  turns_of (fun _ => rfl) fun _ => by
    split
    · exact keepsTurn_takeAt _ now
    · split
      · exact keepsTurn_beside rfl
      · exact keepsTurn_if fun _ => keepsTurn_beside rfl

/-- R19 to R21: a complete notice, by what its delivery comes to. -/
theorem turns_receive {α : Type} {class_ : BitVec 3} {read : List Byte → Option α} {rx : Received}
    {deliver : State → Station → Time → α → State}
    (h : ∀ s, exec c s = .next ((s.takeAt now).receive l class_ read rx deliver))
    (delivered : ∀ (u : State) (k : Station) (start : Time) (x : α), KeepsTurn u (deliver u k start x)) : Turns c :=
  turns_of h fun s => by
    rcases receive_cases (s.takeAt now) l class_ read rx deliver with
      e | e | e | e | ⟨-, e⟩ | ⟨x, -, -, -, -, e⟩ <;> rw [e]
    · exact keepsTurn_takeAt s now
    · exact keepsTurn_beside rfl
    · exact keepsTurn_beside rfl
    · exact keepsTurn_beside rfl
    · exact keepsTurn_beside rfl
    · exact (keepsTurn_beside rfl : KeepsTurn s ((s.takeAt now).heardFrom l _ _)).trans (delivered _ _ _ x)

/-- R22, R62: the quiet tests and the unserved field. -/
theorem keepsTurn_afterHearing (s : State) : KeepsTurn s s.afterHearing := by
  rw [afterHearing_eq]
  exact keepsTurn_beside rfl

theorem turns_callNotice (rx : Received) : Turns (.callNotice now l rx) :=
  turns_receive now l (fun _ => rfl) fun u k start z =>
    (KeepsTurn.trans (keepsTurn_beside rfl : KeepsTurn u (u.deliverCall k start z)) (keepsTurn_afterHearing _)).settles

/-- R69: a report handed to release timing. -/
theorem keepsTurn_release (s : State) (r : Report) : KeepsTurn s (s.release r) := by
  rw [release_eq]
  exact keepsTurn_beside rfl

theorem turns_sparkNotice (rx : Received) : Turns (.sparkNotice now l rx) :=
  turns_receive now l (fun _ => rfl) fun u _ _ _ =>
    ((keepsTurn_afterHearing u).trans (keepsTurn_release _ _)).settled _

theorem turns_stateNotice (rx : Received) : Turns (.stateNotice now l rx) :=
  turns_receive now l (fun _ => rfl) fun u k start x => by
    have heard : KeepsTurn u (u.deliverState k start x).afterHearing :=
      (keepsTurn_beside rfl : KeepsTurn u (u.deliverState k start x)).trans (keepsTurn_afterHearing _)
    exact (heard.trans (keepsTurn_beside rfl)).settles

theorem keepsTurn_silence (s : State) : KeepsTurn s s.silence := by
  unfold State.silence
  split
  · exact keepsTurn_beside rfl
  · exact .refl s

theorem keepsTurn_takeKey (s : State) (key : KeyKind) : KeepsTurn s (s.takeKey key) := by
  cases key with
  | silence => exact (keepsTurn_silence s).filled
  | reset => exact keepsTurn_takeReset s

theorem turns_keyNotice (rx : Received) : Turns (.keyNotice now l rx) :=
  turns_receive now l (fun _ => rfl) fun u k start n => by
    refine ((keepsTurn_afterHearing u).trans ?_).filled
    unfold State.deliverKey
    split
    · exact .refl _
    · exact KeepsTurn.trans (keepsTurn_beside rfl) (keepsTurn_takeKey _ _)

theorem turns_peerLost (k : Station) : Turns (.peerLost now k) :=
  turns_settles (now := now) (event := fun _ => []) (fun _ => rfl) fun s => by
    have lost : KeepsTurn (s.takeAt now) ((s.takeAt now).withLost k) := keepsTurn_beside rfl
    exact (lost.trans (keepsTurn_afterHearing _)).trans (keepsTurn_beside rfl)

theorem turns_singleLine (k : Station) : Turns (.singleLine now k) :=
  turns_of (f := fun s => match ((s.takeAt now).peers[k]).singleTest now with
      | some m => { s.takeAt now with
          peers := change s.peers k fun p => { p with single := some m }, flags := s.flags ||| Attention.singleLine.mask }
      | none => s.takeAt now) (fun _ => rfl) fun _ => by
    split
    · exact keepsTurn_beside rfl
    · exact keepsTurn_takeAt _ now

end

/-! ### Keys and channels -/

section
variable {c : Instr} (now : Time) (k : Channel)

/-- R41: a counted key: its press, its effect and the KEY slots. -/
theorem keepsTurn_keyPress (s : State) (key : KeyKind) : KeepsTurn s (s.keyPress key) := by
  have counted : KeepsTurn s (s.counted key) := by cases key <;> exact keepsTurn_beside rfl
  exact (counted.trans (keepsTurn_takeKey _ key)).trans (keepsTurn_beside rfl)

theorem turns_keyPress (key : KeyKind)
    (h : ∀ s, exec c s = .next (if (s.takeAt now).started then (s.takeAt now).keyPress key else s.takeAt now)) : Turns c :=
  turns_of h fun _ => keepsTurn_if fun _ => keepsTurn_keyPress _ key

/-- R107: what a change of the fan phase brings. -/
theorem keepsTurn_phaseChanged (s : State) (e : Extraction) :
    KeepsTurn s ({ s with extraction := e } : State).phaseChanged := by
  have same : ({ s with extraction := e } : State).phaseChanged.barriers = s.barriers := (phaseChanged_same _).1
  refine KeepsTurn.trans (keepsTurn_beside rfl) (keepsTurn_consumes (phaseChanged_consumes { s with extraction := e })
    fun p held => ?_)
  rw [State.barrier, same] at held
  exact held

theorem keepsTurn_startFan (s : State) : KeepsTurn s s.startFan := by
  rcases startFan_cases s with e | e | ⟨-, -, e⟩ <;> rw [e]
  · exact .refl s
  · exact keepsTurn_beside rfl
  · exact keepsTurn_phaseChanged s _

theorem turns_startPress : Turns (.startPress now) :=
  turns_of (f := fun s => if (s.takeAt now).started then
      (if ({ s.takeAt now with inputs := { s.inputs with start := .settled true } } : State).takesFanKeys then
        ({ s.takeAt now with inputs := { s.inputs with start := .settled true } } : State).startFan.settle
      else { s.takeAt now with inputs := { s.inputs with start := .settled true } })
    else s.takeAt now) (fun _ => rfl) fun s => keepsTurn_if fun _ => by
    split
    · exact (KeepsTurn.trans (keepsTurn_beside rfl) (keepsTurn_startFan _)).settles
    · exact keepsTurn_beside rfl

theorem turns_stopPress : Turns (.stopPress now) :=
  turns_of (f := fun s => if (s.takeAt now).started then
      (if ({ s.takeAt now with inputs := { s.inputs with stop := .settled true } } : State).takesFanKeys then
        ({ s.takeAt now with inputs := { s.inputs with stop := .settled true } } : State).settleWith [.stopKey]
      else { s.takeAt now with inputs := { s.inputs with stop := .settled true } })
    else s.takeAt now) (fun _ => rfl) fun s => keepsTurn_if fun _ => by
    split
    · exact KeepsTurn.settled (keepsTurn_beside rfl) _
    · exact keepsTurn_beside rfl

/-- R46: an edge of a channel, by what an active channel makes of it. -/
theorem turns_pin (level : Bool) {f : State → State}
    (h : ∀ s, exec c s = .next (if ((s.takeAt now).setSparkPin k level).channelActive k then
      f ((s.takeAt now).setSparkPin k level) else (s.takeAt now).setSparkPin k level))
    (keeps : ∀ u, KeepsTurn u (f u)) : Turns c :=
  turns_of h fun s => by
    have pinned : KeepsTurn s ((s.takeAt now).setSparkPin k level) := keepsTurn_beside rfl
    split
    · exact pinned.trans (keeps _)
    · exact pinned

theorem turns_sensorPulseStart : Turns (.sensorPulseStart now k) :=
  turns_pin now k true (f := fun u => u.pulseStart k) (fun _ => rfl) fun _ => keepsTurn_beside rfl

/-- R49: a spark, whose consequences are settled. -/
theorem keepsTurn_spark (s : State) (pulse : Time) : KeepsTurn s (s.spark k pulse) := by
  have channel : KeepsTurn s (s.sparkAtChannel k) := by
    unfold State.sparkAtChannel
    simp only
    split <;> exact keepsTurn_beside rfl
  have slots : KeepsTurn (s.sparkAtChannel k) ((s.sparkAtChannel k).restartWatch.sparkSlots k pulse) := keepsTurn_beside rfl
  refine ((channel.trans slots).trans ?_).settled _
  unfold State.handOff
  split
  · exact keepsTurn_release _ _
  · exact .refl _

theorem keepsTurn_noisePulse (s : State) : KeepsTurn s (s.noisePulse k) := by
  unfold State.noisePulse
  simp only
  split <;> exact KeepsTurn.filled (keepsTurn_beside rfl)

theorem keepsTurn_testPulse (s : State) : KeepsTurn s (s.testPulse k) := by
  unfold State.testPulse
  simp only
  split <;> exact KeepsTurn.filled (keepsTurn_beside rfl)

/-- Table 3.4: a pulse by its class. -/
theorem keepsTurn_classify (s : State) (pulse : Time) (width : Nat) : KeepsTurn s (s.classify k pulse width) := by
  unfold State.classify
  repeat' split
  · exact keepsTurn_beside rfl
  · exact keepsTurn_spark k s pulse
  · exact keepsTurn_noisePulse k s
  · exact keepsTurn_testPulse k s
  · exact keepsTurn_noisePulse k s
  · exact keepsTurn_beside rfl

theorem turns_sensorPulseEnd (width : Nat) : Turns (.sensorPulseEnd now k width) :=
  turns_pin now k false (f := fun u => u.pulseEnd k width) (fun _ => rfl) fun u => by
    unfold State.pulseEnd
    repeat' split
    · exact keepsTurn_beside rfl
    · exact keepsTurn_classify k u _ width
    · exact .refl u

theorem turns_escalated : Turns (.escalated now) :=
  turns_of (fun _ => rfl) fun s => keepsTurn_if fun _ => by
    split
    · exact KeepsTurn.settles (keepsTurn_beside rfl)
    · exact .refl _

end

/-! ### The valves and the extraction controller -/

section
variable {s : State} (now : Time) (o : Output)

theorem keepsTurn_openValve (s : State) : KeepsTurn s (s.openValve o) := by
  unfold State.openValve
  split
  · exact keepsTurn_beside rfl
  · exact .refl s

theorem turns_windowOpen : Turns (.windowOpen now o) :=
  turns_of (fun _ => rfl) fun s => (keepsTurn_takeAt s now).trans (keepsTurn_openValve o _)

theorem turns_windowClose : Turns (.windowClose now o) :=
  turns_of (fun _ => rfl) fun _ => keepsTurn_if fun _ => KeepsTurn.trans (keepsTurn_beside rfl) (keepsTurn_openValve o _)

theorem turns_flowSwitchChange (active : Bool) : Turns (.flowSwitchChange now o active) :=
  turns_of (fun _ => rfl) fun _ => keepsTurn_if fun _ => by
    unfold State.flowChange
    split <;> exact keepsTurn_beside rfl

/-- R103, R106, R108, R111: a sample judged by the phase in which it completes. -/
theorem keepsTurn_judgeSample (s : State) : KeepsTurn s s.judgeSample := by
  have good : KeepsTurn s s.judgeGood := by
    unfold State.judgeGood
    simp only
    generalize (if s.setup.extraction.floor ≤ s.extraction.velocity then s.extraction.goodCount + 1 else 0) = count
    split
    · exact keepsTurn_phaseChanged s _
    · exact keepsTurn_beside rfl
  have flow : KeepsTurn s s.judgeFlow := keepsTurn_beside rfl
  have stop (u : State) : KeepsTurn u u.judgeStop := by
    unfold State.judgeStop
    simp only
    generalize (if u.extraction.velocity < u.setup.extraction.stop then u.extraction.stopCount + 1 else 0) = count
    split
    · exact keepsTurn_phaseChanged u _
    · exact keepsTurn_beside rfl
  unfold State.judgeSample
  split
  · exact good
  · exact flow.trans (stop _)
  all_goals exact flow

theorem turns_sampleComplete : Turns (.sampleComplete now) :=
  turns_of (fun _ => rfl) fun s => by
    cases (s.takeAt now).extraction.window with
    | none => exact keepsTurn_takeAt s now
    | some w =>
      have sampled : KeepsTurn (s.takeAt now) ((s.takeAt now).takeSample w) := keepsTurn_beside rfl
      exact keepsTurn_if fun _ =>
        ((sampled.trans (keepsTurn_judgeSample _)).trans (keepsTurn_beside rfl)).settled _

theorem turns_gateTimerExpiry : Turns (.gateTimerExpiry now) :=
  turns_settles (now := now) (event := fun _ => []) (fun _ => rfl) fun s =>
    KeepsTurn.trans (keepsTurn_beside rfl : KeepsTurn (s.takeAt now) { s.takeAt now with
      extraction := { (s.takeAt now).extraction with gateFail := true }
      flags := (s.takeAt now).flags ||| Attention.fanFault.mask }) (keepsTurn_phaseChanged _ _)

theorem turns_rundownLimitExpiry : Turns (.rundownLimitExpiry now) :=
  turns_settles (now := now) (event := fun _ => []) (fun _ => rfl) fun s =>
    KeepsTurn.trans (keepsTurn_beside rfl : KeepsTurn (s.takeAt now) { s.takeAt now with
      extraction := { (s.takeAt now).extraction with rundownSlow := true }
      flags := (s.takeAt now).flags ||| Attention.fanFault.mask }) (keepsTurn_phaseChanged _ _)

theorem keepsTurn_judgeMismatches (s : State) : KeepsTurn s s.judgeMismatches := by
  unfold State.judgeMismatches
  simp only
  split <;> exact keepsTurn_beside rfl

theorem keepsTurn_setFeedback (s : State) (active : Bool) : KeepsTurn s (s.setFeedback o active) := keepsTurn_beside rfl

theorem turns_gateFeedbackChange (active : Bool) : Turns (.gateFeedbackChange now active) :=
  turns_of (fun _ => rfl) fun s => by
    split
    · rename_i o _
      refine keepsTurn_if fun _ =>
        (((keepsTurn_setFeedback o _ active).trans (keepsTurn_judgeMismatches _)).trans ?_).settles
      unfold State.endDiverting
      split
      · exact keepsTurn_phaseChanged _ _
      · exact .refl _
    · exact keepsTurn_takeAt s now

theorem turns_runningContactChange (active : Bool) : Turns (.runningContactChange now active) :=
  turns_of (fun _ => rfl) fun s => by
    split
    · rename_i o _
      exact keepsTurn_if fun _ => (keepsTurn_setFeedback o _ active).trans (keepsTurn_judgeMismatches _)
    · exact keepsTurn_takeAt s now

end

/-! ### The barriers and the supply -/

section
variable {s : State} (now : Time) (o : Output)

/-- What a barrier files, and a flag that it raises. -/
theorem keepsTurn_report (s : State) (fs : List Filing) (a : Attention) : KeepsTurn s ((s.fileAll fs).raise a) :=
  keepsTurn_beside rfl

/-- R134: a CLOSED motor barrier that loses its feedback with its release condition holding. -/
theorem keepsTurn_reopenMotor (operating : s.operating = true) (motor : (s.role o).isMotor = true)
    (closed : (s.barrier o).state = .closed) : KeepsTurn s (s.reopenMotor o) := by
  have rests : (s.barrier o).state ≠ .closing ∧ (s.barrier o).state ≠ .queued := by
    rw [closed]
    exact ⟨(nomatch ·), (nomatch ·)⟩
  unfold State.reopenMotor
  simp only
  split
  · have queued : KeepsTurn s { s with barriers :=
        ⟨put s.barriers.units o (s.barrier o).enqueue, s.enterQueue o s.barriers.queue, s.barriers.running⟩ } :=
      ⟨fun h => motors_enqueue h operating o _ motor rests.1 rests.2, fun h => follow_put h (nomatch ·)⟩
    exact queued.trans (keepsTurn_report _ _ _)
  · have jams : KeepsTurn s (s.withBarrier o (s.barrier o).jam) :=
      keepsTurn_rest operating rests ⟨(nomatch ·), (nomatch ·)⟩ (nomatch ·)
    exact jams.trans (keepsTurn_report _ _ _)

theorem keepsTurn_motorFeedback (operating : s.operating = true) (motor : (s.role o).isMotor = true) (active : Bool) :
    KeepsTurn s (s.motorFeedback o active) := by
  unfold State.motorFeedback
  simp only
  split
  · rename_i queued
    have leaves : KeepsTurn s { s with barriers :=
        ⟨put s.barriers.units o (s.barrier o).close, leaveQueue o s.barriers.queue, s.barriers.running⟩ } :=
      ⟨fun h => motors_leaveQueue h operating _ queued ⟨(nomatch ·), (nomatch ·)⟩, fun h => follow_put h (nomatch ·)⟩
    exact leaves.trans (keepsTurn_beside rfl)
  · rename_i closing
    have ends : KeepsTurn s (s.endRun o Barrier.close) :=
      ⟨fun h => motors_endRun h ((h.closing o motor).mp closing) _ fun _ => ⟨(nomatch ·), (nomatch ·)⟩,
        fun h => follow_put h (nomatch ·)⟩
    exact ends.trans (keepsTurn_beside rfl)
  · rename_i jammed
    have closes : KeepsTurn s (s.withBarrier o (s.barrier o).close) :=
      keepsTurn_rest operating (by rw [jammed]; exact ⟨(nomatch ·), (nomatch ·)⟩) ⟨(nomatch ·), (nomatch ·)⟩ (nomatch ·)
    exact closes.trans (keepsTurn_beside rfl)
  · rename_i closed
    split
    · exact keepsTurn_reopenMotor o operating motor closed
    · rename_i clear
      exact keepsTurn_rest operating (by rw [closed]; exact ⟨(nomatch ·), (nomatch ·)⟩) ⟨(nomatch ·), (nomatch ·)⟩
        fun _ => Bool.eq_false_iff.mpr clear
  · exact .refl s

theorem keepsTurn_magnetFeedback (operating : s.operating = true) (magnet : (s.role o).isMotor = false) (active : Bool) :
    KeepsTurn s (s.magnetFeedback o active) := by
  have closes : KeepsTurn s (s.withBarrier o (s.barrier o).close) := keepsTurn_magnet operating magnet (nomatch ·)
  unfold State.magnetFeedback
  simp only
  split
  · exact closes.trans (keepsTurn_beside rfl)
  · exact closes.trans (keepsTurn_beside rfl)
  · exact closes.trans (keepsTurn_beside rfl)
  · rename_i closed
    split
    · have reopens : KeepsTurn s (s.withBarrier o (s.barrier o).reopen) := keepsTurn_magnet operating magnet (nomatch ·)
      exact reopens.trans (keepsTurn_report _ _ _)
    · rename_i clear
      exact keepsTurn_rest operating (by rw [closed]; exact ⟨(nomatch ·), (nomatch ·)⟩) ⟨(nomatch ·), (nomatch ·)⟩
        fun _ => Bool.eq_false_iff.mpr clear
  · exact .refl s

theorem keepsTurn_barrierFeedback (operating : s.operating = true) (active : Bool) :
    KeepsTurn s (s.barrierFeedback o active) := by
  unfold State.barrierFeedback
  split
  · rename_i motor
    exact keepsTurn_motorFeedback o operating motor active
  · rename_i magnet
    split
    · exact keepsTurn_magnetFeedback o operating (Bool.eq_false_iff.mpr magnet) active
    · exact .refl s

theorem turns_barrierFeedbackChange (active : Bool) : Turns (.barrierFeedbackChange now o active) :=
  turns_of (fun _ => rfl) fun s => keepsTurn_if fun _ => by
    have fed := keepsTurn_setFeedback o (s.takeAt now) active
    unfold State.barrierChange
    simp only
    split
    · rename_i operating
      exact (fed.trans (keepsTurn_barrierFeedback o operating active)).trans (keepsTurn_considered _)
    · exact fed

theorem isMotor_of_isMagnet {r : OutputRole} (h : r.isMagnet = true) : r.isMotor = false := by
  cases r with
  | magnet => rfl
  | _ => cases h

/-- R125: a travel timer runs at a closing MAGNET, which no station before OPERATING has. -/
theorem turns_travelTimerExpiry : Turns (.travelTimerExpiry now o) :=
  turns_of (fun _ => rfl) fun s => keepsTurn_if fun h => by
    rw [State.travelDue, Bool.and_eq_true, Bool.and_eq_true, beq_iff_eq] at h
    obtain ⟨⟨magnet, closing⟩, -⟩ := h
    have jams : KeepsTurn (s.takeAt now) ((s.takeAt now).withBarrier o ((s.takeAt now).barrier o).jam) :=
      { motors := fun h => by
          have operating : (s.takeAt now).operating = true := Bool.of_not_eq_false fun e => by
            rw [(h.unarmed e).1 o] at closing
            cases closing
          exact (keepsTurn_magnet (b := ((s.takeAt now).barrier o).jam) operating (isMotor_of_isMagnet magnet)
            (nomatch ·)).motors h
        follow := fun h => follow_put h (nomatch ·) }
    exact (jams.trans (keepsTurn_beside rfl)).filled

theorem turns_travelExhausted : Turns (.travelExhausted now o) :=
  turns_of (fun _ => rfl) fun s => keepsTurn_if fun h => by
    rw [State.travelOut, Bool.and_eq_true, beq_iff_eq] at h
    have ends := keepsTurn_endRun h.1 Barrier.jam fun _ => ⟨(nomatch ·), (nomatch ·), (nomatch ·)⟩
    exact (ends.trans (keepsTurn_beside rfl)).trans (keepsTurn_considered _)

/-- R131: a wait that expires leaves the barrier's state and travel. -/
theorem keepsTurn_wait (s : State) (w : DamperWait) : KeepsTurn s (s.withBarrier o { s.barrier o with wait := w }) :=
  keepsTurn_consumes (withBarrier_consumes s o _ rfl rfl rfl) fun p held => by
    by_cases e : p = o
    · subst e
      rw [State.withBarrier, barrier_put] at held
      exact held
    · rw [State.withBarrier, barrier_put_other _ _ _ _ _ _ e] at held
      exact held

theorem turns_damperWaitExpiry : Turns (.damperWaitExpiry now o) :=
  turns_of (fun _ => rfl) fun _ => keepsTurn_if fun _ => (keepsTurn_wait o _ _).trans (keepsTurn_considered _)

/-- R129, R156: LOW that clears stops no motor. -/
theorem keepsTurn_recovered (s : State) (x : Supply) (low : x.low = false) (r : EventRecord) :
    KeepsTurn s { s with supply := x, record := r } where
  motors h :=
    ⟨h.closing, h.motor, fun e => (nomatch low.symm.trans e), h.queued, h.once, h.unarmed, h.order, h.run⟩
  follow h := barriersFollow_same h rfl rfl rfl rfl

theorem keepsTurn_judgeSupply (s : State) : KeepsTurn s s.judgeSupply := by
  unfold State.judgeSupply
  split
  · split
    · exact (keepsTurn_recovered s _ rfl _).trans (keepsTurn_considered _)
    · exact .refl s
  · split
    · split
      · exact (keepsTurn_paused s _ _ _).trans (keepsTurn_considered _)
      · exact keepsTurn_beside rfl
    · exact keepsTurn_beside rfl

theorem turns_supplySample (millivolts : Nat) : Turns (.supplySample now millivolts) :=
  turns_of (fun _ => rfl) fun s => keepsTurn_if fun _ => by
    have graded : KeepsTurn (s.takeAt now) ((s.takeAt now).gradeSupply (supplyLevel millivolts)) := keepsTurn_beside rfl
    split
    · exact graded.trans (keepsTurn_judgeSupply _)
    · exact graded

end

/-! ### The start sequencer and the ageing -/

section
variable {s : State} (now : Time)

theorem waits_of_phase {p : StartPhase} (phase : s.start.phase = p) (other : p ≠ .operating) : s.operating = false := by
  rw [State.operating, phase]
  exact beq_false_of_ne other

theorem turns_imageReadFailed : Turns (.imageReadFailed now) :=
  turns_of (fun _ => rfl) fun s => keepsTurn_if fun h => by
    have load := reading_phase h
    unfold State.failRead
    split
    · exact keepsTurn_beside rfl
    · exact keepsTurn_waits (waits_of_phase load (nomatch ·)) rfl rfl

theorem turns_imageReadComplete (image : List Byte) : Turns (.imageReadComplete now image) :=
  turns_of (fun _ => rfl) fun s => keepsTurn_if fun h => by
    rw [Bool.and_eq_true, Bool.and_eq_true] at h
    have waits := waits_of_phase (reading_phase h.1.1) (nomatch ·)
    unfold State.completeRead
    split
    · have listens : KeepsTurn (s.takeAt now) ((s.takeAt now).listening image) := keepsTurn_waits waits rfl rfl
      rw [enterListen_eq]
      exact listens.settles
    · exact keepsTurn_waits waits rfl rfl

theorem turns_listenEnd : Turns (.listenEnd now) :=
  turns_of (fun _ => rfl) fun _ => keepsTurn_if fun h =>
    keepsTurn_waits (waits_of_phase (phaseDue_phase h) (nomatch ·)) rfl rfl

theorem turns_settleEnd : Turns (.settleEnd now) :=
  turns_of (fun _ => rfl) fun _ => keepsTurn_if fun h => by
    rw [enterOperating_eq]
    refine keepsTurn_settled (fun motors => motorsInTurn_armed motors (waits_of_phase (phaseDue_phase h) (nomatch ·)) ?_ ?_) []
    all_goals rw [opened_eq]; rfl

/-- R149: ageing leaves the states, the travels and the zone picture. -/
theorem keepsTurn_mapInstants (s : State) (f : Instant → Instant) : KeepsTurn s (s.mapInstants f) := by
  have aged (p : Output) : (s.mapInstants f).barrier p = { s.barrier p with released := (s.barrier p).released.map f } := by
    show (s.barriers.units.map fun b => { b with released := b.released.map f })[p] = _
    rw [getElem_map_fin]
    rfl
  refine ⟨fun h => motorsInTurn_same h rfl rfl rfl rfl rfl (fun p => by rw [aged]) (fun p => by rw [aged])
    fun p => by rw [aged], fun h operating p barrier held => ?_⟩
  rw [aged] at held
  exact h operating p barrier held

theorem turns_instantAged : Turns (.instantAged now) :=
  turns_of (fun _ => rfl) fun _ => keepsTurn_if fun _ => (keepsTurn_mapInstants _ _).trans (keepsTurn_beside rfl)

theorem turns_powerOn : Turns .powerOn :=
  turns_of exec_powerOn fun _ =>
    ⟨fun _ => motorsInTurn_same reset_motorsInTurn rfl rfl rfl rfl rfl (fun _ => rfl) (fun _ => rfl) fun _ => rfl,
      fun _ operating => nomatch operating⟩

end

/-! ## Every step -/

theorem turns_command (c : Instr) : Turns c := by
  cases c with
  | powerOn => exact turns_powerOn
  | imageReadFailed now => exact turns_imageReadFailed now
  | imageReadRetry _ => exact turns_of (fun _ => rfl) fun _ => keepsTurn_if fun _ => keepsTurn_beside rfl
  | imageReadComplete now image => exact turns_imageReadComplete now image
  | listenEnd now => exact turns_listenEnd now
  | settleEnd now => exact turns_settleEnd now
  | attemptStart now line => exact turns_attemptStart now line
  | contentionLost now line => exact turns_contentionLost now line
  | txError now place => exact turns_txError now place
  | attemptSuccess now line => exact turns_attemptSuccess now line
  | probeTimerExpiry _ _ => exact turns_of (fun _ => rfl) fun _ => keepsTurn_if fun _ => keepsTurn_beside rfl
  | stateRoundHoldClear _ _ => exact turns_of (fun _ => rfl) fun _ => keepsTurn_beside rfl
  | stateIntervalExpiry _ => exact turns_of (fun _ => rfl) fun _ => keepsTurn_if fun _ => keepsTurn_beside rfl
  | receiveFramingError _ _ => exact turns_of (fun _ => rfl) fun _ => keepsTurn_if fun _ => keepsTurn_beside rfl
  | noticeLengthError _ _ _ => exact turns_of (fun _ => rfl) fun _ => keepsTurn_if fun _ => keepsTurn_beside rfl
  | callNotice now line rx => exact turns_callNotice now line rx
  | sparkNotice now line rx => exact turns_sparkNotice now line rx
  | keyNotice now line rx => exact turns_keyNotice now line rx
  | stateNotice now line rx => exact turns_stateNotice now line rx
  | lineQuiet _ _ => exact turns_of (fun _ => rfl) fun _ => keepsTurn_beside rfl
  | peerLost now peer => exact turns_peerLost now peer
  | singleLine now peer => exact turns_singleLine now peer
  | callPress now => exact turns_settles (now := now) (event := fun _ => []) (fun _ => rfl) fun _ => keepsTurn_beside rfl
  | callRelease now => exact turns_settles (now := now) (event := fun _ => []) (fun _ => rfl) fun _ => keepsTurn_beside rfl
  | heatInputChange now active =>
    exact turns_settles (now := now) (event := fun _ => []) (fun _ => rfl) fun _ => keepsTurn_beside rfl
  | silencePress now => exact turns_keyPress now .silence fun _ => rfl
  | resetPress now => exact turns_keyPress now .reset fun _ => rfl
  | startPress now => exact turns_startPress now
  | stopPress now => exact turns_stopPress now
  | sensorPulseStart now channel => exact turns_sensorPulseStart now channel
  | sensorPulseEnd now channel width => exact turns_sensorPulseEnd now channel width
  | blinded _ _ => exact turns_of (fun _ => rfl) fun _ => keepsTurn_if fun _ => keepsTurn_beside rfl
  | blindedClear _ _ => exact turns_of (fun _ => rfl) fun _ => keepsTurn_if fun _ => keepsTurn_beside rfl
  | bucketBoundary now =>
    exact turns_settles (now := now) (event := fun _ => []) (fun _ => rfl) fun _ => keepsTurn_beside rfl
  | escalated now => exact turns_escalated now
  | watchHoldExpiry now =>
    exact turns_settles (now := now) (event := fun _ => []) (fun _ => rfl) fun _ => keepsTurn_beside rfl
  | silent _ _ => exact turns_of (fun _ => rfl) fun _ => keepsTurn_if fun _ => keepsTurn_beside rfl
  | windowOpen now output => exact turns_windowOpen now output
  | windowClose now output => exact turns_windowClose now output
  | flowSwitchChange now output active => exact turns_flowSwitchChange now output active
  | confirmTimerExpiry now _ =>
    exact turns_settles (now := now) (event := fun _ => []) (fun _ => rfl) fun _ => keepsTurn_beside rfl
  | cutOff now _ => exact turns_settles (now := now) (event := fun _ => []) (fun _ => rfl) fun _ => keepsTurn_beside rfl
  | valveStuck now _ =>
    exact turns_settles (now := now) (event := fun _ => []) (fun _ => rfl) fun _ => keepsTurn_beside rfl
  | flowPulse _ => exact turns_of (fun _ => rfl) fun _ => keepsTurn_beside rfl
  | sampleComplete now => exact turns_sampleComplete now
  | periodicWindowStart _ => exact turns_of (fun _ => rfl) fun _ => keepsTurn_if fun _ => keepsTurn_beside rfl
  | startGraceExpiry now =>
    exact turns_settles (now := now) (event := fun _ => [.startFail]) (fun _ => rfl) fun _ => keepsTurn_beside rfl
  | gateFeedbackChange now active => exact turns_gateFeedbackChange now active
  | gateTimerExpiry now => exact turns_gateTimerExpiry now
  | rundownLimitExpiry now => exact turns_rundownLimitExpiry now
  | runningContactChange now active => exact turns_runningContactChange now active
  | contactorMismatch _ => exact turns_of (fun _ => rfl) fun _ => keepsTurn_if fun _ => keepsTurn_beside rfl
  | gateMismatch _ => exact turns_of (fun _ => rfl) fun _ => keepsTurn_if fun _ => keepsTurn_beside rfl
  | barrierFeedbackChange now output active => exact turns_barrierFeedbackChange now output active
  | travelTimerExpiry now output => exact turns_travelTimerExpiry now output
  | travelExhausted now output => exact turns_travelExhausted now output
  | damperWaitExpiry now output => exact turns_damperWaitExpiry now output
  | sirenFeedbackChange _ _ _ => exact turns_of (fun _ => rfl) fun _ => keepsTurn_if fun _ => keepsTurn_beside rfl
  | sirenFault _ _ => exact turns_of (fun _ => rfl) fun _ => keepsTurn_if fun _ => keepsTurn_beside rfl
  | cadenceLevelChange _ => exact turns_of (fun _ => rfl) fun _ => keepsTurn_beside rfl
  | resoundTimerExpiry _ => exact turns_of (fun _ => rfl) fun _ => keepsTurn_if fun _ => keepsTurn_beside rfl
  | allClearEnd _ _ => exact turns_of (fun _ => rfl) fun _ => keepsTurn_if fun _ => keepsTurn_beside rfl
  | supplySample now millivolts => exact turns_supplySample now millivolts
  | status _ _ => exact turns_of (fun _ => rfl) fun _ => keepsTurn_beside rfl
  | zones _ _ => exact turns_of (fun _ => rfl) fun _ => keepsTurn_beside rfl
  | peer _ _ => exact turns_of (fun _ => rfl) fun _ => keepsTurn_beside rfl
  | valve _ _ => exact turns_of (fun _ => rfl) fun _ => keepsTurn_beside rfl
  | barriers _ _ => exact turns_of (fun _ => rfl) fun _ => keepsTurn_beside rfl
  | sirens _ _ => exact turns_of (fun _ => rfl) fun _ => keepsTurn_beside rfl
  | fan _ _ => exact turns_of (fun _ => rfl) fun _ => keepsTurn_beside rfl
  | counters _ _ => exact turns_of (fun _ => rfl) fun _ => keepsTurn_beside rfl
  | takeRecord _ _ => exact turns_of (fun _ => rfl) fun _ => keepsTurn_beside rfl
  | takeRecordComplete _ => exact turns_of (fun _ => rfl) fun _ => keepsTurn_beside rfl
  | unknown _ _ _ => exact turns_of (fun _ => rfl) fun _ => keepsTurn_beside rfl
  | lineIdle _ _ => exact turns_of (fun _ => rfl) fun _ => keepsTurn_if fun _ => keepsTurn_beside rfl
  | checkError now line class_ rx => exact turns_checkError now line class_ rx
  | instantAged now => exact turns_instantAged now

theorem keepsTurn_step {s t : State} (h : step s = .next t) : KeepsTurn s t := by
  unfold step at h
  split at h
  · rename_i c rest _
    exact KeepsTurn.trans (keepsTurn_beside rfl) (turns_command c (s.withPending rest) t h)
  · cases h
    exact keepsTurn_beside rfl

/-- R120: the motor of a barrier that is driven runs. -/
theorem running_of_driven {s : State} {o : Output} (h : s.motorsInTurn) (motor : (s.role o).isMotor = true)
    (driven : s.drivenOutput o = true) : s.barriers.running = some o := by
  have on : s.barrierOn o = true := by
    unfold State.drivenOutput at driven
    cases role : s.role o with
    | shutter => rw [role] at driven; exact driven
    | damper => rw [role] at driven; exact driven
    | _ => rw [role] at motor; cases motor
  refine (h.closing o motor).mp ?_
  unfold State.barrierOn at on
  cases state : (s.barrier o).state with
  | closing => rfl
  | held =>
    rw [state] at on
    exact nomatch motor.symm.trans (isMotor_of_isMagnet on)
  | _ => rw [state] at on; cases on

/-- Settles O56: every command keeps both invariants, and a motor that is driven is the one that runs. -/
theorem motorsRunInTurn : Obligations.MotorsRunInTurn := by
  refine ⟨fun s t h e => (keepsTurn_step e).motors h, fun s t h e => (keepsTurn_step e).follow h,
    fun s o p h motorO motorP drivenO drivenP => ?_⟩
  have runs := running_of_driven h motorO drivenO
  refine ⟨Option.some.inj (runs.symm.trans (running_of_driven h motorP drivenP)), Bool.eq_false_iff.mpr fun low => ?_⟩
  rw [h.supply low] at runs
  cases runs

end Sys2Proof.Machine
end

section
/-! SUPPORT. A sample of the field supply (R133, R155, R156; O50): graded, judged for LOW, and the closing queue considered after a
change of LOW. -/

namespace Sys2Proof.Machine

section
variable {s : State} {o p : Output}

/-! ## The motor that LOW stops (R133) -/

theorem pauseRun_frame (s : State) : s.pauseRun = { s with barriers := s.pauseRun.barriers } := by
  cases running : s.barriers.running with
  | none => rw [pauseRun_idle running]
  | some o => rw [pauseRun_running running]

theorem pauseRun_queue (s : State) : s.pauseRun.barriers.running = none ∧
    s.pauseRun.barriers.queue = s.barriers.running.toList ++ s.barriers.queue := by
  cases running : s.barriers.running with
  | none =>
    rw [pauseRun_idle running]
    exact ⟨running, rfl⟩
  | some o =>
    rw [pauseRun_running running]
    exact ⟨rfl, rfl⟩

/-- R133: a barrier whose motor does not run stands. -/
theorem pauseRun_other (h : s.barriers.running ≠ some p) : s.pauseRun.barriers.units[p] = s.barrier p := by
  cases running : s.barriers.running with
  | none =>
    rw [pauseRun_idle running]
    rfl
  | some o =>
    rw [pauseRun_running running]
    exact barrier_put_other s o p _ _ _ fun e => h (e ▸ running)

/-- R133: the travel kept is what remains of the run, and the travel run so far grows by the part that ends. -/
theorem pause_eq {b : Barrier} {start stop : Time} (now : Time) (run : b.run = some (start, stop)) : b.pause now = { b with
    state := .queued
    kept := some (if reached now stop then 0 else (stop - now).toNat)
    ran := b.ran + (now - start).toNat
    run := none } := by
  unfold Barrier.pause Barrier.travelled
  rw [run]
  rfl

/-- R129, R133: the barriers alone change when LOW becomes set. -/
theorem paused_frame (s : State) :
    s.pauseRun.considerQueue = { s with barriers := s.pauseRun.considerQueue.barriers } := by
  have frame := considerQueue_frame s.pauseRun
  generalize s.pauseRun.considerQueue = u at frame ⊢
  rw [frame, pauseRun_frame s]

/-- What LOW set comes to at the barriers (R129, R131, R133): w is the state with LOW set, u the one after its consequences. -/
structure LowTaken (w u : State) : Prop where
  frame : u = { w with barriers := u.barriers }
  running : u.barriers.running = none
  queue : u.barriers.queue = w.barriers.running.toList ++ w.barriers.queue
  idle : w.barriers.running = none → u.considers w.barriers
  paused : ∀ (o : Output) (start stop : Time), w.barriers.running = some o → (w.barrier o).run = some (start, stop) →
    let paused : Barrier := { w.barrier o with
      state := .queued
      kept := some (if reached w.clock stop then 0 else (stop - w.clock).toNat)
      ran := (w.barrier o).ran + (w.clock - start).toNat
      run := none }
    u.considers ⟨put w.barriers.units o paused, o :: w.barriers.queue, none⟩ ∧
      u.barrier o = { paused with wait := (u.barrier o).wait } ∧
      ((w.barrier o).wait ≠ .idle → u.barrier o = paused)
  others : ∀ p : Output, w.barriers.running ≠ some p → p ∉ w.barriers.queue → u.barrier p = w.barrier p

theorem lowTaken (w : State) (low : w.supply.low = true) : LowTaken w w.pauseRun.considerQueue := by
  have considers := considerQueue_considers w.pauseRun
  have frame := paused_frame w
  obtain ⟨idle, queue⟩ := pauseRun_queue w
  generalize w.pauseRun.considerQueue = u at considers frame ⊢
  obtain ⟨running, stays, stands⟩ := considers.rest (.inr (.inr (.inl (by rw [frame]; exact low))))
  refine ⟨frame, running.trans idle, stays.trans queue, fun none_ => ?_, fun o start stop runs run => ?_,
    fun p other absent => ?_⟩
  · rw [pauseRun_idle none_] at considers
    exact considers
  · intro paused
    rw [pauseRun_running runs, pause_eq w.clock run] at considers stands
    have at_ : (put w.barriers.units o paused)[o] = paused := put_same ..
    have barrier : u.barrier o = { paused with wait := (u.barrier o).wait } := by rw [← at_]; exact stands o
    refine ⟨considers, barrier, fun busy => ?_⟩
    have wait : (u.barrier o).wait = paused.wait := by
      rw [← at_]
      exact considers.wait_stands (.inr fun idle => busy ((congrArg Barrier.wait at_).symm.trans idle))
    rw [barrier, wait]
  · rw [considers.outside, pauseRun_other other]
    rw [queue, List.mem_append, Option.mem_toList]
    exact fun m => m.elim other absent

/-! ## LOW (R155, R156) -/

theorem supplyLevel_sat16 (millivolts : Nat) : sat16 (supplyLevel millivolts) = BitVec.ofNat 16 (supplyLevel millivolts) := by
  have highest : supplyLevel millivolts ≤ 15 := by
    unfold supplyLevel
    split
    · exact Nat.zero_le _
    · exact Nat.min_le_left ..
  rw [sat16, Nat.min_eq_left (by omega)]

/-- R155: a sample at its instant is graded, and judged from the start of LISTEN on. -/
theorem exec_supplySample {now deadline : Time} (millivolts : Nat) (next : s.supply.next = some deadline)
    (past : reached now deadline = true) : exec (.supplySample now millivolts) s = .next (
      if s.started then ((s.takeAt now).gradeSupply (supplyLevel millivolts)).judgeSupply
      else (s.takeAt now).gradeSupply (supplyLevel millivolts)) :=
  congrArg answer (if_pos (due_reached next past))

/-- R156: one sample above the low level ends the count. -/
theorem judgeSupply_above (low : s.supply.low = false) (above : s.setup.supplyLow < s.supply.level) :
    s.judgeSupply = { s with supply := { s.supply with count := 0 } } := by
  unfold State.judgeSupply
  rw [low, if_neg Bool.false_ne_true, if_neg (Nat.not_le.mpr above)]

theorem judgeSupply_counts (low : s.supply.low = false) (below : s.supply.level ≤ s.setup.supplyLow)
    (count : s.supply.count < 3) : s.judgeSupply = { s with supply := { s.supply with count := s.supply.count + 1 } } := by
  unfold State.judgeSupply
  rw [low, if_neg Bool.false_ne_true, if_pos below, if_neg (by rw [Config.successive]; omega)]

theorem judgeSupply_falls (low : s.supply.low = false) (below : s.supply.level ≤ s.setup.supplyLow)
    (count : 3 ≤ s.supply.count) : s.judgeSupply = s.supplyFalls := by
  unfold State.judgeSupply
  rw [low, if_neg Bool.false_ne_true, if_pos below, if_pos (by rw [Config.successive]; omega)]

theorem judgeSupply_stays (low : s.supply.low = true) (below : s.supply.level < s.setup.supplyResume) :
    s.judgeSupply = s := by
  unfold State.judgeSupply
  rw [low, if_pos rfl, if_neg (Nat.not_le.mpr below)]

theorem judgeSupply_recovers (low : s.supply.low = true) (above : s.setup.supplyResume ≤ s.supply.level) :
    s.judgeSupply = s.supplyRecovers := by
  unfold State.judgeSupply
  rw [low, if_pos rfl, if_pos above]

end

/-- Settles O50: the branches of the judgement; after a change of LOW the queue is considered. -/
theorem supplySampled : Obligations.SupplySampled := by
  intro now deadline millivolts s due past level next
  have graded : exec (.supplySample now millivolts) s = .next (
      if s.started then ((s.takeAt now).gradeSupply level).judgeSupply else (s.takeAt now).gradeSupply level) :=
    exec_supplySample millivolts due past
  have sat : sat16 level = BitVec.ofNat 16 level := supplyLevel_sat16 millivolts
  clear_value level
  refine ⟨fun waits => ?waits, fun started low above => ?above, fun started low below count => ?counts,
    fun started low below count => ?falls, fun started low below => ?stays, fun started low above => ?recovers⟩
  case waits =>
    rw [graded, waits]
    rfl
  all_goals rw [graded, started, if_pos rfl]
  case above =>
    rw [judgeSupply_above (s := (s.takeAt now).gradeSupply level) low above]
    exact congrArg (fun low => Host.Outcome.next { s with clock := now, supply := ⟨level, 0, low, next⟩ }) low
  case counts =>
    rw [judgeSupply_counts (s := (s.takeAt now).gradeSupply level) low below count]
    exact congrArg (fun low => Host.Outcome.next { s with
      clock := now, supply := ⟨level, s.supply.count + 1, low, next⟩ }) low
  case falls =>
    have taken := lowTaken { s with
      clock := now
      supply := ⟨level, 0, true, next⟩
      record := s.record.file now ⟨.supplyLow, 0, sat16 level⟩
      flags := s.flags ||| Attention.supplyLow.mask } rfl
    rw [judgeSupply_falls (s := (s.takeAt now).gradeSupply level) low below count]
    refine ⟨_, _, rfl, fillOnChange_refilledFrom _, ?_, taken.running, taken.queue, taken.idle,
      taken.paused, taken.others⟩
    rw [← sat]
    exact taken.frame
  case stays =>
    rw [judgeSupply_stays (s := (s.takeAt now).gradeSupply level) low below]
    rfl
  case recovers =>
    obtain ⟨considers, frame⟩ := considerQueue_considered { s with
      clock := now
      supply := { s.supply with level := level, low := false, next := next }
      record := s.record.file now ⟨.supplyOk, 0, sat16 level⟩ }
    rw [judgeSupply_recovers (s := (s.takeAt now).gradeSupply level) low above]
    refine ⟨_, _, rfl, fillOnChange_refilledFrom _, ?_, considers, fun p => considers.outside,
      fun operating idle => considers.turn ?_ idle ?_⟩
    · rw [← sat]
      exact frame
    · rw [frame]
      exact operating
    · rw [frame]

end Sys2Proof.Machine
end

section
/-! SUPPORT. The timers of the barriers (R125, R129, R131, R132, R136; O47): a travel timer, a motor run that reaches its travel, and
a damper wait. -/

namespace Sys2Proof.Machine

section
variable {s : State} {o : Output} {now deadline start : Time}

theorem exec_travelTimerExpiry (magnet : (s.role o).isMagnet = true) (closing : (s.barrier o).state = .closing)
    (expired : due now (s.barrier o).travelTimer = true) : exec (.travelTimerExpiry now o) s = .next
      (((s.takeAt now).withBarrier o (s.barrier o).jam).fileJam o 0).fillOnChange := by
  have timely : (s.takeAt now).travelDue o = true := by
    rw [State.travelDue, Bool.and_eq_true, Bool.and_eq_true, beq_iff_eq]
    exact ⟨⟨magnet, closing⟩, expired⟩
  exact congrArg answer (if_pos timely)

/-- R132: a run that reaches its travel, with the part of the run that ends counted. -/
theorem exec_travelExhausted (running : s.barriers.running = some o) (run : (s.barrier o).run = some (start, deadline))
    (past : reached now deadline = true) : exec (.travelExhausted now o) s = .next
      (({ s with
        clock := now
        barriers := ⟨put s.barriers.units o { s.barrier o with ran := (s.barrier o).ran + (now - start).toNat }.jam,
          s.barriers.queue, none⟩
        record := s.record.file now (barrierFiling .barrierJammed o (s.barrier o).attempts)
        flags := s.flags ||| Attention.barrierFault.mask } : State).considerQueue.fillOnChange) := by
  have out : (s.takeAt now).travelOut o = true := by
    rw [State.travelOut, Bool.and_eq_true, beq_iff_eq]
    exact ⟨running, due_reached (congrArg (Option.map Prod.snd) run) past⟩
  have travelled : (s.barrier o).travelled now = (s.barrier o).ran + (now - start).toNat := by rw [Barrier.travelled, run]
  rw [← travelled]
  exact congrArg answer (if_pos out)

theorem exec_damperWaitExpiry (wait : (s.barrier o).wait = .running deadline) (past : reached now deadline = true) :
    exec (.damperWaitExpiry now o) s = .next
      ((s.takeAt now).withBarrier o { s.barrier o with wait := .expired }).considerQueue.fillOnChange := by
  have due_ : (s.takeAt now).waitDue o = true := by
    rw [State.waitDue, show ((s.takeAt now).barrier o).wait = _ from wait]
    exact past
  exact congrArg answer (if_pos due_)

/-- R129: with the motors in turn, a barrier that is not QUEUED stands when another barrier changes and the queue is considered. -/
theorem others_stand (s : State) {u : State} {b : Barrier} {r : Option Output} (h : s.motorsInTurn)
    (considers : u.considers ⟨put s.barriers.units o b, s.barriers.queue, r⟩) (p : Output) (other : p ≠ o)
    (rests : (s.barrier p).state ≠ .queued) : u.barrier p = s.barrier p :=
  (considers.outside (not_queued h p rests)).trans (barrier_put_other s o p b s.barriers.queue r other)

end

/-- Settles O47: each expiry is its barrier's own change; after the last two the queue is considered. -/
theorem barrierTimersExpire : Obligations.BarrierTimersExpire := by
  intro now deadline o s past b jammed
  refine ⟨fun magnet closing timer => ?magnet, fun start runs run turn => ?motor, fun wait turn => ?damper⟩
  case magnet =>
    exact ⟨_, exec_travelTimerExpiry magnet closing (due_reached timer past), fillOnChange_refilledFrom _⟩
  case motor =>
    obtain ⟨considers, frame⟩ := considerQueue_considered { s with
      clock := now
      barriers := ⟨put s.barriers.units o (jammed { b with ran := b.ran + (now - start).toNat }), s.barriers.queue, none⟩
      record := s.record.file now (barrierFiling .barrierJammed o b.attempts)
      flags := s.flags ||| Attention.barrierFault.mask }
    have operating := operating_of_running turn runs
    have absent : o ∉ s.barriers.queue := not_queued turn o (by rw [closing_of_running turn runs]; exact (nomatch ·))
    refine ⟨_, _, exec_travelExhausted runs run past, fillOnChange_refilledFrom _, frame, ?_, considers,
      others_stand s turn considers, fun e => (considers.runs_from e).elim (nomatch ·) absent, considers.turn ?_⟩
    · exact (considers.outside absent).trans (put_same ..)
    · rw [frame]
      exact operating
  case damper =>
    obtain ⟨considers, frame⟩ := considerQueue_considered ((s.takeAt now).withBarrier o { b with wait := .expired })
    have unit : (put s.barriers.units o { b with wait := .expired })[o] = { b with wait := .expired } := put_same ..
    have waits := (considers.wait_stands (p := o) (.inr ?_)).trans (congrArg Barrier.wait unit)
    refine ⟨_, _, exec_damperWaitExpiry wait past, fillOnChange_refilledFrom _, frame, waits, considers, ?_,
      others_stand s turn considers, fun p => considers.goes_on, fun operating idle low => considers.turn ?_ idle low⟩
    · rcases considers.cases with none_ | ⟨p, run⟩
      · refine .inl ((none_.stands o).trans ?_)
        rw [waits]
        exact congrArg (fun x : Barrier => { x with wait := .expired }) unit
      · by_cases e : o = p
        · subst e
          exact .inr ⟨((turn.queued o).mp run.member).2, run.running⟩
        · refine .inl ((run.stands o e).trans ?_)
          rw [waits]
          exact congrArg (fun x : Barrier => { x with wait := .expired }) unit
    · rw [frame]
      exact operating
    · exact fun idle => nomatch (congrArg Barrier.wait unit).symm.trans idle

end Sys2Proof.Machine
end

section
/-! SUPPORT. A barrier's feedback (R125 to R127, R132, R134; O46): what a barrier makes of it in each state, and the closing queue
considered after it. -/

namespace Sys2Proof.Machine

/-- One barrier changed with the queue and the running motor, with what is filed of it and the flags. -/
def State.fed (s : State) (o : Output) (b : Barrier) (q : List Output) (r : Option Output) (fs : List Filing)
    (m : BitVec 16) : State :=
  { s with barriers := ⟨put s.barriers.units o b, q, r⟩, record := s.record.fileAll s.clock fs, flags := m }

section
variable {s : State} {o : Output}

theorem fed_self (s : State) (o : Output) :
    s.fed o (s.barrier o) s.barriers.queue s.barriers.running [] s.flags = s := by
  unfold State.fed State.barrier
  rw [put_self]
  rfl

/-! ## What a barrier makes of its feedback -/

theorem barrierFeedback_motor (motor : (s.role o).isMotor = true) (active : Bool) :
    s.barrierFeedback o active = s.motorFeedback o active := if_pos motor

theorem barrierFeedback_magnet (magnet : (s.role o).isMagnet = true) (active : Bool) :
    s.barrierFeedback o active = s.magnetFeedback o active := by
  rw [State.barrierFeedback, isMotor_of_isMagnet magnet, if_neg Bool.false_ne_true, if_pos magnet]

theorem magnet_or_motor (barrier : (s.role o).isBarrier = true) :
    ((s.role o).isMagnet = true ∧ (s.role o).isMotor = false) ∨ (s.role o).isMotor = true := by
  rw [OutputRole.isBarrier, Bool.or_eq_true] at barrier
  exact barrier.imp_left fun magnet => ⟨magnet, isMotor_of_isMagnet magnet⟩

/-- R125, R132: a closing barrier is CLOSED, and the run of its motor ends. -/
theorem barrierFeedback_closing (barrier : (s.role o).isBarrier = true) (state : (s.barrier o).state = .closing) :
    s.barrierFeedback o true = s.fed o
      (if (s.role o).isMotor then { s.barrier o with ran := (s.barrier o).travelled s.clock }.close else (s.barrier o).close)
      s.barriers.queue (if (s.role o).isMotor then none else s.barriers.running)
      [barrierFiling .barrierClosed o
        (if (s.role o).isMotor then (s.barrier o).travelled s.clock / 100 else (s.barrier o).sinceRelease s.clock)]
      s.flags := by
  rcases magnet_or_motor barrier with ⟨magnet, other⟩ | motor
  · rw [barrierFeedback_magnet magnet, other]
    simp only [State.magnetFeedback, state]
    rfl
  · rw [barrierFeedback_motor motor, motor]
    simp only [State.motorFeedback, state]
    rfl

/-- R126, R132: a jammed barrier closes after all. -/
theorem barrierFeedback_jammed (barrier : (s.role o).isBarrier = true) (state : (s.barrier o).state = .jammed) :
    s.barrierFeedback o true = s.fed o (s.barrier o).close s.barriers.queue s.barriers.running
      [barrierFiling .barrierClosed o
        (if (s.role o).isMotor then (s.barrier o).ran / 100 else (s.barrier o).sinceRelease s.clock)] s.flags := by
  rcases magnet_or_motor barrier with ⟨magnet, other⟩ | motor
  · rw [barrierFeedback_magnet magnet, other]
    simp only [State.magnetFeedback, state]
    rfl
  · rw [barrierFeedback_motor motor, motor]
    simp only [State.motorFeedback, state]
    rfl

/-- R127: a QUEUED motor barrier that closes leaves the queue. -/
theorem barrierFeedback_queued (motor : (s.role o).isMotor = true) (state : (s.barrier o).state = .queued) :
    s.barrierFeedback o true = s.fed o (s.barrier o).close (leaveQueue o s.barriers.queue) s.barriers.running
      [barrierFiling .barrierClosed o 0] s.flags := by
  rw [barrierFeedback_motor motor]
  simp only [State.motorFeedback, state]
  rfl

/-- R126: a reopened MAGNET closes again. -/
theorem barrierFeedback_reopened (magnet : (s.role o).isMagnet = true) (state : (s.barrier o).state = .reopened) :
    s.barrierFeedback o true = s.fed o (s.barrier o).close s.barriers.queue s.barriers.running
      [barrierFiling .barrierClosed o 0] s.flags := by
  rw [barrierFeedback_magnet magnet]
  simp only [State.magnetFeedback, state]
  rfl

/-- R126, R134: a CLOSED barrier whose release condition does not hold is HELD again. -/
theorem barrierFeedback_holds (barrier : (s.role o).isBarrier = true) (state : (s.barrier o).state = .closed)
    (clear : s.releaseHolds o = false) : s.barrierFeedback o false =
      s.fed o (s.barrier o).hold s.barriers.queue s.barriers.running [] s.flags := by
  rcases magnet_or_motor barrier with ⟨magnet, -⟩ | motor
  · rw [barrierFeedback_magnet magnet]
    simp only [State.magnetFeedback, state, clear]
    rfl
  · rw [barrierFeedback_motor motor]
    simp only [State.motorFeedback, state, clear]
    rfl

/-- R126: a CLOSED MAGNET whose release condition holds is REOPENED. -/
theorem barrierFeedback_reopens (magnet : (s.role o).isMagnet = true) (state : (s.barrier o).state = .closed)
    (holds : s.releaseHolds o = true) : s.barrierFeedback o false =
      s.fed o (s.barrier o).reopen s.barriers.queue s.barriers.running [barrierFiling .barrierReopened o 0]
        (s.flags ||| Attention.barrierFault.mask) := by
  rw [barrierFeedback_magnet magnet]
  simp only [State.magnetFeedback, state, holds]
  rfl

/-- R134: a CLOSED motor barrier whose release condition holds closes again. -/
theorem barrierFeedback_requeues (motor : (s.role o).isMotor = true) (state : (s.barrier o).state = .closed)
    (holds : s.releaseHolds o = true) (attempts : (s.barrier o).attempts < 3) : s.barrierFeedback o false =
      s.fed o (s.barrier o).enqueue (s.enterQueue o s.barriers.queue) s.barriers.running
        [barrierFiling .barrierReopened o (s.barrier o).attempts] (s.flags ||| Attention.barrierFault.mask) := by
  rw [barrierFeedback_motor motor]
  simp only [State.motorFeedback, state, holds, State.reopenMotor, Config.closeRuns, attempts]
  rfl

/-- R134: after three attempts it is JAMMED. -/
theorem barrierFeedback_jams (motor : (s.role o).isMotor = true) (state : (s.barrier o).state = .closed)
    (holds : s.releaseHolds o = true) (attempts : ¬(s.barrier o).attempts < 3) : s.barrierFeedback o false =
      s.fed o (s.barrier o).jam s.barriers.queue s.barriers.running
        [barrierFiling .barrierReopened o (s.barrier o).attempts, barrierFiling .barrierJammed o (s.barrier o).attempts]
        (s.flags ||| Attention.barrierFault.mask) := by
  rw [barrierFeedback_motor motor]
  simp only [State.motorFeedback, state, holds, State.reopenMotor, Config.closeRuns, attempts]
  rfl

/-- R125 to R134: a barrier in this state acts on its feedback. -/
def BarrierState.acts (motor : Bool) : BarrierState → Bool → Bool
  | .closing, true => true
  | .jammed, true => true
  | .queued, true => motor
  | .reopened, true => !motor
  | .closed, false => true
  | _, _ => false

theorem acts_cases {motor active : Bool} {b : BarrierState} (h : b.acts motor active = true) :
    b = .closing ∧ active = true ∨ b = .jammed ∧ active = true ∨ b = .queued ∨
      b = .reopened ∧ active = true ∧ motor = false ∨ b = .closed ∧ active = false := by
  unfold BarrierState.acts at h
  split at h
  · exact .inl ⟨rfl, rfl⟩
  · exact .inr (.inl ⟨rfl, rfl⟩)
  · exact .inr (.inr (.inl rfl))
  · exact .inr (.inr (.inr (.inl ⟨rfl, rfl, by simpa using h⟩)))
  · exact .inr (.inr (.inr (.inr ⟨rfl, rfl⟩)))
  · cases h

theorem motorFeedback_still {active : Bool} (h : (s.barrier o).state.acts true active = false) :
    s.motorFeedback o active = s := by
  unfold State.motorFeedback
  simp only
  split
  case h_5 => rfl
  all_goals
    rename_i state
    rw [state] at h
    cases h

theorem magnetFeedback_still {active : Bool} (h : (s.barrier o).state.acts false active = false) :
    s.magnetFeedback o active = s := by
  unfold State.magnetFeedback
  simp only
  split
  case h_5 => rfl
  all_goals
    rename_i state
    rw [state] at h
    cases h

/-- R125 to R134: otherwise the feedback changes nothing. -/
theorem barrierFeedback_still {active : Bool} (h : (s.barrier o).state.acts (s.role o).isMotor active = false) :
    s.barrierFeedback o active = s := by
  unfold State.barrierFeedback
  split
  · rename_i motor
    exact motorFeedback_still (motor ▸ h)
  · rename_i magnet
    rw [Bool.eq_false_iff.mpr magnet] at h
    split
    · exact magnetFeedback_still h
    · rfl

/-- What a feedback leaves of every other barrier: it changes its own barrier, and no other joins the queue. -/
def State.fedFrom (s : State) (o : Output) (r : State) : Prop := ∃ b q run fs m,
  r = s.fed o b q run fs m ∧ ∀ p : Output, p ≠ o → p ∈ q → p ∈ s.barriers.queue

theorem fedFrom_refl (s : State) (o : Output) : s.fedFrom o s := ⟨_, _, _, _, _, (fed_self s o).symm, fun _ _ m => m⟩

theorem fedFrom_hold (s : State) (o : Output) (b : Barrier) : s.fedFrom o (s.withBarrier o b) :=
  ⟨b, _, _, [], _, rfl, fun _ _ m => m⟩

theorem motorFeedback_fedFrom (s : State) (o : Output) (active : Bool) : s.fedFrom o (s.motorFeedback o active) := by
  unfold State.motorFeedback State.reopenMotor
  simp only
  repeat' split
  case h_1 => exact ⟨_, _, _, _, _, rfl, fun p _ m => ((mem_leaveQueue ..).mp m).1⟩
  case h_4.isTrue.isTrue => exact ⟨_, _, _, _, _, rfl, fun p other m => ((mem_enterQueue ..).mp m).resolve_left other⟩
  case h_4.isFalse => exact fedFrom_hold ..
  case h_5 => exact fedFrom_refl s o
  all_goals exact ⟨_, _, _, _, _, rfl, fun _ _ m => m⟩

theorem magnetFeedback_fedFrom (s : State) (o : Output) (active : Bool) : s.fedFrom o (s.magnetFeedback o active) := by
  unfold State.magnetFeedback
  simp only
  repeat' split
  case h_4.isFalse => exact fedFrom_hold ..
  case h_5 => exact fedFrom_refl s o
  all_goals exact ⟨_, _, _, _, _, rfl, fun _ _ m => m⟩

theorem barrierFeedback_fedFrom (s : State) (o : Output) (active : Bool) : s.fedFrom o (s.barrierFeedback o active) := by
  unfold State.barrierFeedback
  split
  · exact motorFeedback_fedFrom s o active
  · split
    · exact magnetFeedback_fedFrom s o active
    · exact fedFrom_refl s o

/-- R134: a CLOSED motor barrier that loses its feedback with its release condition holding is QUEUED, while attempts are left. -/
theorem barrierFeedback_closed_queue (barrier : (s.role o).isBarrier = true) (state : (s.barrier o).state = .closed) :
    (s.barrierFeedback o false).barriers.running = s.barriers.running ∧
      if s.releaseHolds o = true ∧ (s.role o).isMotor = true ∧ (s.barrier o).attempts < 3 then
        (s.barrierFeedback o false).barriers.units[o] = (s.barrier o).enqueue ∧
          (s.barrierFeedback o false).barriers.queue = s.enterQueue o s.barriers.queue
      else (s.barrierFeedback o false).barriers.queue = s.barriers.queue := by
  by_cases holds : s.releaseHolds o = true
  · rcases magnet_or_motor barrier with ⟨magnet, other⟩ | motor
    · rw [barrierFeedback_reopens magnet state holds, if_neg fun h => Bool.eq_false_iff.mp other h.2.1]
      exact ⟨rfl, rfl⟩
    · by_cases attempts : (s.barrier o).attempts < 3
      · rw [barrierFeedback_requeues motor state holds attempts, if_pos ⟨holds, motor, attempts⟩]
        exact ⟨rfl, put_same .., rfl⟩
      · rw [barrierFeedback_jams motor state holds attempts, if_neg fun h => attempts h.2.2]
        exact ⟨rfl, rfl⟩
  · rw [barrierFeedback_holds barrier state (Bool.eq_false_iff.mpr holds), if_neg fun h => holds h.1]
    exact ⟨rfl, rfl⟩

/-- A feedback in any other state leaves the queue and the running motor. -/
theorem barrierFeedback_queue_stands {active : Bool} (barrier : (s.role o).isBarrier = true)
    (closing : (s.barrier o).state = .closing → active = true → False) (queued : (s.barrier o).state ≠ .queued)
    (closed : (s.barrier o).state = .closed → active = false → False) :
    (s.barrierFeedback o active).barriers.queue = s.barriers.queue ∧
      (s.barrierFeedback o active).barriers.running = s.barriers.running := by
  cases acts : (s.barrier o).state.acts (s.role o).isMotor active with
  | false =>
    rw [barrierFeedback_still acts]
    exact ⟨rfl, rfl⟩
  | true =>
    rcases acts_cases acts with ⟨state, rfl⟩ | ⟨state, rfl⟩ | state | ⟨state, rfl, other⟩ | ⟨state, rfl⟩
    · exact (closing state rfl).elim
    · rw [barrierFeedback_jammed barrier state]
      exact ⟨rfl, rfl⟩
    · exact absurd state queued
    · have magnet := (magnet_or_motor barrier).resolve_right (Bool.eq_false_iff.mp other)
      rw [barrierFeedback_reopened magnet.1 state]
      exact ⟨rfl, rfl⟩
    · exact (closed state rfl).elim

/-! ## The queue considered after it -/

/-- R125 to R134: the state in which a feedback has been taken, before the queue is considered. -/
def State.feedbackTaken (s : State) (now : Time) (o : Output) (active : Bool) : State :=
  ((s.takeAt now).setFeedback o active).barrierFeedback o active

theorem feedbackTaken_fedFrom (s : State) (now : Time) (o : Output) (active : Bool) :
    ((s.takeAt now).setFeedback o active).fedFrom o (s.feedbackTaken now o active) := barrierFeedback_fedFrom ..

theorem exec_barrierFeedbackChange (now : Time) {active : Bool} (barrier : (s.role o).isBarrier = true)
    (permitted : s.permitted = true) (other : s.feedback o = !active) : exec (.barrierFeedbackChange now o active) s = .next (
      if s.operating then (s.feedbackTaken now o active).considerQueue.fillOnChange
      else (s.takeAt now).setFeedback o active) := by
  have used : (s.role o).isNone = false := by
    cases role : s.role o with
    | none => rw [role] at barrier; cases barrier
    | _ => rfl
  exact congrArg answer (if_pos (takesFeedback_of (s := s.takeAt now) barrier used permitted other))

section
variable {w u : State} {b : Barrier} {q : List Output} {r : Option Output} {fs : List Filing} {m : BitVec 16}

/-- A barrier that does not wait in the queue stands as its feedback left it, with what was filed. -/
theorem fed_considered (h : w = s.fed o b q r fs m) (absent : o ∉ q) :
    w.considerQueue.barrier o = b ∧ w.considerQueue.record = s.record.fileAll s.clock fs ∧ w.considerQueue.flags = m := by
  obtain ⟨considers, frame⟩ := considerQueue_considered w
  refine ⟨?_, ?_, ?_⟩
  · rw [considers.outside (by rw [h]; exact absent), h]
    exact put_same ..
  · rw [frame, h]
    rfl
  · rw [frame, h]
    rfl

theorem feedbackTaken_still {now : Time} {active : Bool}
    (h : (s.barrier o).state.acts (s.role o).isMotor active = false) :
    s.feedbackTaken now o active = (s.takeAt now).setFeedback o active :=
  barrierFeedback_still (s := (s.takeAt now).setFeedback o active) h

/-- A barrier that makes nothing of its feedback, and does not wait in the queue, stands as it was. -/
theorem unfed_considered {now : Time} {active : Bool} (h : (s.barrier o).state.acts (s.role o).isMotor active = false)
    (absent : o ∉ s.barriers.queue) : (s.feedbackTaken now o active).considerQueue.barrier o = s.barrier o ∧
      (s.feedbackTaken now o active).considerQueue.record = s.record ∧
        (s.feedbackTaken now o active).considerQueue.flags = s.flags :=
  fed_considered ((feedbackTaken_still h).trans (fed_self _ o).symm) absent

end

theorem sinceRelease_eq (now : Time) (b : Barrier) : b.sinceRelease now = (match b.released with
    | some i => i.elapsed now / 100
    | none => 0) := by
  unfold Barrier.sinceRelease
  cases b.released with
  | none => exact Nat.zero_div 100
  | some _ => rfl

end

/-- Settles O46: what a barrier makes of its feedback, state by state; then the queue is considered. -/
theorem barrierFeedbackTaken : Obligations.BarrierFeedbackTaken := by
  intro now o active s barrier permitted other turn b inputs closed held since ran
  have taken := exec_barrierFeedbackChange now barrier permitted other
  refine ⟨fun waits => ?waits, fun operating => ?operates⟩
  case waits =>
    rw [taken, waits]
    rfl
  case operates =>
    have took := (keepsTurn_takeAt s now).trans (keepsTurn_setFeedback o _ active)
    have fedTurn : (s.feedbackTaken now o active).motorsInTurn :=
      (took.trans (keepsTurn_barrierFeedback (s := (s.takeAt now).setFeedback o active) o operating active)).motors turn
    obtain ⟨considers, frame⟩ := considerQueue_considered (s.feedbackTaken now o active)
    obtain ⟨b', q, run, fs, m, fed, joins⟩ := feedbackTaken_fedFrom s now o active
    have others (p : Output) (e : p ≠ o) : (s.feedbackTaken now o active).barriers.units[p] = s.barrier p := by
      rw [fed]
      exact barrier_put_other s o p b' q run e
    have absent (rests : b.state ≠ .queued) : o ∉ s.barriers.queue := not_queued turn o rests
    have since_eq : Barrier.sinceRelease now (s.barrier o) = since := sinceRelease_eq now b
    refine ⟨_, (s.feedbackTaken now o active).considerQueue, by rw [taken, if_pos operating],
      fillOnChange_refilledFrom _, ?frame, ⟨_, considers, ?order, others, ?queue⟩, fun p e rests => ?stand,
      considers.turn ?operates, ?own⟩
    case frame =>
      rw [frame, fed]
      rfl
    case operates =>
      rw [frame, fed]
      exact operating
    case order =>
      rw [frame]
      exact fedTurn.order
    case stand =>
      refine (considers.outside fun m => not_queued turn p rests (joins p e ?_)).trans (others p e)
      rw [fed] at m
      exact m
    case queue =>
      split
      next state =>
        have e := barrierFeedback_closing (s := (s.takeAt now).setFeedback o true) barrier state
        unfold State.feedbackTaken
        rw [e]
        exact ⟨put_same .., rfl, rfl⟩
      next state =>
        intro motor
        have e := barrierFeedback_queued (s := (s.takeAt now).setFeedback o true) motor state
        unfold State.feedbackTaken
        rw [e]
        exact ⟨put_same .., rfl, rfl⟩
      next state =>
        obtain ⟨running, queue⟩ := barrierFeedback_closed_queue (s := (s.takeAt now).setFeedback o false) barrier state
        refine ⟨running, ?_⟩
        split
        next again =>
          obtain ⟨unit, queue⟩ := (if_pos again).mp queue
          unfold State.feedbackTaken
          rw [queue]
          exact ⟨unit, perm_enterQueue .., sublist_enterQueue ..⟩
        next rests => exact (if_neg rests).mp queue
      next state =>
        rw [feedbackTaken_still (congrArg (BarrierState.acts _ · _) state)]
        rfl
      next active _ _ closing queued closed queued' =>
        refine barrierFeedback_queue_stands (s := (s.takeAt now).setFeedback o active) barrier closing ?_ closed
        intro state
        cases active
        · exact queued' state rfl
        · exact queued state rfl
    case own =>
      split
      next state =>
        have e := fed_considered (barrierFeedback_closing (s := (s.takeAt now).setFeedback o true) barrier state)
          (absent fun e => nomatch state.symm.trans e)
        rw [← since_eq]
        exact e
      next state =>
        have e := fed_considered (barrierFeedback_jammed (s := (s.takeAt now).setFeedback o true) barrier state)
          (absent fun e => nomatch state.symm.trans e)
        rw [← since_eq]
        exact e
      next state =>
        intro motor
        have e := barrierFeedback_queued (s := (s.takeAt now).setFeedback o true) motor state
        have leaves : o ∉ leaveQueue o s.barriers.queue := fun m => ((mem_leaveQueue ..).mp m).2 rfl
        obtain ⟨unit, record, flags⟩ := fed_considered e leaves
        refine ⟨unit, fun m => leaves ?_, record, flags⟩
        have m := considers.queue_subset m
        unfold State.feedbackTaken at m
        rw [e] at m
        exact m
      next state =>
        intro magnet
        exact fed_considered (barrierFeedback_reopened (s := (s.takeAt now).setFeedback o true) magnet state)
          (absent fun e => nomatch state.symm.trans e)
      next state =>
        have absent := absent fun e => nomatch state.symm.trans e
        split
        next clear =>
          exact fed_considered
            (barrierFeedback_holds (s := (s.takeAt now).setFeedback o false) barrier state clear) absent
        next holds =>
          have holds := Bool.eq_true_of_not_eq_false holds
          split
          next other =>
            have magnet := (magnet_or_motor barrier).resolve_right (Bool.eq_false_iff.mp other)
            obtain ⟨unit, record, flags⟩ := fed_considered
              (barrierFeedback_reopens (s := (s.takeAt now).setFeedback o false) magnet.1 state holds) absent
            exact ⟨flags, unit, record⟩
          next motor =>
            have motor := Bool.eq_true_of_not_eq_false motor
            split
            next attempts =>
              have e := barrierFeedback_requeues (s := (s.takeAt now).setFeedback o false) motor state holds attempts
              have e : s.feedbackTaken now o false = _ := e
              refine ⟨?_, considers.entry ?_ ?_, ?_⟩
              · rw [frame, e]
                rfl
              · rw [e]
                exact (mem_enterQueue ..).mpr (.inl rfl)
              · rw [e]
                exact congrArg Barrier.state (put_same ..)
              · rw [frame, e]
                rfl
            next attempts =>
              obtain ⟨unit, record, flags⟩ := fed_considered
                (barrierFeedback_jams (s := (s.takeAt now).setFeedback o false) motor state holds attempts) absent
              exact ⟨flags, unit, record⟩
      case h_12 state =>
        rw [frame, feedbackTaken_still (congrArg (BarrierState.acts _ · _) state)]
        exact ⟨rfl, rfl⟩
      all_goals
        rename_i state
        exact unfed_considered (congrArg (BarrierState.acts _ · _) state) (absent fun e => nomatch state.symm.trans e)

end Sys2Proof.Machine
end

section
/-! SUPPORT. What a siren output's list, pattern and level say of the zones it covers (R137, R139 to R145; O59): the order of a
claims list, how the properties of an output pass from one state of it to another, and the consequences of an event. -/

namespace Sys2Proof.Machine

/-! ## The order of a claims list (R140) -/

/-- R140: no claim of a list stands before one of a higher level. -/
def levelsFall (cs : List Claim) : Prop := cs.Pairwise fun c d => c.level.atLeast d.level = true

theorem atLeast_iff {x y : Level} : x.atLeast y = true ↔ y.code ≤ x.code := decide_eq_true_iff

/-- R140: the order of two claims follows their levels. -/
theorem before_level {c d : Claim} :
    (c.before d = true → c.level.atLeast d.level = true) ∧ (c.before d = false → d.level.atLeast c.level = true) := by
  rw [atLeast_iff, atLeast_iff, Claim.before]
  split
  · rw [decide_eq_true_iff, decide_eq_false_iff_not]
    omega
  · omega

theorem insertClaim_levels (c : Claim) {cs : List Claim} (h : levelsFall cs) : levelsFall (insertClaim c cs) := by
  induction cs with
  | nil => exact List.pairwise_singleton _ c
  | cons d ds ih =>
    obtain ⟨above, rest⟩ := List.pairwise_cons.mp h
    rw [insertClaim]
    split
    next before =>
      refine List.pairwise_cons.mpr ⟨fun e m => ?_, ih rest⟩
      rcases (mem_insertClaim ..).mp m with new | old
      · exact new ▸ before_level.1 before
      · exact above e old
    next after =>
      have least := before_level.2 (Bool.eq_false_iff.mpr after)
      refine List.pairwise_cons.mpr ⟨fun e m => ?_, h⟩
      rcases List.mem_cons.mp m with first | later
      · exact first ▸ least
      · exact atLeast_iff.mpr (Nat.le_trans (atLeast_iff.mp (above e later)) (atLeast_iff.mp least))

/-- R140: a list put in order has the higher levels first. -/
theorem orderClaims_levels (cs : List Claim) : levelsFall (orderClaims cs) := by
  have fold (acc : List Claim) (h : levelsFall acc) : levelsFall (cs.foldl (fun acc c => insertClaim c acc) acc) := by
    induction cs generalizing acc with
    | nil => exact h
    | cons c cs ih => exact ih _ (insertClaim_levels c h)
  exact fold [] List.Pairwise.nil

theorem claimsFor_levels (s : State) (o : Output) : levelsFall (s.claimsFor o) := orderClaims_levels _

theorem levelsFall_map {f : Claim → Claim} (same : ∀ c, (f c).level = c.level) {cs : List Claim} (h : levelsFall cs) :
    levelsFall (cs.map f) :=
  List.pairwise_map.mpr (h.imp fun {c d} e => by rw [same c, same d]; exact e)

/-! ## One output -/

/-- R140 to R143, R145: the claims of an output answer the levels of the zones that it covers. -/
structure Siren.answers (u : Siren) (covered : ZoneSet) (level : Zone → Level) : Prop where
  levels : ∀ c ∈ u.claims, hasZone covered c.zone = true ∧ c.level = level c.zone ∧ c.level.atLeast .storm = true
  claimed : ∀ z : Zone, hasZone covered z = true → (level z).atLeast .storm = true → ∃ c ∈ u.claims, c.zone = z
  order : levelsFall u.claims
  heard : ∀ c ∈ u.claims, c.level = .evacuate → c.silenced = false
  alone : u.allClear.isSome = true → u.claims = []

/-- R139, R142: an output sounds the pattern that its list gives; it is on with STEADY and off with none. -/
structure Siren.sounding (u : Siren) : Prop where
  pattern : u.pattern = u.chosen
  steady : u.pattern = .steady → u.driven = true
  silent : u.pattern = .none → u.driven = false

/-- R137: an output before OPERATING. -/
def Siren.waiting (u : Siren) : Prop := u.claims = [] ∧ u.allClear = none ∧ u.pattern = .none ∧ u.driven = false

/-- R140: claims kept, but for what the zones do not decide. -/
theorem Siren.answers.map {u v : Siren} {covered : ZoneSet} {level : Zone → Level} (h : u.answers covered level)
    {f : Claim → Claim} (claims : v.claims = u.claims.map f) (same : ∀ c, (f c).zone = c.zone ∧ (f c).level = c.level)
    (heard : ∀ c, c.level = .evacuate → c.silenced = false → (f c).silenced = false)
    (alone : v.allClear.isSome = true → u.allClear.isSome = true) : v.answers covered level where
  levels c m := by
    rw [claims] at m
    obtain ⟨d, member, rfl⟩ := List.mem_map.mp m
    rw [(same d).1, (same d).2]
    exact h.levels d member
  claimed z hz hl := by
    obtain ⟨d, member, e⟩ := h.claimed z hz hl
    rw [claims]
    exact ⟨f d, List.mem_map_of_mem member, (same d).1.trans e⟩
  order := by
    rw [claims]
    exact levelsFall_map (fun c => (same c).2) h.order
  heard c m e := by
    rw [claims] at m
    obtain ⟨d, member, rfl⟩ := List.mem_map.mp m
    rw [(same d).2] at e
    exact heard d e (h.heard d member e)
  alone e := by rw [claims, h.alone (alone e), List.map_nil]

/-- R142: an unsilenced claim at EVACUATE gives STEADY. -/
theorem chosen_steady {u : Siren} (order : levelsFall u.claims) {c : Claim} (m : c ∈ u.claims) (level : c.level = .evacuate)
    (heard : c.silenced = false) : u.chosen = .steady := by
  have found : (u.claims.find? fun c => !c.silenced).isSome = true :=
    List.find?_isSome.mpr ⟨c, m, by rw [heard]; rfl⟩
  obtain ⟨d, first⟩ := Option.isSome_iff_exists.mp found
  obtain ⟨-, before, behind, split, silenced⟩ := List.find?_eq_some_iff_append.mp first
  have highest : d.level.atLeast .evacuate = true := by
    rw [split] at m order
    rcases List.mem_append.mp m with earlier | later
    · have contrary := silenced c earlier
      rw [heard] at contrary
      cases contrary
    · rcases List.mem_cons.mp later with same | after
      · rw [← same, level]
        rfl
      · exact level ▸ (List.pairwise_cons.mp (List.pairwise_append.mp order).2.1).1 c after
  have top : d.level = .evacuate := by
    revert highest
    cases d.level <;> decide
  simp only [Siren.chosen, first, top, Level.pattern]

/-- An output that holds the claims, the pattern and, with STEADY and with none, the level of another. -/
structure Siren.SoundsAs (u v : Siren) : Prop where
  claims : ∃ f : Claim → Instant, v.claims = u.claims.map fun c => { c with since := f c }
  allClear : v.allClear.isSome = u.allClear.isSome
  pattern : v.pattern = u.pattern
  steady : u.pattern = .steady → u.driven = true → v.driven = true
  silent : u.pattern = .none → u.driven = false → v.driven = false

section
variable {u v : Siren}

theorem Siren.SoundsAs.of_eq (claims : v.claims = u.claims) (allClear : v.allClear = u.allClear)
    (pattern : v.pattern = u.pattern) (driven : v.driven = u.driven) : u.SoundsAs v where
  claims := ⟨Claim.since, by rw [claims, List.map_id']⟩
  allClear := by rw [allClear]
  pattern := pattern
  steady _ := driven.trans
  silent _ := driven.trans

theorem Siren.SoundsAs.refl (u : Siren) : u.SoundsAs u := .of_eq rfl rfl rfl rfl

theorem Siren.SoundsAs.chosen (h : u.SoundsAs v) : v.chosen = u.chosen := by
  obtain ⟨f, claims⟩ := h.claims
  unfold Siren.chosen
  rw [claims, List.find?_map, h.allClear]
  show (match (u.claims.find? fun c => !c.silenced).map (fun c => { c with since := f c }) with
    | some c => c.level.pattern
    | none => _) = _
  cases u.claims.find? fun c => !c.silenced <;> rfl

theorem Siren.SoundsAs.answers (h : u.SoundsAs v) {covered : ZoneSet} {level : Zone → Level} (a : u.answers covered level) :
    v.answers covered level := by
  obtain ⟨f, claims⟩ := h.claims
  exact a.map claims (fun _ => ⟨rfl, rfl⟩) (fun _ _ => id) h.allClear.symm.trans

theorem Siren.SoundsAs.sounding (h : u.SoundsAs v) (a : u.sounding) : v.sounding where
  pattern := by rw [h.pattern, h.chosen, a.pattern]
  steady e := h.steady (h.pattern ▸ e) (a.steady (h.pattern ▸ e))
  silent e := h.silent (h.pattern ▸ e) (a.silent (h.pattern ▸ e))

theorem Siren.SoundsAs.waiting (h : u.SoundsAs v) (a : u.waiting) : v.waiting := by
  obtain ⟨f, claims⟩ := h.claims
  obtain ⟨empty, noAllClear, pattern, driven⟩ := a
  have allClear := h.allClear
  rw [noAllClear] at allClear
  exact ⟨by rw [claims, empty, List.map_nil], Option.isNone_iff_eq_none.mp (by simpa using allClear),
    h.pattern.trans pattern, h.silent pattern driven⟩

/-- R138: an output that keeps its pattern, and its level but for a pulse pattern or an ALL_CLEAR. -/
theorem drive_soundsAs (now : Time) (level feedback : Bool) (steady : u.pattern = .steady → u.driven = true → level = true)
    (silent : u.pattern = .none → u.driven = false → level = false) : u.SoundsAs (u.drive now u.pattern level feedback) where
  claims := (Siren.SoundsAs.refl u).claims
  allClear := rfl
  pattern := rfl
  steady := steady
  silent := silent

end

/-! ## The outputs of a station -/

section
variable {s t u : State}

theorem sirensAnswer_of
    (answer : s.operating = true → ∀ o : Output, (s.role o).isSiren = true →
      (s.sirens.units[o]).answers (s.role o).covered s.zoneLevel ∧ (s.sirens.units[o]).sounding)
    (wait : s.operating = false → ∀ o : Output, (s.sirens.units[o]).waiting) : s.sirensAnswer where
  answer going o siren := by
    obtain ⟨a, b⟩ := answer going o siren
    exact ⟨a.levels, a.claimed, a.order, a.heard, a.alone, b.pattern, b.steady, b.silent⟩
  wait := wait

theorem State.sirensAnswer.claims (h : s.sirensAnswer) (going : s.operating = true) (o : Output)
    (siren : (s.role o).isSiren = true) : (s.sirens.units[o]).answers (s.role o).covered s.zoneLevel := by
  have a := h.answer going o siren
  exact ⟨a.levels, a.claimed, a.order, a.heard, a.alone⟩

theorem State.sirensAnswer.sounds (h : s.sirensAnswer) (going : s.operating = true) (o : Output)
    (siren : (s.role o).isSiren = true) : (s.sirens.units[o]).sounding := by
  have a := h.answer going o siren
  exact ⟨a.pattern, a.steady, a.silent⟩

/-- R139, R142: after a choice of patterns an output sounds the pattern that its list gives. -/
theorem State.patternsChosen.sounding (h : s.patternsChosen t) (going : t.operating = true) (o : Output)
    (siren : (t.role o).isSiren = true) : (t.sirens.units[o]).sounding := by
  obtain ⟨pattern, driven⟩ := h.pattern going o siren
  exact ⟨pattern, fun e => by rw [driven, e]; rfl, fun e => by rw [driven, e]; rfl⟩

/-- R140, R141: claims that have followed the zones answer them. -/
theorem State.claimsFollow.answers {o : Output} (h : s.claimsFollow t o) (order : levelsFall t.sirens.units[o].claims)
    (heard : ∀ c ∈ t.sirens.units[o].claims, c.level = .evacuate → c.silenced = false) :
    (t.sirens.units[o]).answers (t.role o).covered t.zoneLevel where
  levels := h.levels
  claimed := h.claimed
  order := order
  heard := heard
  alone e := by
    by_contra claims
    rw [h.allClear claims] at e
    cases e

/-- What a change leaves of the answers of the siren outputs. -/
def KeepsSirens (s t : State) : Prop := s.sirensAnswer → t.sirensAnswer

theorem KeepsSirens.refl (s : State) : KeepsSirens s s := id

theorem KeepsSirens.trans (h : KeepsSirens s t) (h' : KeepsSirens t u) : KeepsSirens s u := h' ∘ h

/-- R137 to R145: a state whose outputs sound as those of another, with the same start phase, configuration and zones. -/
theorem keepsSirens_sounding (phase : t.start.phase = s.start.phase) (setup : t.setup = s.setup) (zones : t.zones = s.zones)
    (same : ∀ o : Output, (s.sirens.units[o]).SoundsAs t.sirens.units[o]) : KeepsSirens s t := fun h => by
  have operating : t.operating = s.operating := by rw [State.operating, phase]; rfl
  have role : t.role = s.role := by funext o; rw [State.role, setup]; rfl
  have level : t.zoneLevel = s.zoneLevel := by funext z; rw [State.zoneLevel, zones]; rfl
  refine sirensAnswer_of (fun going o siren => ?_) fun waits o => (same o).waiting (h.wait (operating ▸ waits) o)
  rw [operating] at going
  rw [role] at siren ⊢
  rw [level]
  exact ⟨(same o).answers (h.claims going o siren), (same o).sounding (h.sounds going o siren)⟩

/-- What the answers of the siren outputs are read from. -/
structure BesideSirens (s t : State) : Prop where
  phase : t.start.phase = s.start.phase
  setup : t.setup = s.setup
  zones : t.zones = s.zones
  units : t.sirens.units = s.sirens.units

/-- A change of the parts that the answers do not read. -/
theorem keepsSirens_beside (h : BesideSirens s t) : KeepsSirens s t :=
  keepsSirens_sounding h.phase h.setup h.zones fun o => by rw [h.units]; exact .refl _

theorem KeepsSirens.after (h : KeepsSirens t u) (beside : BesideSirens s t) : KeepsSirens s u :=
  (keepsSirens_beside beside).trans h

/-- Consequences that leave the siren outputs. -/
theorem keepsSirens_consumes (c : Consumes s t) (sirens : t.sirens = s.sirens) : KeepsSirens s t :=
  keepsSirens_beside ⟨congrArg Start.phase c.start, c.setup, c.zones, congrArg Sirens.units sirens⟩

/-- R137: before OPERATING an output waits, whatever else changes. -/
theorem keepsSirens_waits (before : s.operating = false) (after : t.operating = false)
    (units : t.sirens.units = s.sirens.units) : KeepsSirens s t := fun h =>
  sirensAnswer_of (fun going => nomatch after.symm.trans going) fun _ o => by
    rw [units]
    exact h.wait before o

/-! ## The consequences of an event -/

/-- R140: the list that an event leaves is in order. -/
theorem settleWith_levels (u : State) (event : List Cause) (going : u.operating = true) (o : Output)
    (siren : (u.role o).isSiren = true) : levelsFall (u.settleWith event).sirens.units[o].claims := by
  have kept := (settleWith_follows u event).toKeeps
  generalize judged : (u.recomposeOwn.recomputeZones.chooseViews.judgeExtraction event).judgeBarriers = w
  have settled : u.settleWith event = w.judgeSirens.fillOnChange := by rw [← judged]; rfl
  have operating : w.operating = true := by
    have same := kept.operating
    rw [settled] at same
    exact same.trans going
  have role : (w.role o).isSiren = true := by
    have same := kept.role o
    rw [settled] at same
    exact (congrArg OutputRole.isSiren same).trans siren
  obtain ⟨claims, -⟩ := choosePatterns_unit_kept w.followZones o
  rw [settled, fillOnChange_frame]
  show levelsFall w.followZones.choosePatterns.sirens.units[o].claims
  rw [claims, followZones_unit, if_pos (Bool.and_eq_true_iff.mpr ⟨operating, role⟩)]
  exact claimsFor_levels w o

/-- R140 to R142: the consequences of an event leave every output answering its zones. -/
theorem settleWith_answers (event : List Cause)
    (heard : u.operating = true → ∀ o : Output, (u.role o).isSiren = true →
      ∀ c ∈ u.sirens.units[o].claims, c.level = .evacuate → c.silenced = false)
    (wait : u.operating = false → ∀ o : Output, (u.sirens.units[o]).waiting) : (u.settleWith event).sirensAnswer := by
  have kept := (settleWith_follows u event).toKeeps
  have settled := (settleWith_settledFrom u event).sirens
  refine sirensAnswer_of (fun going o siren => ⟨?_, settled.chosen.sounding going o siren⟩) fun waits o => ?_
  · have before : u.operating = true := kept.operating ▸ going
    have role : (u.role o).isSiren = true := kept.role o ▸ siren
    refine (settled.claims going o siren).answers (settleWith_levels u event before o role) fun c m level => ?_
    have silenced := settled.silenced going o siren c m
    split at silenced
    next => exact silenced
    next d found =>
      have member := List.mem_of_find?_eq_some found
      by_cases same : d.level = .evacuate
      · rw [silenced, heard before o role d member same, Bool.false_and]
      · have risen : d.level.code < c.level.code := by
          rw [level]
          revert same
          cases d.level <;> decide
        rw [silenced, decide_eq_true risen, Bool.not_true, Bool.and_false]
  · rw [settled.stand o (.inl waits)]
    exact wait (kept.operating ▸ waits) o

theorem KeepsSirens.settled (h : KeepsSirens s u) (event : List Cause) : KeepsSirens s (u.settleWith event) := fun a =>
  settleWith_answers event (fun going o siren => ((h a).claims going o siren).heard) (h a).wait

theorem KeepsSirens.settles (h : KeepsSirens s u) : KeepsSirens s u.settle := h.settled []

theorem KeepsSirens.filled (h : KeepsSirens s u) : KeepsSirens s u.fillOnChange :=
  h.trans (keepsSirens_beside ⟨rfl, rfl, rfl, rfl⟩)

end

end Sys2Proof.Machine
end

section
/-! SUPPORT. The keys and the timers of the siren controller (R138, R139, R143 to R145; O59): SILENCE, RESET, the resound timer
and the end of an all-clear choose the patterns again; the current sense and the cadence leave them. -/

namespace Sys2Proof.Machine

section
variable {s t u : State}

/-! ## Patterns chosen again -/

/-- R142: a choice of patterns for lists that answer their zones. -/
theorem choosePatterns_answers
    (answer : s.operating = true → ∀ o : Output, (s.role o).isSiren = true →
      (s.sirens.units[o]).answers (s.role o).covered s.zoneLevel)
    (wait : s.operating = false → ∀ o : Output, (s.sirens.units[o]).waiting) : s.choosePatterns.sirensAnswer :=
  sirensAnswer_of
    (fun going o siren => by
      obtain ⟨claims, allClear, -⟩ := choosePatterns_unit_kept s o
      have same := (answer going o siren).map (f := id) (claims.trans (List.map_id _).symm) (fun _ => ⟨rfl, rfl⟩)
        (fun _ _ => id) (by rw [allClear]; exact id)
      exact ⟨same, (choosePatterns_chosen s).sounding going o siren⟩)
    fun waits o => by
      have still : s.operating = false := waits
      rw [choosePatterns_unit, still, Bool.false_and, if_neg Bool.false_ne_true]
      exact wait still o

/-- R144: an unsilenced list answers what it answered. -/
theorem Siren.answers.unsilence {x : Siren} {covered : ZoneSet} {level : Zone → Level} (h : x.answers covered level) :
    x.unsilence.answers covered level :=
  h.map rfl (fun _ => ⟨rfl, rfl⟩) (fun _ _ _ => rfl) id

theorem Siren.waiting.unsilence {x : Siren} (h : x.waiting) : x.unsilence.waiting := by
  obtain ⟨claims, rest⟩ := h
  exact ⟨by rw [Siren.unsilence, claims, List.map_nil], rest⟩

/-- R145: an output whose ALL_CLEAR claim has ended. -/
theorem Siren.answers.endAllClear {x : Siren} {covered : ZoneSet} {level : Zone → Level} (h : x.answers covered level) :
    ({ x with allClear := none } : Siren).answers covered level :=
  h.map (f := id) (List.map_id _).symm (fun _ => ⟨rfl, rfl⟩) (fun _ _ => id) (nomatch ·)

/-- R143: a SILENCE silences no claim at EVACUATE. -/
theorem keepsSirens_takeSilence (s : State) : KeepsSirens s s.takeSilence := fun h => by
  have silenced := takeSilence_silencedFrom s
  have frame := takeSilence_frame s
  have zones : s.takeSilence.zones = s.zones := silenced.controllers.1
  have start : s.takeSilence.start = s.start := by rw [frame]
  have setup : s.takeSilence.setup = s.setup := by rw [frame]
  by_cases taken : s.operating = true ∧ s.hasSiren = true
  · obtain ⟨going, sirens⟩ := taken
    refine sirensAnswer_of (fun on o siren => ⟨?_, (silenced.chosen going sirens).sounding on o siren⟩) fun waits => ?_
    · rw [State.role, setup] at siren ⊢
      obtain ⟨claims, allClear, -⟩ := silenced.silenced going sirens o siren
      have level : s.takeSilence.zoneLevel = s.zoneLevel := by funext z; rw [State.zoneLevel, zones]; rfl
      rw [level]
      refine (h.claims going o siren).map claims (fun _ => ⟨rfl, rfl⟩) (fun c evacuate heard => ?_)
        (by rw [allClear]; exact id)
      rw [evacuate, heard]
      rfl
    · rw [State.operating, start] at waits
      exact nomatch waits.symm.trans going
  · have void : s.operating = false ∨ s.hasSiren = false := by simpa [or_iff_not_imp_left] using taken
    exact keepsSirens_beside ⟨by rw [start], setup, zones, by rw [silenced.other void]⟩ h

/-- R140: the list that a RESET leaves is in order. -/
theorem takeReset_levels (s : State) (going : s.operating = true) (o : Output) (siren : (s.role o).isSiren = true) :
    levelsFall s.takeReset.sirens.units[o].claims := by
  obtain ⟨claims, -⟩ := resetTail_unit ((resetJudged_operating s).trans going) o (by rw [resetJudged_role]; exact siren)
  rw [takeReset_eq, claims]
  exact levelsFall_map (f := fun c => { c with silenced := false }) (fun _ => rfl) (claimsFor_levels _ o)

/-- R35, R145: a RESET leaves every list following the recomputed zones, with no claim silenced. -/
theorem keepsSirens_takeReset (s : State) : KeepsSirens s s.takeReset := fun h => by
  have reset := takeReset_resetFrom (u := s)
  have order := takeReset_levels s
  generalize s.takeReset = t at reset order
  have start : t.start = s.start := (congrArg State.start reset.apart : t.apart.start = _)
  have setup : t.setup = s.setup := (congrArg State.setup reset.apart : t.apart.setup = _)
  have operating : t.operating = s.operating := by rw [State.operating, start]; rfl
  have role : t.role = s.role := by funext o; rw [State.role, setup]; rfl
  refine sirensAnswer_of (fun on o siren => ?_) fun waits o => ?_
  · have going : s.operating = true := operating ▸ on
    have sounding := (reset.chosen going).sounding on o siren
    rw [role] at siren
    obtain ⟨follow, unsilenced⟩ := reset.claims going o siren
    exact ⟨follow.answers (order going o siren) fun c m _ => unsilenced c m, sounding⟩
  · rw [operating] at waits
    rw [reset.waits waits]
    exact h.wait waits o

theorem keepsSirens_takeKey (s : State) (key : KeyKind) : KeepsSirens s (s.takeKey key) := by
  cases key with
  | silence => exact keepsSirens_takeSilence s
  | reset => exact keepsSirens_takeReset s

/-- R144: every silenced flag cleared and the resound timer stopped, before the patterns are chosen again. -/
def State.resounded (s : State) : State :=
  { s with sirens := { s.sirens with resound := none, units := s.mapSirens fun _ u => u.unsilence } }

theorem resounded_unit (s : State) (o : Output) : s.resounded.sirens.units[o] =
    if (s.role o).isSiren then s.sirens.units[o].unsilence else s.sirens.units[o] := mapSirens_unit s _ o

theorem keepsSirens_resounded (s : State) : KeepsSirens s s.resounded.choosePatterns := fun h =>
  choosePatterns_answers
    (fun going o siren => by
      have siren : (s.role o).isSiren = true := siren
      rw [resounded_unit, if_pos siren]
      exact (h.claims going o siren).unsilence)
    fun waits o => by
      have before : (s.sirens.units[o]).waiting := h.wait waits o
      rw [resounded_unit]
      split
      · exact before.unsilence
      · exact before

/-- One output replaced: what a vector's entries are. -/
theorem put_cases {α : Type} {n : Nat} {v : Vector α n} {i : Fin n} {x : α} {p : Fin n → α → Prop} (same : p i x)
    (others : ∀ j, p j v[j]) (j : Fin n) : p j (put v i x)[j] := by
  by_cases e : j = i
  · subst e
    rw [Fin.getElem_fin, put_same]
    exact same
  · rw [Fin.getElem_fin, put_other _ _ _ _ e]
    exact others j

/-- R145: the ALL_CLEAR claim of an output ended, before the patterns are chosen again. -/
def State.allClearEnded (s : State) (o : Output) : State := s.withSiren o { s.siren o with allClear := none }

/-- R145: the ALL_CLEAR claim of an output ended, and the patterns chosen again. -/
theorem keepsSirens_allClearEnded (s : State) (o : Output) (siren : (s.role o).isSiren = true) :
    KeepsSirens s (s.allClearEnded o).choosePatterns := fun h =>
  choosePatterns_answers
    (fun going => put_cases (p := fun p (x : Siren) => (s.role p).isSiren = true → x.answers (s.role p).covered s.zoneLevel)
      (fun _ => (h.claims going o siren).endAllClear) (h.claims going))
    fun waits => put_cases (p := fun _ (x : Siren) => x.waiting)
      (by
        obtain ⟨claims, -, rest⟩ := h.wait waits o
        exact ⟨claims, rfl, rest⟩)
      (h.wait waits)

/-! ## Patterns that stand -/

/-- R138: one output that sounds as before. -/
theorem keepsSirens_withSiren (s : State) (o : Output) {x : Siren} (h : (s.siren o).SoundsAs x) :
    KeepsSirens s (s.withSiren o x) :=
  keepsSirens_sounding rfl rfl rfl (put_cases (p := fun p (y : Siren) => (s.sirens.units[p]).SoundsAs y) h fun _ => .refl _)

/-- R138: the current sense leaves the pattern and the level. -/
theorem takeFeedback_soundsAs (u : Siren) (now : Time) (active : Bool) : u.SoundsAs (u.takeFeedback now active) :=
  .of_eq rfl rfl rfl rfl

theorem failCurrent_soundsAs (u : Siren) : u.SoundsAs u.failCurrent := .of_eq rfl rfl rfl rfl

/-- R139: an output that takes its pattern's level keeps its pattern. -/
theorem keepsSirens_followCadence (s : State) : KeepsSirens s s.followCadence :=
  keepsSirens_sounding rfl rfl rfl fun o => by
    rw [followCadence_unit]
    split
    · exact drive_soundsAs _ _ _ (fun e _ => by rw [e]; rfl) fun e _ => by rw [e]; rfl
    · exact .refl _

/-- R146, R148: a STATE taken corrects phases, and the outputs take their levels. -/
theorem keepsSirens_cadenceFromState (s : State) (k : Station) : KeepsSirens s (s.cadenceFromState k) := by
  have corrected (x y : Option Cadence) : KeepsSirens s { s with sirens := { s.sirens with slow := x, fast := y } } :=
    keepsSirens_beside ⟨rfl, rfl, rfl, rfl⟩
  have led (u : State) : KeepsSirens u u.chooseLeaders := keepsSirens_beside ⟨rfl, rfl, rfl, rfl⟩
  exact (corrected _ _).trans ((keepsSirens_followCadence _).trans (led _))

/-- R149: an aged instant is still that of its claim. -/
theorem keepsSirens_mapInstants (s : State) (f : Instant → Instant) : KeepsSirens s (s.mapInstants f) :=
  keepsSirens_sounding rfl rfl rfl fun o => by
    rw [show (s.mapInstants f).sirens.units[o] = (s.sirens.units[o]).mapInstants f from
      getElem_map_fin s.sirens.units (Siren.mapInstants f) o]
    exact ⟨⟨fun c => f c.since, rfl⟩, Option.isSome_map, rfl, fun _ => id, fun _ => id⟩

end

end Sys2Proof.Machine
end

section
/-! SUPPORT. The siren outputs through every command and every step (O59): the commands whose consequences are settled bring the
outputs to answer their zones, the siren controller's own commands keep the answers, and the others leave what the answers are
read from. -/

namespace Sys2Proof.Machine

/-- What a command leaves of the answers of the siren outputs. -/
def Sounds (c : Instr) : Prop := ∀ s t : State, exec c s = .next t → KeepsSirens s t

section
variable {c : Instr} {now : Time} {s t u : State}

theorem sounds_of {f : State → State} (h : ∀ s, exec c s = .next (f s)) (keeps : ∀ s, KeepsSirens s (f s)) : Sounds c :=
  fun s t e => by
    rw [h s] at e
    cases e
    exact keeps s

/-- A command that leaves what the answers are read from. -/
theorem sounds_beside {f : State → State} (h : ∀ s, exec c s = .next (f s)) (beside : ∀ s, BesideSirens s (f s)) : Sounds c :=
  sounds_of h fun s => keepsSirens_beside (beside s)

theorem keepsSirens_takeAt (s : State) (now : Time) : KeepsSirens s (s.takeAt now) :=
  keepsSirens_beside ⟨rfl, rfl, rfl, rfl⟩

theorem keepsSirens_if {b : Bool} (h : b = true → KeepsSirens (s.takeAt now) t) :
    KeepsSirens s (if b then t else s.takeAt now) := by
  cases b with
  | false => exact keepsSirens_takeAt s now
  | true => exact (keepsSirens_takeAt s now).trans (h rfl)

/-- A command that, when its event can occur, leaves what the answers are read from. -/
theorem sounds_if {b : State → Bool} {f : State → State} (h : ∀ s, exec c s = .next (if b s then f s else s.takeAt now))
    (beside : ∀ s, BesideSirens (s.takeAt now) (f s)) : Sounds c :=
  sounds_of h fun s => keepsSirens_if fun _ => keepsSirens_beside (beside s)

/-- A command whose consequences are settled, when its event can occur. -/
theorem sounds_settles {b : State → Bool} {f : State → State} {event : State → List Cause}
    (h : ∀ s, exec c s = .next (if b s then (f s).settleWith (event s) else s.takeAt now))
    (keeps : ∀ s, KeepsSirens (s.takeAt now) (f s)) : Sounds c :=
  sounds_of h fun s => keepsSirens_if fun _ => (keeps s).settled _

end

/-! ### The station line -/

section
variable {c : Instr} (now : Time) (l : Line)

theorem sounds_attemptStart : Sounds (.attemptStart now l) :=
  sounds_if (fun _ => rfl) fun _ => by
    unfold State.startAttempt
    split <;> exact ⟨rfl, rfl, rfl, rfl⟩

/-- The end of an attempt, when a notice is in transmission. -/
theorem sounds_placed {f : State → Attempt → State} (h : ∀ s, exec c s = .next (match ((s.takeAt now).line l).place with
    | some a => f (s.takeAt now) a
    | none => s.takeAt now)) (beside : ∀ (u : State) (a : Attempt), BesideSirens u (f u a)) : Sounds c :=
  sounds_of h fun s => by
    cases ((s.takeAt now).line l).place with
    | none => exact keepsSirens_takeAt s now
    | some a => exact (keepsSirens_takeAt s now).trans (keepsSirens_beside (beside _ a))

theorem sounds_checkError (class_ : BitVec 3) (rx : Received) : Sounds (.checkError now l class_ rx) :=
  sounds_beside (fun _ => rfl) fun _ => by
    repeat' split
    all_goals exact ⟨rfl, rfl, rfl, rfl⟩

/-- R19 to R21: a complete notice, by what its delivery comes to. -/
theorem sounds_receive {α : Type} {class_ : BitVec 3} {read : List Byte → Option α} {rx : Received}
    {deliver : State → Station → Time → α → State}
    (h : ∀ s, exec c s = .next ((s.takeAt now).receive l class_ read rx deliver))
    (delivered : ∀ (u : State) (k : Station) (start : Time) (x : α), KeepsSirens u (deliver u k start x)) : Sounds c :=
  sounds_of h fun s => by
    rcases receive_cases (s.takeAt now) l class_ read rx deliver with
      e | e | e | e | ⟨-, e⟩ | ⟨x, -, -, -, -, e⟩ <;> rw [e]
    · exact keepsSirens_takeAt s now
    · exact keepsSirens_beside ⟨rfl, rfl, rfl, rfl⟩
    · exact keepsSirens_beside ⟨rfl, rfl, rfl, rfl⟩
    · exact keepsSirens_beside ⟨rfl, rfl, rfl, rfl⟩
    · exact keepsSirens_beside ⟨rfl, rfl, rfl, rfl⟩
    · exact (delivered _ _ _ x).after ⟨rfl, rfl, rfl, rfl⟩

/-- R22, R62: the quiet tests and the unserved field. -/
theorem keepsSirens_afterHearing (s : State) : KeepsSirens s s.afterHearing := by
  rw [afterHearing_eq]
  exact keepsSirens_beside ⟨rfl, rfl, rfl, rfl⟩

theorem sounds_callNotice (rx : Received) : Sounds (.callNotice now l rx) :=
  sounds_receive now l (fun _ => rfl) fun u k start z => by
    have called : KeepsSirens u (u.deliverCall k start z) := keepsSirens_beside ⟨rfl, rfl, rfl, rfl⟩
    exact (called.trans (keepsSirens_afterHearing _)).settles

/-- R69: a report handed to release timing. -/
theorem keepsSirens_release (s : State) (r : Report) : KeepsSirens s (s.release r) := by
  rw [release_eq]
  exact keepsSirens_beside ⟨rfl, rfl, rfl, rfl⟩

theorem sounds_sparkNotice (rx : Received) : Sounds (.sparkNotice now l rx) :=
  sounds_receive now l (fun _ => rfl) fun u _ _ _ =>
    ((keepsSirens_afterHearing u).trans (keepsSirens_release _ _)).settled _

theorem sounds_stateNotice (rx : Received) : Sounds (.stateNotice now l rx) :=
  sounds_receive now l (fun _ => rfl) fun u k start x => by
    have stated : KeepsSirens u (u.deliverState k start x) := keepsSirens_beside ⟨rfl, rfl, rfl, rfl⟩
    exact ((stated.trans (keepsSirens_afterHearing _)).trans (keepsSirens_cadenceFromState _ k)).settles

theorem sounds_keyNotice (rx : Received) : Sounds (.keyNotice now l rx) :=
  sounds_receive now l (fun _ => rfl) fun u k start n => by
    refine ((keepsSirens_afterHearing u).trans ?_).filled
    unfold State.deliverKey
    split
    · exact .refl _
    · exact (keepsSirens_takeKey _ _).after ⟨rfl, rfl, rfl, rfl⟩

theorem sounds_peerLost (k : Station) : Sounds (.peerLost now k) :=
  sounds_settles (now := now) (event := fun _ => []) (fun _ => rfl) fun s => by
    have lost : KeepsSirens (s.takeAt now) ((s.takeAt now).withLost k) := keepsSirens_beside ⟨rfl, rfl, rfl, rfl⟩
    have led (u : State) : KeepsSirens u u.chooseLeaders := keepsSirens_beside ⟨rfl, rfl, rfl, rfl⟩
    exact (lost.trans (keepsSirens_afterHearing _)).trans (led _)

theorem sounds_singleLine (k : Station) : Sounds (.singleLine now k) :=
  sounds_beside (f := fun s => match ((s.takeAt now).peers[k]).singleTest now with
      | some m => { s.takeAt now with
          peers := change s.peers k fun p => { p with single := some m }, flags := s.flags ||| Attention.singleLine.mask }
      | none => s.takeAt now) (fun _ => rfl) fun _ => by
    split <;> exact ⟨rfl, rfl, rfl, rfl⟩

end

/-! ### Keys and channels -/

section
variable {c : Instr} (now : Time) (k : Channel)

/-- R41: a counted key: its press, its effect and the KEY slots. -/
theorem keepsSirens_keyPress (s : State) (key : KeyKind) : KeepsSirens s (s.keyPress key) := by
  have counted : KeepsSirens s (s.counted key) := by cases key <;> exact keepsSirens_beside ⟨rfl, rfl, rfl, rfl⟩
  exact (counted.trans (keepsSirens_takeKey _ key)).trans (keepsSirens_beside ⟨rfl, rfl, rfl, rfl⟩)

theorem sounds_keyPress (key : KeyKind)
    (h : ∀ s, exec c s = .next (if (s.takeAt now).started then (s.takeAt now).keyPress key else s.takeAt now)) : Sounds c :=
  sounds_of h fun _ => keepsSirens_if fun _ => keepsSirens_keyPress _ key

/-- R107: what a change of the fan phase brings. -/
theorem keepsSirens_phaseChanged (s : State) (e : Extraction) :
    KeepsSirens s ({ s with extraction := e } : State).phaseChanged := by
  obtain ⟨-, sirens, -⟩ := phaseChanged_same { s with extraction := e }
  have entered : KeepsSirens s { s with extraction := e } := keepsSirens_beside ⟨rfl, rfl, rfl, rfl⟩
  exact entered.trans (keepsSirens_consumes (phaseChanged_consumes _) sirens)

theorem keepsSirens_startFan (s : State) : KeepsSirens s s.startFan := by
  rcases startFan_cases s with e | e | ⟨-, -, e⟩ <;> rw [e]
  · exact .refl s
  · exact keepsSirens_beside ⟨rfl, rfl, rfl, rfl⟩
  · exact keepsSirens_phaseChanged s _

theorem sounds_startPress : Sounds (.startPress now) :=
  sounds_of (f := fun s => if (s.takeAt now).started then
      (if ({ s.takeAt now with inputs := { s.inputs with start := .settled true } } : State).takesFanKeys then
        ({ s.takeAt now with inputs := { s.inputs with start := .settled true } } : State).startFan.settle
      else { s.takeAt now with inputs := { s.inputs with start := .settled true } })
    else s.takeAt now) (fun _ => rfl) fun s => keepsSirens_if fun _ => by
    have pressed : KeepsSirens (s.takeAt now) { s.takeAt now with inputs := { s.inputs with start := .settled true } } :=
      keepsSirens_beside ⟨rfl, rfl, rfl, rfl⟩
    split
    · exact (pressed.trans (keepsSirens_startFan _)).settles
    · exact pressed

theorem sounds_stopPress : Sounds (.stopPress now) :=
  sounds_of (f := fun s => if (s.takeAt now).started then
      (if ({ s.takeAt now with inputs := { s.inputs with stop := .settled true } } : State).takesFanKeys then
        ({ s.takeAt now with inputs := { s.inputs with stop := .settled true } } : State).settleWith [.stopKey]
      else { s.takeAt now with inputs := { s.inputs with stop := .settled true } })
    else s.takeAt now) (fun _ => rfl) fun s => keepsSirens_if fun _ => by
    have pressed : KeepsSirens (s.takeAt now) { s.takeAt now with inputs := { s.inputs with stop := .settled true } } :=
      keepsSirens_beside ⟨rfl, rfl, rfl, rfl⟩
    split
    · exact pressed.settled _
    · exact pressed

/-- R46: an edge of a channel, by what an active channel makes of it. -/
theorem sounds_pin (level : Bool) {f : State → State}
    (h : ∀ s, exec c s = .next (if ((s.takeAt now).setSparkPin k level).channelActive k then
      f ((s.takeAt now).setSparkPin k level) else (s.takeAt now).setSparkPin k level))
    (keeps : ∀ u, KeepsSirens u (f u)) : Sounds c :=
  sounds_of h fun s => by
    have pinned : KeepsSirens s ((s.takeAt now).setSparkPin k level) := keepsSirens_beside ⟨rfl, rfl, rfl, rfl⟩
    split
    · exact pinned.trans (keeps _)
    · exact pinned

/-- R49: a spark, whose consequences are settled. -/
theorem keepsSirens_spark (s : State) (pulse : Time) : KeepsSirens s (s.spark k pulse) := by
  have channel : KeepsSirens s (s.sparkAtChannel k) := by
    unfold State.sparkAtChannel
    simp only
    split <;> exact keepsSirens_beside ⟨rfl, rfl, rfl, rfl⟩
  have slots : KeepsSirens (s.sparkAtChannel k) ((s.sparkAtChannel k).restartWatch.sparkSlots k pulse) :=
    keepsSirens_beside ⟨rfl, rfl, rfl, rfl⟩
  refine ((channel.trans slots).trans ?_).settled _
  unfold State.handOff
  split
  · exact keepsSirens_release _ _
  · exact .refl _

/-- R48, R56, R57: a pulse that is no spark acts on its channel alone. -/
theorem keepsSirens_classify (s : State) (pulse : Time) (width : Nat) : KeepsSirens s (s.classify k pulse width) := by
  have noise : KeepsSirens s (s.noisePulse k) := by
    unfold State.noisePulse
    simp only
    split <;> exact KeepsSirens.filled (keepsSirens_beside ⟨rfl, rfl, rfl, rfl⟩)
  have test : KeepsSirens s (s.testPulse k) := by
    unfold State.testPulse
    simp only
    split <;> exact KeepsSirens.filled (keepsSirens_beside ⟨rfl, rfl, rfl, rfl⟩)
  unfold State.classify
  repeat' split
  · exact keepsSirens_beside ⟨rfl, rfl, rfl, rfl⟩
  · exact keepsSirens_spark k s pulse
  · exact noise
  · exact test
  · exact noise
  · exact keepsSirens_beside ⟨rfl, rfl, rfl, rfl⟩

theorem sounds_sensorPulseEnd (width : Nat) : Sounds (.sensorPulseEnd now k width) :=
  sounds_pin now k false (f := fun u => u.pulseEnd k width) (fun _ => rfl) fun u => by
    unfold State.pulseEnd
    repeat' split
    · exact keepsSirens_beside ⟨rfl, rfl, rfl, rfl⟩
    · exact keepsSirens_classify k u _ width
    · exact .refl u

theorem sounds_escalated : Sounds (.escalated now) :=
  sounds_of (fun _ => rfl) fun _ => keepsSirens_if fun _ => by
    split
    · exact KeepsSirens.settles (keepsSirens_beside ⟨rfl, rfl, rfl, rfl⟩)
    · exact .refl _

end

/-! ### The valves, the extraction controller, the barriers and the supply -/

section
variable (now : Time) (o : Output)

theorem openValve_besideSirens (s : State) : BesideSirens s (s.openValve o) := by
  unfold State.openValve
  split <;> exact ⟨rfl, rfl, rfl, rfl⟩

theorem sounds_windowClose : Sounds (.windowClose now o) :=
  sounds_of (fun _ => rfl) fun _ => keepsSirens_if fun _ =>
    (keepsSirens_beside (openValve_besideSirens o _)).after ⟨rfl, rfl, rfl, rfl⟩

theorem sounds_flowSwitchChange (active : Bool) : Sounds (.flowSwitchChange now o active) :=
  sounds_if (fun _ => rfl) fun _ => by
    unfold State.flowChange
    split <;> exact ⟨rfl, rfl, rfl, rfl⟩

/-- R103, R106, R108, R111: a sample judged by the phase in which it completes. -/
theorem keepsSirens_judgeSample (s : State) : KeepsSirens s s.judgeSample := by
  have good : KeepsSirens s s.judgeGood := by
    unfold State.judgeGood
    simp only
    generalize (if s.setup.extraction.floor ≤ s.extraction.velocity then s.extraction.goodCount + 1 else 0) = count
    split
    · exact keepsSirens_phaseChanged s _
    · exact keepsSirens_beside ⟨rfl, rfl, rfl, rfl⟩
  have flow : KeepsSirens s s.judgeFlow := keepsSirens_beside ⟨rfl, rfl, rfl, rfl⟩
  have stop (u : State) : KeepsSirens u u.judgeStop := by
    unfold State.judgeStop
    simp only
    generalize (if u.extraction.velocity < u.setup.extraction.stop then u.extraction.stopCount + 1 else 0) = count
    split
    · exact keepsSirens_phaseChanged u _
    · exact keepsSirens_beside ⟨rfl, rfl, rfl, rfl⟩
  unfold State.judgeSample
  split
  · exact good
  · exact flow.trans (stop _)
  all_goals exact flow

theorem sounds_sampleComplete : Sounds (.sampleComplete now) :=
  sounds_of (fun _ => rfl) fun s => by
    cases (s.takeAt now).extraction.window with
    | none => exact keepsSirens_takeAt s now
    | some w =>
      have sampled : KeepsSirens (s.takeAt now) ((s.takeAt now).takeSample w) := keepsSirens_beside ⟨rfl, rfl, rfl, rfl⟩
      have windowed (u : State) (e : Extraction) : KeepsSirens u { u with extraction := e } :=
        keepsSirens_beside ⟨rfl, rfl, rfl, rfl⟩
      exact keepsSirens_if fun _ => ((sampled.trans (keepsSirens_judgeSample _)).trans (windowed _ _)).settled _

theorem sounds_gateTimerExpiry : Sounds (.gateTimerExpiry now) :=
  sounds_settles (now := now) (event := fun _ => []) (fun _ => rfl) fun s => by
    have marked : KeepsSirens (s.takeAt now) { s.takeAt now with
        extraction := { (s.takeAt now).extraction with gateFail := true }
        flags := (s.takeAt now).flags ||| Attention.fanFault.mask } := keepsSirens_beside ⟨rfl, rfl, rfl, rfl⟩
    exact marked.trans (keepsSirens_phaseChanged _ _)

theorem sounds_rundownLimitExpiry : Sounds (.rundownLimitExpiry now) :=
  sounds_settles (now := now) (event := fun _ => []) (fun _ => rfl) fun s => by
    have marked : KeepsSirens (s.takeAt now) { s.takeAt now with
        extraction := { (s.takeAt now).extraction with rundownSlow := true }
        flags := (s.takeAt now).flags ||| Attention.fanFault.mask } := keepsSirens_beside ⟨rfl, rfl, rfl, rfl⟩
    exact marked.trans (keepsSirens_phaseChanged _ _)

/-- R101, R102: a feedback of the fan, and the mismatches judged. -/
theorem keepsSirens_mismatches (s : State) (active : Bool) : KeepsSirens s (s.setFeedback o active).judgeMismatches := by
  have fed : KeepsSirens s (s.setFeedback o active) := keepsSirens_beside ⟨rfl, rfl, rfl, rfl⟩
  exact fed.trans (keepsSirens_consumes (judgeMismatches_consumes _) rfl)

theorem sounds_gateFeedbackChange (active : Bool) : Sounds (.gateFeedbackChange now active) :=
  sounds_of (fun _ => rfl) fun s => by
    split
    · rename_i o _
      refine keepsSirens_if fun _ => ((keepsSirens_mismatches o _ active).trans ?_).settles
      unfold State.endDiverting
      split
      · exact keepsSirens_phaseChanged _ _
      · exact .refl _
    · exact keepsSirens_takeAt s now

theorem sounds_runningContactChange (active : Bool) : Sounds (.runningContactChange now active) :=
  sounds_of (fun _ => rfl) fun s => by
    split
    · rename_i o _
      exact keepsSirens_if fun _ => keepsSirens_mismatches o _ active
    · exact keepsSirens_takeAt s now

/-- R129: the queue considered, and the fill. -/
theorem keepsSirens_considered (s : State) : KeepsSirens s s.considerQueue.fillOnChange := by
  obtain ⟨-, -, -, sirens, -, -⟩ := (judgeWaits_sameFan 4 s).trans (considerRun_sameFan _)
  exact (keepsSirens_consumes (considerQueue_consumes s) sirens).filled

/-- R125 to R134: a barrier's feedback acts on barriers, records and a flag alone. -/
theorem barrierFeedback_besideSirens (s : State) (active : Bool) : BesideSirens s (s.barrierFeedback o active) := by
  obtain ⟨b, q, r, fs, m, e, -⟩ := barrierFeedback_fedFrom s o active
  rw [e]
  exact ⟨rfl, rfl, rfl, rfl⟩

theorem sounds_barrierFeedbackChange (active : Bool) : Sounds (.barrierFeedbackChange now o active) :=
  sounds_of (fun _ => rfl) fun s => keepsSirens_if fun _ => by
    have fed : KeepsSirens (s.takeAt now) ((s.takeAt now).setFeedback o active) := keepsSirens_beside ⟨rfl, rfl, rfl, rfl⟩
    unfold State.barrierChange
    simp only
    split
    · exact (fed.trans (keepsSirens_beside (barrierFeedback_besideSirens o _ active))).trans (keepsSirens_considered _)
    · exact fed

theorem sounds_travelExhausted : Sounds (.travelExhausted now o) :=
  sounds_of (fun _ => rfl) fun _ => keepsSirens_if fun _ =>
    (keepsSirens_considered _).after ⟨rfl, rfl, rfl, rfl⟩

theorem sounds_damperWaitExpiry : Sounds (.damperWaitExpiry now o) :=
  sounds_of (fun _ => rfl) fun _ => keepsSirens_if fun _ =>
    (keepsSirens_considered _).after ⟨rfl, rfl, rfl, rfl⟩

theorem keepsSirens_judgeSupply (s : State) : KeepsSirens s s.judgeSupply := by
  have stopped (u : State) : KeepsSirens u u.pauseRun := by
    rw [pauseRun_frame]
    exact keepsSirens_beside ⟨rfl, rfl, rfl, rfl⟩
  unfold State.judgeSupply
  split
  · split
    · exact (keepsSirens_considered _).after ⟨rfl, rfl, rfl, rfl⟩
    · exact .refl s
  · split
    · split
      · exact ((stopped _).trans (keepsSirens_considered _)).after ⟨rfl, rfl, rfl, rfl⟩
      · exact keepsSirens_beside ⟨rfl, rfl, rfl, rfl⟩
    · exact keepsSirens_beside ⟨rfl, rfl, rfl, rfl⟩

theorem sounds_supplySample (millivolts : Nat) : Sounds (.supplySample now millivolts) :=
  sounds_of (fun _ => rfl) fun s => keepsSirens_if fun _ => by
    have graded : KeepsSirens (s.takeAt now) ((s.takeAt now).gradeSupply (supplyLevel millivolts)) :=
      keepsSirens_beside ⟨rfl, rfl, rfl, rfl⟩
    split
    · exact graded.trans (keepsSirens_judgeSupply _)
    · exact graded

end

/-! ### The siren controller's own commands -/

section
variable (now : Time) (o : Output)

theorem sounds_sirenFeedbackChange (active : Bool) : Sounds (.sirenFeedbackChange now o active) :=
  sounds_of (fun _ => rfl) fun s => keepsSirens_if fun _ => by
    have fed : KeepsSirens (s.takeAt now) ((s.takeAt now).setFeedback o active) := keepsSirens_beside ⟨rfl, rfl, rfl, rfl⟩
    exact fed.trans (keepsSirens_withSiren _ o (takeFeedback_soundsAs _ now active))

theorem sounds_sirenFault : Sounds (.sirenFault now o) :=
  sounds_of (fun _ => rfl) fun _ => keepsSirens_if fun _ =>
    (keepsSirens_withSiren _ o (failCurrent_soundsAs _)).trans (keepsSirens_beside ⟨rfl, rfl, rfl, rfl⟩)

theorem sounds_cadenceLevelChange : Sounds (.cadenceLevelChange now) :=
  sounds_of (fun _ => rfl) fun s => (keepsSirens_takeAt s now).trans (keepsSirens_followCadence _)

theorem sounds_resoundTimerExpiry : Sounds (.resoundTimerExpiry now) :=
  sounds_of (fun _ => rfl) fun _ => keepsSirens_if fun _ => (keepsSirens_resounded _).filled

theorem sounds_allClearEnd : Sounds (.allClearEnd now o) :=
  sounds_of (fun _ => rfl) fun s => keepsSirens_if fun h =>
    (keepsSirens_allClearEnded (s.takeAt now) o (Bool.and_eq_true_iff.mp h).1).filled

end

/-! ### The start sequencer and the ageing -/

section
variable (now : Time)

theorem sounds_imageReadFailed : Sounds (.imageReadFailed now) :=
  sounds_of (fun _ => rfl) fun s => keepsSirens_if fun h => by
    have load := reading_phase h
    unfold State.failRead
    split
    · exact keepsSirens_beside ⟨rfl, rfl, rfl, rfl⟩
    · exact keepsSirens_waits (waits_of_phase load (nomatch ·)) rfl rfl

theorem sounds_imageReadComplete (image : List Byte) : Sounds (.imageReadComplete now image) :=
  sounds_of (fun _ => rfl) fun s => keepsSirens_if fun h => by
    rw [Bool.and_eq_true, Bool.and_eq_true] at h
    have waits := waits_of_phase (reading_phase h.1.1) (nomatch ·)
    unfold State.completeRead
    split
    · have listens : KeepsSirens (s.takeAt now) ((s.takeAt now).listening image) := keepsSirens_waits waits rfl rfl
      rw [enterListen_eq]
      exact listens.settles
    · exact keepsSirens_waits waits rfl rfl

theorem sounds_listenEnd : Sounds (.listenEnd now) :=
  sounds_of (fun _ => rfl) fun _ => keepsSirens_if fun h =>
    keepsSirens_waits (waits_of_phase (phaseDue_phase h) (nomatch ·)) rfl rfl

/-- R140: at the entry to OPERATING every list is empty, and the lists then follow the zones. -/
theorem sounds_settleEnd : Sounds (.settleEnd now) :=
  sounds_of (fun _ => rfl) fun s => keepsSirens_if fun due h => by
    have before := waits_of_phase (phaseDue_phase due) (nomatch ·)
    have operating : (s.takeAt now).opened.operating = true := by rw [opened_eq]; rfl
    have empty (o : Output) : (s.takeAt now).opened.sirens.units[o].claims = [] := by
      rw [opened_eq]
      refine Eq.trans ?_ (h.wait before o).1
      simp only [Fin.getElem_fin, tabulate_at]
      split <;> rfl
    rw [enterOperating_eq]
    exact settleWith_answers [] (fun _ o _ c m => by rw [empty o] at m; cases m) fun waits => nomatch waits.symm.trans operating

theorem sounds_instantAged : Sounds (.instantAged now) :=
  sounds_of (fun _ => rfl) fun _ => keepsSirens_if fun _ =>
    (keepsSirens_mapInstants _ _).trans (keepsSirens_beside ⟨rfl, rfl, rfl, rfl⟩)

theorem sounds_powerOn : Sounds .powerOn :=
  sounds_of exec_powerOn fun s _ =>
    (keepsSirens_beside ⟨rfl, rfl, rfl, rfl⟩ : KeepsSirens State.reset s.restarted) reset_sirensAnswer

end

/-! ## Every step -/

theorem sounds_command (c : Instr) : Sounds c := by
  cases c with
  | powerOn => exact sounds_powerOn
  | imageReadFailed now => exact sounds_imageReadFailed now
  | imageReadComplete now image => exact sounds_imageReadComplete now image
  | listenEnd now => exact sounds_listenEnd now
  | settleEnd now => exact sounds_settleEnd now
  | attemptStart now line => exact sounds_attemptStart now line
  | contentionLost now line =>
    exact sounds_placed now line (f := fun u a => u.withLine line ((u.line line).loseContention a)) (fun _ => rfl)
      fun _ _ => ⟨rfl, rfl, rfl, rfl⟩
  | txError now place =>
    exact sounds_placed now place.line (f := fun u a => u.txErrorOn place.line place.bit a) (fun _ => rfl)
      fun _ _ => ⟨rfl, rfl, rfl, rfl⟩
  | attemptSuccess now line =>
    exact sounds_placed now line (f := fun u a => u.succeedOn line a) (fun _ => rfl) fun _ _ => ⟨rfl, rfl, rfl, rfl⟩
  | imageReadRetry _ | probeTimerExpiry _ _ | stateIntervalExpiry _ | receiveFramingError _ _ | noticeLengthError _ _ _
  | lineIdle _ _ | blinded _ _ | blindedClear _ _ | silent _ _ | periodicWindowStart _ | contactorMismatch _
  | gateMismatch _ | travelTimerExpiry _ _ =>
    exact sounds_if (fun _ => rfl) fun _ => ⟨rfl, rfl, rfl, rfl⟩
  | stateRoundHoldClear _ _ | lineQuiet _ _ | flowPulse _ | status _ _ | zones _ _ | peer _ _ | valve _ _ | barriers _ _
  | sirens _ _ | fan _ _ | counters _ _ | takeRecord _ _ | takeRecordComplete _ | unknown _ _ _ =>
    exact sounds_beside (fun _ => rfl) fun _ => ⟨rfl, rfl, rfl, rfl⟩
  | callPress now | callRelease now | heatInputChange now _ | bucketBoundary now | watchHoldExpiry now
  | confirmTimerExpiry now _ | cutOff now _ | valveStuck now _ =>
    exact sounds_settles (now := now) (event := fun _ => []) (fun _ => rfl)
      fun _ => keepsSirens_beside ⟨rfl, rfl, rfl, rfl⟩
  | startGraceExpiry now =>
    exact sounds_settles (now := now) (event := fun _ => [.startFail]) (fun _ => rfl)
      fun _ => keepsSirens_beside ⟨rfl, rfl, rfl, rfl⟩
  | callNotice now line rx => exact sounds_callNotice now line rx
  | sparkNotice now line rx => exact sounds_sparkNotice now line rx
  | keyNotice now line rx => exact sounds_keyNotice now line rx
  | stateNotice now line rx => exact sounds_stateNotice now line rx
  | checkError now line class_ rx => exact sounds_checkError now line class_ rx
  | peerLost now peer => exact sounds_peerLost now peer
  | singleLine now peer => exact sounds_singleLine now peer
  | silencePress now => exact sounds_keyPress now .silence fun _ => rfl
  | resetPress now => exact sounds_keyPress now .reset fun _ => rfl
  | startPress now => exact sounds_startPress now
  | stopPress now => exact sounds_stopPress now
  | sensorPulseStart now channel =>
    exact sounds_pin now channel true (f := fun u => u.pulseStart channel) (fun _ => rfl)
      fun _ => keepsSirens_beside ⟨rfl, rfl, rfl, rfl⟩
  | sensorPulseEnd now channel width => exact sounds_sensorPulseEnd now channel width
  | escalated now => exact sounds_escalated now
  | windowOpen now output =>
    exact sounds_of (fun _ => rfl) fun s =>
      (keepsSirens_takeAt s now).trans (keepsSirens_beside (openValve_besideSirens output _))
  | windowClose now output => exact sounds_windowClose now output
  | flowSwitchChange now output active => exact sounds_flowSwitchChange now output active
  | sampleComplete now => exact sounds_sampleComplete now
  | gateFeedbackChange now active => exact sounds_gateFeedbackChange now active
  | gateTimerExpiry now => exact sounds_gateTimerExpiry now
  | rundownLimitExpiry now => exact sounds_rundownLimitExpiry now
  | runningContactChange now active => exact sounds_runningContactChange now active
  | barrierFeedbackChange now output active => exact sounds_barrierFeedbackChange now output active
  | travelExhausted now output => exact sounds_travelExhausted now output
  | damperWaitExpiry now output => exact sounds_damperWaitExpiry now output
  | sirenFeedbackChange now output active => exact sounds_sirenFeedbackChange now output active
  | sirenFault now output => exact sounds_sirenFault now output
  | cadenceLevelChange now => exact sounds_cadenceLevelChange now
  | resoundTimerExpiry now => exact sounds_resoundTimerExpiry now
  | allClearEnd now output => exact sounds_allClearEnd now output
  | supplySample now millivolts => exact sounds_supplySample now millivolts
  | instantAged now => exact sounds_instantAged now

theorem keepsSirens_step {s t : State} (h : step s = .next t) : KeepsSirens s t := by
  unfold step at h
  split at h
  · rename_i c rest _
    have taken : KeepsSirens s (s.withPending rest) := keepsSirens_beside ⟨rfl, rfl, rfl, rfl⟩
    exact taken.trans (sounds_command c (s.withPending rest) t h)
  · cases h
    exact keepsSirens_beside ⟨rfl, rfl, rfl, rfl⟩

/-- R137: the level of a siren output is the level that it is driven to. -/
theorem drivenOutput_siren {s : State} {o : Output} (siren : (s.role o).isSiren = true) :
    s.drivenOutput o = s.sirens.units[o].driven := by
  unfold State.drivenOutput
  cases role : s.role o with
  | siren => rfl
  | _ => rw [role] at siren; cases siren

/-- Settles O59: every command keeps the answers; a claim at EVACUATE is unsilenced and none before it is lower, so its output
sounds STEADY. -/
theorem sirensAnswer : Obligations.SirensAnswer := by
  refine ⟨fun s t h e => keepsSirens_step e h, fun s o z h going siren covered evacuate => ?_⟩
  have claims := h.claims going o siren
  have sounding := h.sounds going o siren
  obtain ⟨c, member, zone⟩ := claims.claimed z covered (by rw [evacuate]; rfl)
  have level : c.level = .evacuate := by rw [(claims.levels c member).2.1, zone, evacuate]
  have pattern : s.sirens.units[o].pattern = .steady :=
    sounding.pattern.trans (chosen_steady claims.order member level (claims.heard c member level))
  exact ⟨pattern, (drivenOutput_siren siren).trans (sounding.steady pattern)⟩

end Sys2Proof.Machine
end

section
/-! SUPPORT. The correction of a cadence phase (R148; O21): the difference of two phases is the shorter way round the cycle, and
the corrected phase goes at most 50 ms along it. -/

namespace Sys2Proof.Machine

section
variable {cycle projected own : Nat}

/-- R148: the way from a phase on to the projected phase, round the cycle. -/
def phaseAhead (cycle projected own : Nat) : Nat := (projected + cycle - own) % cycle

theorem phaseAhead_eq (hp : projected < cycle) (ho : own < cycle) : phaseAhead cycle projected own =
    if own ≤ projected then projected - own else projected + cycle - own := by
  unfold phaseAhead
  split
  · rw [show projected + cycle - own = projected - own + cycle by omega, Nat.add_mod_right, Nat.mod_eq_of_lt (by omega)]
  · rw [Nat.mod_eq_of_lt (by omega)]

/-- R148: the difference goes on to the projected phase when that is no more than half a cycle ahead, and back otherwise. -/
theorem cadenceDifference_ahead (even : 2 * (cycle / 2) = cycle) (hp : projected < cycle) (ho : own < cycle) :
    cadenceDifference cycle projected own =
      if phaseAhead cycle projected own ≤ cycle / 2 then (phaseAhead cycle projected own : Int)
      else (phaseAhead cycle projected own : Int) - cycle := by
  rw [phaseAhead_eq hp ho]
  unfold cadenceDifference
  simp only
  split_ifs <;> omega

/-- R148: the way on from a phase ends at the projected phase, in this cycle or in the next. -/
theorem own_add_phaseAhead (hp : projected < cycle) (ho : own < cycle) :
    own + phaseAhead cycle projected own = projected ∨ own + phaseAhead cycle projected own = projected + cycle := by
  rw [phaseAhead_eq hp ho]
  split_ifs <;> omega

/-- R148: the corrected phase lies the bounded difference d from the own phase, round the cycle. -/
theorem correctedPhase_mod {d : Int} {n : Nat} (bounded : max (-50) (min 50 (cadenceDifference cycle projected own)) = d)
    (ends : ((own : Int) + d) % cycle = (n % cycle : Nat)) : correctedPhase cycle projected own = n % cycle := by
  subst bounded
  exact (congrArg Int.toNat ends).trans (Int.toNat_natCast _)

end

/-- Settles O21: the shorter way round the cycle is the whole correction when it is within 50 ms, and 50 ms of it otherwise. -/
theorem cadenceCorrectionIsBounded : Obligations.CadenceCorrectionIsBounded := by
  intro cycle projected own cycles hp ho
  have difference := cadenceDifference_ahead (by omega) hp ho
  have arrives := own_add_phaseAhead hp ho
  have within : phaseAhead cycle projected own < cycle := Nat.mod_lt _ (by omega)
  show _ < cycle ∧ (phaseAhead cycle projected own ≤ 50 ∨ cycle - 50 ≤ phaseAhead cycle projected own → _) ∧
    (50 < phaseAhead cycle projected own → phaseAhead cycle projected own ≤ cycle / 2 → _) ∧
    (cycle / 2 < phaseAhead cycle projected own → phaseAhead cycle projected own < cycle - 50 → _)
  generalize phaseAhead cycle projected own = e at difference arrives within ⊢
  refine ⟨correctedPhase_lt (by omega) projected own, fun near => ?_, fun far half => ?_, fun half far => ?_⟩
  · have bounded : max (-50) (min 50 (cadenceDifference cycle projected own)) = cadenceDifference cycle projected own := by
      rw [difference]
      split_ifs <;> omega
    refine (correctedPhase_mod bounded ?_).trans (Nat.mod_eq_of_lt hp)
    rw [difference]
    rcases cycles with rfl | rfl <;> split_ifs <;> omega
  · rw [if_pos half] at difference
    refine correctedPhase_mod (d := 50) (by omega) ?_
    rcases cycles with rfl | rfl <;> omega
  · rw [if_neg (by omega)] at difference
    refine correctedPhase_mod (d := -50) (by omega) ?_
    rcases cycles with rfl | rfl <;> omega

end Sys2Proof.Machine
end

section
/-! SUPPORT. The siren controller's own commands (R137 to R139, R142, R144 to R147; O48, O49): an output that keeps its pattern
and takes a level, and patterns chosen again after the silenced flags are cleared or an all-clear has ended. -/

namespace Sys2Proof.Machine

section
variable (now : Time)

/-! ## An output that keeps its pattern (R138) -/

/-- R138: the absence count of an output that keeps its pattern and takes a level. -/
theorem drive_pattern_eq (level feedback : Bool) (u : Siren) : u.drive now u.pattern level feedback = { u with
    driven := level
    absence := if u.pattern = .none ∨ feedback = true then 0 else u.absenceAt now
    absenceTaken := if u.pattern = .none ∨ feedback = true then false else u.absenceTaken
    absenceFrom :=
      if level = true ∧ ¬(u.pattern = .none ∨ feedback = true) ∧ u.absenceTaken = false then some now else none } := by
  by_cases cleared : u.pattern = .none ∨ feedback = true
  · have count : (u.pattern == .none || feedback) = true := by simpa using cleared
    simp [Siren.drive, count, cleared]
  · have count : (u.pattern == .none || feedback) = false := by simpa using cleared
    simp [Siren.drive, count, cleared]

/-- R138: an active current sense, or no pattern, returns the count to 0; otherwise the count stands as it has grown. -/
theorem takeFeedback_eq (active : Bool) (u : Siren) : u.takeFeedback now active =
    if active = true ∨ u.pattern = .none then
      { u with fault := u.fault && !active, absence := 0, absenceTaken := false, absenceFrom := none }
    else { u with
      absence := u.absenceAt now
      absenceFrom := if u.driven = true ∧ u.absenceTaken = false then some now else none } := by
  have driven := drive_pattern_eq now u.driven active { u with fault := u.fault && !active }
  by_cases cleared : u.pattern = .none ∨ active = true
  · rw [if_pos cleared.symm]
    exact driven.trans (by simp only [cleared, if_true, not_true, false_and, and_false, if_false])
  · rw [if_neg fun h => cleared h.symm]
    obtain ⟨sounding, inactive⟩ := not_or.mp cleared
    rw [Bool.not_eq_true] at inactive
    subst inactive
    exact driven.trans (by simp only [sounding, Bool.false_eq_true, or_false, if_false, not_false_eq_true, true_and,
      Bool.not_false, Bool.and_true])

theorem isNone_of_isSiren {r : OutputRole} (h : r.isSiren = true) : r.isNone = false := by
  cases r with
  | siren => rfl
  | _ => cases h

/-- R138: a count that has not been taken reaches its limit at 500 ms. -/
theorem absenceDue_of {u : Siren} {since : Time} (taken : u.absenceTaken = false) (growing : u.absenceFrom = some since)
    (limit : 500 ≤ u.absence + (now - since).toNat) : u.absenceDue now = true := by
  rw [Siren.absenceDue, Siren.absenceAt, taken, growing]
  simpa [Config.absenceLimit] using limit

end

/-- Settles O48: a current sense is taken as a drive that keeps the pattern and the level, and a count at its limit sets the
mark. -/
theorem sirenCurrentJudged : Obligations.SirenCurrentJudged := by
  refine fun now o s siren => ⟨fun active permitted other => ?_, fun since taken growing limit => ?_⟩
  · have takes : (s.takeAt now).takesFeedback OutputRole.isSiren o active = true :=
      takesFeedback_of (s := s.takeAt now) siren (isNone_of_isSiren siren) permitted other
    refine (congrArg answer (if_pos takes)).trans ?_
    rw [takeFeedback_eq]
    rfl
  · have due : (((s.takeAt now).role o).isSiren && ((s.takeAt now).siren o).absenceDue now) = true :=
      Bool.and_eq_true_iff.mpr ⟨siren, absenceDue_of now taken growing limit⟩
    exact congrArg answer (if_pos due)

section
variable (s : State) (o p : Output)

/-! ## Patterns chosen again (R142) -/

theorem choosePatterns_still (h : s.operating = false ∨ (s.role o).isSiren = false) :
    s.choosePatterns.sirens.units[o] = s.sirens.units[o] := by
  refine (choosePatterns_unit s o).trans (if_neg fun both => ?_)
  obtain ⟨going, siren⟩ := Bool.and_eq_true_iff.mp both
  rcases h with waits | other
  · exact nomatch waits.symm.trans going
  · exact nomatch other.symm.trans siren

/-- R138, R142, R147: patterns chosen again after the silenced flags are cleared, seen from the state before that. -/
theorem resounded_chosen : s.patternsChosen s.resounded.choosePatterns :=
  patternsChosen_from (choosePatterns_chosen s.resounded) rfl rfl rfl rfl rfl rfl rfl fun o => by
    rw [resounded_unit]
    split <;> exact ⟨rfl, rfl, rfl⟩

theorem allClearEnded_unit : (s.allClearEnded o).sirens.units[p] =
    { s.sirens.units[p] with allClear := if p = o then none else s.sirens.units[p].allClear } := by
  by_cases e : p = o
  · subst e
    rw [if_pos rfl]
    exact put_same s.sirens.units p _
  · rw [if_neg e]
    exact put_other s.sirens.units o p _ e

theorem allClearEnded_chosen : s.patternsChosen (s.allClearEnded o).choosePatterns :=
  patternsChosen_from (choosePatterns_chosen (s.allClearEnded o)) rfl rfl rfl rfl rfl rfl rfl fun p => by
    rw [allClearEnded_unit]
    exact ⟨rfl, rfl, rfl⟩

/-! ## Levels (R139) -/

/-- R139: an output that follows the cadence keeps its pattern, takes that pattern's level and has its count go on. -/
theorem followCadence_driven (going : s.operating = true) (siren : (s.role o).isSiren = true) :
    s.followCadence.siren o = { s.siren o with
      driven := s.patternLevel o (s.siren o).pattern
      absence := if (s.siren o).pattern = .none ∨ s.feedback o = true then 0 else (s.siren o).absenceAt s.clock
      absenceTaken := if (s.siren o).pattern = .none ∨ s.feedback o = true then false else (s.siren o).absenceTaken
      absenceFrom :=
        if s.patternLevel o (s.siren o).pattern = true ∧ ¬((s.siren o).pattern = .none ∨ s.feedback o = true) ∧
          (s.siren o).absenceTaken = false then some s.clock else none } := by
  have unit := followCadence_unit s o
  rw [if_pos (Bool.and_eq_true_iff.mpr ⟨going, siren⟩), levelOf_patternLevel] at unit
  exact unit.trans (drive_pattern_eq ..)

end

/-- Settles O49: each command by what it makes of the outputs; the last two choose the patterns again. -/
theorem sirenTimersExpire : Obligations.SirenTimersExpire := by
  intro now s
  refine ⟨?cadence, fun deadline timer past => ?resound, fun o i siren claim past => ?allClear⟩
  case cadence =>
    refine ⟨(s.takeAt now).followCadence, rfl, rfl, rfl, rfl, fun o still => ?_, fun o going siren => ?_⟩
    · obtain ⟨-, -, -, -, -, -, stands⟩ := followCadence_output (s.takeAt now) o
      exact stands still
    · have driven := followCadence_driven (s.takeAt now) o going siren
      rw [show (s.takeAt now).siren o = s.siren o from rfl] at driven
      have level : ((s.takeAt now).followCadence.siren o).driven = (s.takeAt now).patternLevel o (s.siren o).pattern := by
        rw [driven]
      refine driven.trans ?_
      simp only [level]
      cases pattern : (s.siren o).pattern <;> rfl
  case resound =>
    refine ⟨_, (s.takeAt now).resounded.choosePatterns, congrArg answer (if_pos (due_reached timer past)),
      fillOnChange_refilledFrom _, rfl, rfl, fun o other => ?_, fun o siren => ?_, resounded_chosen _⟩
    · have unit := (choosePatterns_still (s.takeAt now).resounded o (.inr other)).trans (resounded_unit ..)
      exact unit.trans (if_neg (by rw [show ((s.takeAt now).role o).isSiren = false from other]; exact Bool.false_ne_true))
    · have unit : (s.takeAt now).resounded.sirens.units[o] = (s.siren o).unsilence :=
        (resounded_unit ..).trans (if_pos siren)
      obtain ⟨claims, allClear, fault, seen⟩ := choosePatterns_unit_kept (s.takeAt now).resounded o
      rw [unit] at claims allClear fault seen
      refine ⟨claims, allClear, fault, seen, fun going => ?_, fun waits => ?_⟩
      · exact ((resounded_chosen (s.takeAt now)).pattern going o siren).1
      · have still := (choosePatterns_still (s.takeAt now).resounded o (.inl waits)).trans unit
        show (s.takeAt now).resounded.choosePatterns.sirens.units[o] = { s.siren o with
          claims := (s.takeAt now).resounded.choosePatterns.sirens.units[o].claims }
        rw [still]
        rfl
  case allClear =>
    have due : (((s.takeAt now).role o).isSiren && ((s.takeAt now).siren o).allClearDue now) = true := by
      refine Bool.and_eq_true_iff.mpr ⟨siren, ?_⟩
      rw [Siren.allClearDue, show ((s.takeAt now).siren o).allClear = some i from claim]
      exact decide_eq_true past
    have kept (p : Output) := choosePatterns_unit_kept ((s.takeAt now).allClearEnded o) p
    have unit (p : Output) := allClearEnded_unit (s.takeAt now) o p
    refine ⟨_, ((s.takeAt now).allClearEnded o).choosePatterns, congrArg answer (if_pos due), fillOnChange_refilledFrom _,
      rfl, rfl, ?_, allClearEnded_chosen _ o, fun p => ?_⟩
    · obtain ⟨-, allClear, -⟩ := kept o
      rw [unit, if_pos rfl] at allClear
      exact allClear
    · obtain ⟨claims, allClear, fault, seen⟩ := kept p
      rw [unit] at claims allClear fault seen
      refine ⟨claims, fault, seen, fun other => allClear.trans (if_neg other), fun going siren => ?_, fun still => ?_⟩
      · exact ((allClearEnded_chosen (s.takeAt now) o).pattern going p siren).1
      · have stands := (choosePatterns_still ((s.takeAt now).allClearEnded o) p still).trans (unit p)
        show ((s.takeAt now).allClearEnded o).choosePatterns.sirens.units[p] = { s.siren p with
          allClear := ((s.takeAt now).allClearEnded o).choosePatterns.sirens.units[p].allClear }
        rw [stands]
        rfl

end Sys2Proof.Machine
end

section
/-! SUPPORT. What every command leaves alone: the clock stands at the reading of the command, and the waiting commands stand
(O2). -/

namespace Sys2Proof.Machine

/-! ## The clock and the queue -/

/-- t reads the clock of s and has its waiting commands. -/
structure Steady (s t : State) : Prop where
  clock : t.clock = s.clock
  pending : t.pending = s.pending

section
variable {s t u : State}

theorem Steady.refl (s : State) : Steady s s := ⟨rfl, rfl⟩

theorem Steady.trans (h : Steady s t) (h' : Steady t u) : Steady s u := ⟨h'.clock.trans h.clock, h'.pending.trans h.pending⟩

theorem Steady.ite {b : Prop} [Decidable b] (h : Steady s t) (h' : Steady s u) : Steady s (if b then t else u) := by
  split
  · exact h
  · exact h'

/-- An effect on s with other parts changed. -/
theorem Steady.since (h : Steady t u) (clock : t.clock = s.clock) (pending : t.pending = s.pending) : Steady s u :=
  ⟨h.clock.trans clock, h.pending.trans pending⟩

/-- An effect that takes place under a condition. -/
theorem Steady.guarded {b : Prop} [Decidable b] (h : Steady s t) : Steady s (if b then t else s) := h.ite (.refl s)

theorem Keeps.steady (h : Keeps s t) : Steady s t := ⟨h.clock, h.pending⟩

theorem steady_of_apart (h : t.apart = s.apart) : Steady s t :=
  ⟨clock_of_apart h, (congrArg State.pending h : t.apart.pending = s.apart.pending)⟩

/-! ## Consequences -/

theorem Steady.settledWith (h : Steady s u) (event : List Cause) : Steady s (u.settleWith event) :=
  h.trans (settleWith_follows u event).steady

theorem Steady.settled (h : Steady s u) : Steady s u.settle := h.settledWith []

theorem Steady.filled (h : Steady s u) : Steady s u.fillOnChange := h.trans (fillOnChange_consumes u).steady

theorem Steady.considered (h : Steady s u) : Steady s u.considerQueue := h.trans (considerQueue_consumes u).steady

theorem phaseChanged_steady (s : State) : Steady s s.phaseChanged := (phaseChanged_consumes s).steady

theorem choosePatterns_steady (s : State) : Steady s s.choosePatterns := (choosePatterns_consumes s).steady

theorem enterRundown_steady (s : State) : Steady s s.enterRundown :=
  (phaseChanged_steady s.rundownBegun).since rfl rfl

theorem enterStopped_steady (s : State) : Steady s s.enterStopped :=
  (phaseChanged_steady s.stoppedBegun).since rfl rfl

theorem enterRunning_steady (s : State) : Steady s s.enterRunning :=
  (phaseChanged_steady { s with extraction := { s.extraction with phase := .running, timer := none } }).since rfl rfl

theorem enterStarting_steady (s : State) : Steady s s.enterStarting :=
  (phaseChanged_steady s.begun).since rfl rfl

end

/-! ## The station line -/

section
variable (s : State) (l : Line) (k : Station)

theorem withLine_steady (x : LineInterface) : Steady s (s.withLine l x) := ⟨rfl, rfl⟩

theorem startAttempt_steady : Steady s (s.startAttempt l) := by
  unfold State.startAttempt
  split
  · exact withLine_steady s l _
  · exact .refl s

theorem afterHearing_steady : Steady s s.afterHearing := ⟨rfl, rfl⟩

theorem release_steady (r : Report) : Steady s (s.release r) := by
  rw [release_eq]
  exact ⟨rfl, rfl⟩

theorem takeSilence_steady : Steady s s.takeSilence := by
  rw [takeSilence_frame]
  exact ⟨rfl, rfl⟩

theorem takeReset_steady : Steady s s.takeReset :=
  (steady_of_apart (takeReset_apart s)).since rfl rfl

theorem takeKey_steady (key : KeyKind) : Steady s (s.takeKey key) := by
  cases key with
  | silence => exact takeSilence_steady s
  | reset => exact takeReset_steady s

theorem deliverKey_steady (start : Time) (n : KeyKind × Byte) : Steady s (s.deliverKey k start n) :=
  (Steady.refl s).ite ((takeKey_steady _ n.1).since rfl rfl)

theorem chooseLeaders_steady : Steady s s.chooseLeaders := (chooseLeaders_consumes s).steady

theorem losePeer_steady : Steady s (s.losePeer k) := by
  have heard : Steady s (s.withLost k).afterHearing := (afterHearing_steady _).since rfl rfl
  exact (heard.trans (chooseLeaders_steady _)).settled

theorem cadenceFromState_steady : Steady s (s.cadenceFromState k) :=
  ((followCadence_consumes _).trans (chooseLeaders_consumes _)).steady.since rfl rfl

/-- R18 to R21: a complete notice, by what its delivery leaves alone. -/
theorem receive_steady {α : Type} (class_ : BitVec 3) (read : List Byte → Option α) (rx : Received)
    (deliver : State → Station → Time → α → State) (delivered : ∀ u k start x, Steady u (deliver u k start x)) :
    Steady s (s.receive l class_ read rx deliver) := by
  rcases receive_cases s l class_ read rx deliver with h | h | h | h | ⟨-, h⟩ | ⟨x, -, -, -, -, h⟩ <;> rw [h]
  · exact .refl s
  · exact withLine_steady s l _
  · exact withLine_steady s l _
  · exact withLine_steady s l _
  · exact ⟨rfl, rfl⟩
  · exact (delivered _ _ _ x).since rfl rfl

theorem fillKey_steady (key : KeyKind) (count : Byte) : Steady s (s.fillKey key count) := ⟨rfl, rfl⟩

theorem keyPress_steady (key : KeyKind) : Steady s (s.keyPress key) :=
  ((takeKey_steady _ key).trans (fillKey_steady _ key _)).since rfl rfl

theorem startFan_steady : Steady s s.startFan := by
  rcases startFan_cases s with h | h | ⟨-, -, h⟩ <;> rw [h]
  · exact .refl s
  · exact ⟨rfl, rfl⟩
  · exact enterStarting_steady s

end

/-! ## The spark channels and the valves -/

section
variable (s : State) (c : Channel) (o : Output)

theorem withChannel_steady (x : SparkChannel) : Steady s (s.withChannel c x) := ⟨rfl, rfl⟩

theorem changeFlags_steady (set : Bool) (x : SparkChannel) : Steady s (s.changeFlags c set x) := ⟨rfl, rfl⟩

theorem sparkAtChannel_steady : Steady s (s.sparkAtChannel c) :=
  Steady.ite (⟨rfl, rfl⟩ : Steady s (s.enterStorm c _)) (withChannel_steady s c _)

theorem handOff_steady (pulse : Time) : Steady s (s.handOff c pulse) := (release_steady s _).guarded

theorem spark_steady (pulse : Time) : Steady s (s.spark c pulse) := by
  have reported : Steady (s.sparkAtChannel c) (((s.sparkAtChannel c).restartWatch.sparkSlots c pulse).handOff c pulse) :=
    (handOff_steady _ c pulse).since rfl rfl
  exact ((sparkAtChannel_steady s c).trans reported).settledWith _

theorem noisePulse_steady : Steady s (s.noisePulse c) :=
  ((changeFlags_steady s c true _).ite (withChannel_steady s c _)).filled

theorem testPulse_steady : Steady s (s.testPulse c) :=
  ((changeFlags_steady s c false _).ite (withChannel_steady s c _)).filled

theorem becomeBlinded_steady : Steady s (s.becomeBlinded c) := (changeFlags_steady s c true _).filled

/-- Table 3.4: a pulse of every class. -/
theorem classify_steady (pulse : Time) (width : Nat) : Steady s (s.classify c pulse width) :=
  have noise := noisePulse_steady s c
  have blinded := becomeBlinded_steady s c
  (withChannel_steady s c _).ite ((spark_steady s c pulse).ite (noise.ite ((testPulse_steady s c).ite (noise.ite
    (blinded.trans (withChannel_steady _ c _))))))

theorem pulseEnd_steady (width : Nat) : Steady s (s.pulseEnd c width) := by
  unfold State.pulseEnd
  refine (withChannel_steady s c _).ite ?_
  split
  · exact classify_steady s c _ width
  · exact .refl s

theorem openValve_steady : Steady s (s.openValve o) := (⟨rfl, rfl⟩ : Steady s (s.withValve o _)).guarded

theorem closeWindow_steady : Steady s (s.closeWindow o) :=
  (openValve_steady _ o).since rfl rfl

theorem flowChange_steady (active : Bool) : Steady s (s.flowChange o active) :=
  Steady.ite ⟨rfl, rfl⟩ ⟨rfl, rfl⟩

end

/-! ## The extraction controller, the barriers and the supply -/

section
variable (s : State) (o : Output) (active : Bool)

/-- R103: a sample judged in each phase. -/
theorem judgeSample_steady : Steady s s.judgeSample := by
  have good : Steady s s.judgeGood := Steady.ite (Steady.since (enterRunning_steady _) rfl rfl) ⟨rfl, rfl⟩
  have slow : Steady s s.judgeFlow.judgeStop := Steady.ite (Steady.since (enterStopped_steady _) rfl rfl) ⟨rfl, rfl⟩
  unfold State.judgeSample
  cases s.extraction.phase with
  | starting => exact good
  | rundown => exact slow
  | standby | running | diverting | stopped => exact ⟨rfl, rfl⟩

theorem completeSample_steady (w : SampleWindow) : Steady s (s.completeSample w) := by
  have judged : Steady s (s.takeSample w).judgeSample := (judgeSample_steady _).since rfl rfl
  have planned : Steady s (s.takeSample w).judgeSample.planWindow := judged.trans ⟨rfl, rfl⟩
  exact planned.settledWith _

theorem setFeedback_steady : Steady s (s.setFeedback o active) := ⟨rfl, rfl⟩

theorem judgeMismatches_steady : Steady s s.judgeMismatches := (judgeMismatches_consumes s).steady

theorem endDiverting_steady : Steady s (s.endDiverting active) := (enterRundown_steady s).guarded

theorem reopenMotor_steady : Steady s (s.reopenMotor o) := Steady.ite ⟨rfl, rfl⟩ ⟨rfl, rfl⟩

theorem magnetFeedback_steady : Steady s (s.magnetFeedback o active) := by
  unfold State.magnetFeedback
  simp only
  split
  · exact ⟨rfl, rfl⟩
  · exact ⟨rfl, rfl⟩
  · exact ⟨rfl, rfl⟩
  · exact Steady.ite ⟨rfl, rfl⟩ ⟨rfl, rfl⟩
  · exact .refl s

theorem motorFeedback_steady : Steady s (s.motorFeedback o active) := by
  unfold State.motorFeedback
  simp only
  split
  · exact ⟨rfl, rfl⟩
  · exact ⟨rfl, rfl⟩
  · exact ⟨rfl, rfl⟩
  · exact (reopenMotor_steady s o).ite ⟨rfl, rfl⟩
  · exact .refl s

theorem barrierChange_steady : Steady s (s.barrierChange o active) :=
  have fed := setFeedback_steady s o active
  (fed.trans ((motorFeedback_steady _ o active).ite (magnetFeedback_steady _ o active).guarded)).considered.filled.ite fed

theorem pauseRun_steady : Steady s s.pauseRun := by
  rw [pauseRun_frame]
  exact ⟨rfl, rfl⟩

theorem judgeSupply_steady : Steady s s.judgeSupply :=
  have recovers : Steady s s.supplyRecovers := Steady.filled (Steady.considered ⟨rfl, rfl⟩)
  have falls : Steady s s.supplyFalls := Steady.filled (Steady.considered (Steady.since (pauseRun_steady _) rfl rfl))
  have counted : Steady s (if Config.successive ≤ s.supply.count + 1 then s.supplyFalls
      else { s with supply := { s.supply with count := s.supply.count + 1 } }) := falls.ite ⟨rfl, rfl⟩
  recovers.guarded.ite (counted.ite ⟨rfl, rfl⟩)

end

/-! ## The start sequencer -/

section
variable (s : State)

theorem failRead_steady : Steady s s.failRead := Steady.ite ⟨rfl, rfl⟩ ⟨rfl, rfl⟩

theorem completeRead_steady (image : List Byte) : Steady s (s.completeRead image) := by
  unfold State.completeRead
  split
  · rw [enterListen_eq]
    exact Steady.settled ⟨rfl, rfl⟩
  · exact ⟨rfl, rfl⟩

theorem enterSettle_steady : Steady s s.enterSettle := by
  rw [enterSettle_frame]
  exact ⟨rfl, rfl⟩

theorem enterOperating_steady : Steady s s.enterOperating := by
  rw [enterOperating_eq, opened_eq]
  exact Steady.settled ⟨rfl, rfl⟩

end

/-! ## Every command -/

/-- The command answers a state at its own clock reading, with the waiting commands as they were. -/
def Answers (c : Instr) : Prop :=
  ∀ s : State, ∃ t, exec c s = .next t ∧ t.pending = s.pending ∧ t.clock = c.clockOf.getD 0

section
variable {c : Instr} (now : Time) (l : Line)

theorem answers_of {f : State → State} (h : ∀ s, exec c s = .next (f s))
    (steady : ∀ s, Steady (s.takeAt (c.clockOf.getD 0)) (f s)) : Answers c :=
  fun s => ⟨f s, h s, (steady s).pending, (steady s).clock⟩

theorem answers_transact {request argument : Byte}
    (h : ∀ s, exec c s = .next ((s.takeAt (c.clockOf.getD 0)).transact request argument)) : Answers c :=
  answers_of h fun _ => ⟨rfl, rfl⟩

/-- A command that takes the attempt in transmission, if there is one. -/
theorem answers_placed {f : State → Attempt → State} (h : ∀ s, exec c s = .next (
      match ((s.takeAt (c.clockOf.getD 0)).line l).place with
      | some a => f s a
      | none => s.takeAt (c.clockOf.getD 0)))
    (steady : ∀ s a, Steady (s.takeAt (c.clockOf.getD 0)) (f s a)) : Answers c :=
  answers_of h fun s => by
    split
    · exact steady s _
    · exact .refl _

theorem answers_checkError (class_ : BitVec 3) (rx : Received) : Answers (.checkError now l class_ rx) :=
  answers_of (fun _ => rfl) fun _ =>
    (Steady.refl _).ite ((withLine_steady _ l _).ite (withLine_steady _ l _).guarded)

theorem answers_singleLine (k : Station) : Answers (.singleLine now k) :=
  answers_of (f := fun s => match ((s.takeAt now).peers[k]).singleTest now with
      | some m => { s.takeAt now with
          peers := change s.peers k fun p => { p with single := some m }, flags := s.flags ||| Attention.singleLine.mask }
      | none => s.takeAt now) (fun _ => rfl) fun s => by
    split
    · exact ⟨rfl, rfl⟩
    · exact .refl _

theorem answers_stopPress : Answers (.stopPress now) :=
  answers_of (fun _ => rfl) fun s =>
    have pressed : Steady (s.takeAt now) { s.takeAt now with inputs := { s.inputs with stop := .settled true } } := ⟨rfl, rfl⟩
    ((pressed.settledWith [.stopKey]).ite pressed).guarded

theorem answers_startGraceExpiry : Answers (.startGraceExpiry now) :=
  answers_of (fun _ => rfl) fun s =>
    have marked : Steady (s.takeAt now) { s.takeAt now with
      extraction := { s.extraction with startFail := true }, flags := s.flags ||| Attention.fanFault.mask } := ⟨rfl, rfl⟩
    (marked.settledWith [.startFail]).guarded

theorem answers_escalated : Answers (.escalated now) :=
  answers_of (fun _ => rfl) fun s => Steady.guarded (by
    split
    · exact Steady.settled ⟨rfl, rfl⟩
    · exact .refl _)

theorem answers_sampleComplete : Answers (.sampleComplete now) :=
  answers_of (fun _ => rfl) fun s => by
    cases (s.takeAt now).extraction.window with
    | none => exact .refl _
    | some w => exact (completeSample_steady _ w).guarded

theorem answers_gateFeedbackChange (active : Bool) : Answers (.gateFeedbackChange now active) :=
  answers_of (fun _ => rfl) fun s => by
    cases (s.takeAt now).gateOutput with
    | none => exact .refl _
    | some o =>
      have judged := (setFeedback_steady (s.takeAt now) o active).trans (judgeMismatches_steady _)
      exact (judged.trans (endDiverting_steady _ active)).settled.guarded

theorem answers_runningContactChange (active : Bool) : Answers (.runningContactChange now active) :=
  answers_of (fun _ => rfl) fun s => by
    cases (s.takeAt now).contactorOutput with
    | none => exact .refl _
    | some o => exact ((setFeedback_steady (s.takeAt now) o active).trans (judgeMismatches_steady _)).guarded

end

/-- Each command by what its meaning leaves of the clock and of the queue. -/
theorem answers_command (c : Instr) : Answers c := by
  cases c with
  | powerOn => exact fun s => ⟨s.restarted, exec_powerOn s, rfl, rfl⟩
  | imageReadFailed now => exact answers_of (fun _ => rfl) fun _ => (failRead_steady _).guarded
  | imageReadRetry now => exact answers_of (fun _ => rfl) fun _ => Steady.guarded ⟨rfl, rfl⟩
  | imageReadComplete now image => exact answers_of (fun _ => rfl) fun _ => (completeRead_steady _ image).guarded
  | listenEnd now => exact answers_of (fun _ => rfl) fun _ => (enterSettle_steady _).guarded
  | settleEnd now => exact answers_of (fun _ => rfl) fun _ => (enterOperating_steady _).guarded
  | attemptStart now line => exact answers_of (fun _ => rfl) fun _ => (startAttempt_steady _ line).guarded
  | contentionLost now line => exact answers_placed line (fun _ => rfl) fun s _ => withLine_steady _ line _
  | txError now place => exact answers_placed place.line (fun _ => rfl) fun _ _ => ⟨rfl, rfl⟩
  | attemptSuccess now line => exact answers_placed line (fun _ => rfl) fun _ _ => ⟨rfl, rfl⟩
  | probeTimerExpiry now line => exact answers_of (fun _ => rfl) fun _ => Steady.guarded ⟨rfl, rfl⟩
  | stateRoundHoldClear now line => exact answers_of (fun _ => rfl) fun _ => withLine_steady _ line _
  | stateIntervalExpiry now => exact answers_of (fun _ => rfl) fun _ => Steady.guarded ⟨rfl, rfl⟩
  | receiveFramingError now line => exact answers_of (fun _ => rfl) fun _ => (withLine_steady _ line _).guarded
  | noticeLengthError now line length => exact answers_of (fun _ => rfl) fun _ => (withLine_steady _ line _).guarded
  | callNotice now line rx =>
    exact answers_of (fun _ => rfl) fun _ => receive_steady _ line _ _ rx _ fun u k start z =>
      have heard : Steady u (u.deliverCall k start z).afterHearing := (afterHearing_steady _).since rfl rfl
      heard.settled
  | sparkNotice now line rx =>
    exact answers_of (fun _ => rfl) fun _ => receive_steady _ line _ _ rx _ fun u k start p =>
      ((afterHearing_steady u).trans (release_steady _ _)).settledWith _
  | keyNotice now line rx =>
    exact answers_of (fun _ => rfl) fun _ => receive_steady _ line _ _ rx _ fun u k start n =>
      ((afterHearing_steady u).trans (deliverKey_steady _ k start n)).filled
  | stateNotice now line rx =>
    exact answers_of (fun _ => rfl) fun _ => receive_steady _ line _ _ rx _ fun u k start c =>
      have heard : Steady u (u.deliverState k start c).afterHearing := (afterHearing_steady _).since rfl rfl
      (heard.trans (cadenceFromState_steady _ k)).settled
  | lineQuiet now line => exact answers_of (fun _ => rfl) fun _ => ⟨rfl, rfl⟩
  | peerLost now peer =>
    exact answers_of (fun _ => rfl) fun _ => (losePeer_steady _ peer).guarded
  | singleLine now peer => exact answers_singleLine now peer
  | callPress now => exact answers_of (fun _ => rfl) fun _ => Steady.guarded (Steady.settled ⟨rfl, rfl⟩)
  | callRelease now => exact answers_of (fun _ => rfl) fun _ => Steady.guarded (Steady.settled ⟨rfl, rfl⟩)
  | heatInputChange now active => exact answers_of (fun _ => rfl) fun _ => Steady.guarded (Steady.settled ⟨rfl, rfl⟩)
  | silencePress now => exact answers_of (fun _ => rfl) fun _ => (keyPress_steady _ .silence).guarded
  | resetPress now => exact answers_of (fun _ => rfl) fun _ => (keyPress_steady _ .reset).guarded
  | startPress now =>
    exact answers_of (fun _ => rfl) fun _ => Steady.guarded
      (Steady.ite (Steady.settled (Steady.since (startFan_steady _) rfl rfl)) ⟨rfl, rfl⟩)
  | stopPress now => exact answers_stopPress now
  | sensorPulseStart now channel =>
    exact answers_of (fun _ => rfl) fun _ => Steady.ite ⟨rfl, rfl⟩ ⟨rfl, rfl⟩
  | sensorPulseEnd now channel width =>
    exact answers_of (fun _ => rfl) fun _ => 
      Steady.ite (Steady.since (pulseEnd_steady _ channel width) rfl rfl) ⟨rfl, rfl⟩
  | blinded now channel => exact answers_of (fun _ => rfl) fun _ => (becomeBlinded_steady _ channel).guarded
  | blindedClear now channel => exact answers_of (fun _ => rfl) fun _ => (changeFlags_steady _ channel false _).filled.guarded
  | bucketBoundary now => exact answers_of (fun _ => rfl) fun _ => Steady.guarded (Steady.settled ⟨rfl, rfl⟩)
  | escalated now => exact answers_escalated now
  | watchHoldExpiry now => exact answers_of (fun _ => rfl) fun _ => Steady.guarded (Steady.settled ⟨rfl, rfl⟩)
  | silent now channel => exact answers_of (fun _ => rfl) fun _ => (changeFlags_steady _ channel true _).filled.guarded
  | windowOpen now output => exact answers_of (fun _ => rfl) fun _ => openValve_steady _ output
  | windowClose now output => exact answers_of (fun _ => rfl) fun _ => (closeWindow_steady _ output).guarded
  | flowSwitchChange now output active => exact answers_of (fun _ => rfl) fun _ => (flowChange_steady _ output active).guarded
  | confirmTimerExpiry now output => exact answers_of (fun _ => rfl) fun _ => Steady.guarded (Steady.settled ⟨rfl, rfl⟩)
  | cutOff now output => exact answers_of (fun _ => rfl) fun _ => Steady.guarded (Steady.settled ⟨rfl, rfl⟩)
  | valveStuck now output => exact answers_of (fun _ => rfl) fun _ => Steady.guarded (Steady.settled ⟨rfl, rfl⟩)
  | flowPulse now => exact answers_of (fun _ => rfl) fun _ => ⟨rfl, rfl⟩
  | sampleComplete now => exact answers_sampleComplete now
  | periodicWindowStart now => exact answers_of (fun _ => rfl) fun _ => Steady.guarded ⟨rfl, rfl⟩
  | startGraceExpiry now => exact answers_startGraceExpiry now
  | gateFeedbackChange now active => exact answers_gateFeedbackChange now active
  | gateTimerExpiry now =>
    exact answers_of (fun _ => rfl) fun _ => 
      Steady.guarded (Steady.settled (Steady.since (enterRundown_steady _) rfl rfl))
  | rundownLimitExpiry now =>
    exact answers_of (fun _ => rfl) fun _ => 
      Steady.guarded (Steady.settled (Steady.since (enterStopped_steady _) rfl rfl))
  | runningContactChange now active => exact answers_runningContactChange now active
  | contactorMismatch now => exact answers_of (fun _ => rfl) fun _ => Steady.guarded ⟨rfl, rfl⟩
  | gateMismatch now => exact answers_of (fun _ => rfl) fun _ => Steady.guarded ⟨rfl, rfl⟩
  | barrierFeedbackChange now output active =>
    exact answers_of (fun _ => rfl) fun _ => (barrierChange_steady _ output active).guarded
  | travelTimerExpiry now output => exact answers_of (fun _ => rfl) fun _ => Steady.guarded (Steady.filled ⟨rfl, rfl⟩)
  | travelExhausted now output =>
    exact answers_of (fun _ => rfl) fun _ => Steady.guarded (Steady.filled (Steady.considered ⟨rfl, rfl⟩))
  | damperWaitExpiry now output =>
    exact answers_of (fun _ => rfl) fun _ => Steady.guarded (Steady.filled (Steady.considered ⟨rfl, rfl⟩))
  | sirenFeedbackChange now output active => exact answers_of (fun _ => rfl) fun _ => Steady.guarded ⟨rfl, rfl⟩
  | sirenFault now output => exact answers_of (fun _ => rfl) fun _ => Steady.guarded ⟨rfl, rfl⟩
  | cadenceLevelChange now => exact answers_of (fun _ => rfl) fun _ => ⟨rfl, rfl⟩
  | resoundTimerExpiry now =>
    exact answers_of (fun _ => rfl) fun _ => 
      Steady.guarded (Steady.filled (Steady.since (choosePatterns_steady _) rfl rfl))
  | allClearEnd now output =>
    exact answers_of (fun _ => rfl) fun _ => 
      Steady.guarded (Steady.filled (Steady.since (choosePatterns_steady _) rfl rfl))
  | supplySample now millivolts =>
    exact answers_of (fun _ => rfl) fun _ => 
      Steady.guarded (Steady.ite (Steady.since (judgeSupply_steady _) rfl rfl) ⟨rfl, rfl⟩)
  | status now argument => exact answers_transact fun _ => rfl
  | zones now argument => exact answers_transact fun _ => rfl
  | peer now argument => exact answers_transact fun _ => rfl
  | valve now argument => exact answers_transact fun _ => rfl
  | barriers now argument => exact answers_transact fun _ => rfl
  | sirens now argument => exact answers_transact fun _ => rfl
  | fan now argument => exact answers_transact fun _ => rfl
  | counters now argument => exact answers_transact fun _ => rfl
  | takeRecord now argument => exact answers_transact fun _ => rfl
  | takeRecordComplete now => exact answers_of (fun _ => rfl) fun _ => ⟨rfl, rfl⟩
  | unknown now request argument => exact answers_transact fun _ => rfl
  | lineIdle now line => exact answers_of (fun _ => rfl) fun _ => (withLine_steady _ line _).guarded
  | checkError now line class_ rx => exact answers_checkError now line class_ rx
  | instantAged now => exact answers_of (fun _ => rfl) fun _ => Steady.guarded ⟨rfl, rfl⟩

/-- Settles O2: no command writes the queue, and none but POWER_ON takes another clock than its own reading. -/
theorem everyCommandAnswers : Obligations.EveryCommandAnswers := answers_command

end Sys2Proof.Machine
end

section
/-! SUPPORT. The image read on the memory's bus and its failures (R150, R151, R152, R155; O5). -/

namespace Sys2Proof.Machine

/-! ## The bus (R150) -/

section
variable {answers : List BusAnswer} (taken : List Byte)

/-- R150: the reads left against too few answers. -/
theorem readWith_unfinished {n : Nat} (few : answers.length < n) :
    readWith taken (List.replicate n .read) answers = .reading := by
  induction n generalizing taken answers with
  | zero => exact absurd few (Nat.not_lt_zero _)
  | succ n ih =>
    cases answers with
    | nil => rfl
    | cons a answers => exact ih _ (Nat.lt_of_succ_lt_succ few)

/-- R150: the reads left against answers for all of them. -/
theorem readWith_finished {n : Nat} (enough : n ≤ answers.length) :
    readWith taken (List.replicate n .read) answers = .complete (taken ++ (answers.take n).map BusAnswer.octet) := by
  induction n generalizing taken answers with
  | zero => simp [readWith]
  | succ n ih =>
    cases answers with
    | nil => exact absurd enough (Nat.not_succ_le_zero n)
    | cons a answers =>
      calc readWith taken (List.replicate (n + 1) .read) (a :: answers)
          = readWith (taken ++ [a.octet]) (List.replicate n .read) answers := rfl
        _ = _ := by simp [ih _ (Nat.le_of_succ_le_succ enough)]

variable {call write : BusAnswer}

/-- R150: an acknowledge missing ends the read. -/
theorem imageRead_refused (missing : call.acknowledged = false ∨ write.acknowledged = false) :
    readWith [] imageRead (call :: write :: answers) = .failed := by
  cases called : call.acknowledged with
  | false => exact if_neg (by rw [called]; exact Bool.false_ne_true)
  | true =>
    have unwritten : write.acknowledged = false := missing.resolve_left (by rw [called]; exact nofun)
    exact (if_pos called).trans (if_neg (by rw [unwritten]; exact Bool.false_ne_true))

/-- R150: with both acknowledges the octets are read. -/
theorem imageRead_acknowledged (called : call.acknowledged = true) (written : write.acknowledged = true) :
    readWith [] imageRead (call :: write :: answers) = readWith [] (List.replicate 256 .read) answers :=
  (if_pos called).trans (if_pos written)

end

/-! ## The commands (R150, R152, R155) -/

section
variable {now : Time} {s : State} {began : Time} (phase : s.start.phase = .load)
include phase

theorem exec_imageReadFailed (reading : s.start.readBegan = some began) :
    exec (.imageReadFailed now) s = .next (s.takeAt now).failRead :=
  congrArg answer (if_pos (by simp only [State.reading, State.takeAt_start, phase, reading]; rfl))

theorem exec_imageReadRetry {deadline : Time} (retry : s.start.retry = some deadline) (past : reached now deadline = true) :
    exec (.imageReadRetry now) s = .next { s with
      clock := now
      start := { s.start with reads := s.start.reads + 1, readBegan := some now, retry := none } } :=
  congrArg answer (if_pos (by simp only [State.takeAt_start, phase, due_reached retry past]; rfl))

end

/-- Settles O5: the two commands by their guards, and the bus script step by step. -/
theorem imageReadFails : Obligations.ImageReadFails := by
  refine ⟨fun now s began phase reading => ⟨fun again => ?_, fun last => ?_⟩,
    fun now s deadline phase retry past => exec_imageReadRetry phase retry past, rfl,
    fun call write octets began now => ⟨fun missing => ?_, fun called written => ⟨fun few => ?_, fun enough => ?_⟩⟩⟩
  · rw [exec_imageReadFailed phase reading, State.failRead]
    exact congrArg Host.Outcome.next (if_pos again)
  · rw [exec_imageReadFailed phase reading, State.failRead]
    exact congrArg Host.Outcome.next (if_neg (Nat.not_lt.mpr last))
  · rw [imageRead_refused missing]
    rfl
  · rw [imageRead_acknowledged called written, readWith_unfinished [] few]
    rfl
  · rw [imageRead_acknowledged called written, readWith_finished [] enough]
    rfl

end Sys2Proof.Machine
end

section
/-! SUPPORT. Kept instants and their ageing (R149; O53): the order of instants, the time since one, and INSTANT_AGED. -/

namespace Sys2Proof.Machine

/-! ## Order and elapsed time -/

section
variable {x y : Instant} {m n : Nat} {now : Time}

theorem Instant.later_unaged (hx : x.aged = none) (hy : y.aged = some n) : x.later y = true ∧ y.later x = false := by
  simp only [Instant.later, hx, hy, and_self]

theorem Instant.later_aged (hx : x.aged = some m) (hy : y.aged = some n) (first : m < n) :
    y.later x = true ∧ x.later y = false := by
  simp only [Instant.later, hx, hy, if_neg first.ne, if_neg first.ne', first, first.not_gt, decide_true, decide_false,
    and_self]

theorem Instant.elapsed_aged (hx : x.aged = some n) : x.elapsed now = 2 ^ 30 := by
  simp only [Instant.elapsed, hx]
  rfl

/-- R149: an instant that is not after now is less than half the clock's range behind it. -/
theorem Instant.elapsed_unaged (hx : x.aged = none) (past : 0 ≤ (now - x.reading).toInt) :
    (x.elapsed now : Int) = (now - x.reading).toInt := by
  have small : (now - x.reading).toNat < 2147483648 := by
    rw [BitVec.toInt_eq_toNat_cond] at past
    split at past <;> omega
  have unlater : Machine.later x.reading now = false := by
    rw [not_later]
    bv_omega
  simp only [Instant.elapsed, hx, unlater, Bool.false_eq_true, if_false]
  rw [BitVec.toInt_eq_toNat_of_lt (by omega)]

end

/-! ## INSTANT_AGED -/

section
variable (now : Time) (s : State)

theorem Instant.agesAt_iff (i : Instant) :
    i.agesAt now = true ↔ i.aged = none ∧ (2 ^ 30 : Int) ≤ (now - i.reading).toInt := by
  rw [Instant.agesAt, Bool.and_eq_true, Option.isNone_iff_eq_none, decide_eq_true_iff]
  rfl

theorem Instant.age_eq (rank : Nat) (i : Instant) : i.age now rank =
    if i.aged = none ∧ (2 ^ 30 : Int) ≤ (now - i.reading).toInt then ⟨i.reading, some rank⟩ else i :=
  ite_congr (propext (i.agesAt_iff now)) (fun _ => rfl) fun _ => rfl

theorem exec_instantAged_still (h : ∀ i ∈ s.instants, i.agesAt now = false) :
    exec (.instantAged now) s = .next (s.takeAt now) :=
  congrArg answer (if_neg (by
    rw [State.ageingDue, List.any_eq_true]
    rintro ⟨i, kept, ages⟩
    exact Bool.false_ne_true ((h i kept).symm.trans ages)))

theorem exec_instantAged_due (h : ∃ i ∈ s.instants, i.agesAt now = true) :
    exec (.instantAged now) s = .next (s.takeAt now).ageInstants :=
  congrArg answer (if_pos (List.any_eq_true.mpr h))

end

/-- Settles O53: the command by whether an instant ages at its reading, and the order case by case. -/
theorem instantsAge : Obligations.InstantsAge := by
  refine ⟨fun now s => ⟨exec_instantAged_still now s, fun ages => ?_⟩, fun x y n => Instant.later_unaged,
    fun x y m n => Instant.later_aged, fun now x n => Instant.elapsed_aged, fun now x => Instant.elapsed_unaged,
    fun x y => rfl⟩
  rw [exec_instantAged_due now s ages, ← funext (Instant.age_eq now s.agings)]
  rfl

end Sys2Proof.Machine
end

section
/-! SUPPORT. The event record through filings (R159), and the TAKE_RECORD transaction with its completion (R160; O52). -/

namespace Sys2Proof.Machine

/-! ## Filings (R159) -/

section
variable (r : EventRecord) (now : Time) (f : Filing) (fs : List Filing)

/-- The entry that a filing makes at a clock reading. -/
def Filing.entry (f : Filing) (now : Time) : Entry := ⟨now, f.kind, f.subject, f.value⟩

theorem file_free (free : r.entries.length < 64) : r.file now f = { r with entries := r.entries ++ [f.entry now] } :=
  if_neg (Nat.not_le.mpr free)

theorem file_full (full : r.entries.length = 64) :
    r.file now f = ⟨r.entries.tail ++ [f.entry now], bump8 r.dropped, false⟩ := by
  rw [← List.drop_one]
  exact if_pos full.ge

/-- R159, R160: of the entries held and the new ones the newest 64 stay, and the oldest one held stands as sent while none has
been discarded. -/
theorem fileAll_keeps (fits : r.entries.length ≤ 64) :
    (r.fileAll now fs).entries =
        (r.entries ++ fs.map fun f => f.entry now).drop (r.entries.length + fs.length - 64) ∧
      (r.fileAll now fs).sent = (r.sent && decide (r.entries.length + fs.length ≤ 64)) := by
  induction fs generalizing r with
  | nil => simp [fits]
  | cons f fs ih =>
    rw [fileAll_cons]
    rcases Nat.lt_or_eq_of_le fits with free | full
    · have count : (r.entries ++ [f.entry now]).length + fs.length = r.entries.length + (f :: fs).length := by simp; omega
      obtain ⟨entries, sent⟩ := ih { r with entries := r.entries ++ [f.entry now] } (by rw [List.length_append]; exact free)
      rw [file_free r now f free, entries, sent, count, List.append_assoc]
      exact ⟨rfl, rfl⟩
    · obtain ⟨e, es, here⟩ := List.exists_cons_of_length_pos (l := r.entries) (by omega)
      have count : (r.entries.tail ++ [f.entry now]).length = 64 := by simp [full]
      obtain ⟨entries, sent⟩ := ih ⟨r.entries.tail ++ [f.entry now], bump8 r.dropped, false⟩ count.le
      rw [file_full r now f full, entries, sent, count, full, Nat.add_sub_cancel_left, Nat.add_sub_cancel_left,
        decide_eq_false (by simp : ¬64 + (f :: fs).length ≤ 64), Bool.and_false, Bool.false_and]
      simp [here]

theorem fileAll_dropped (fits : r.entries.length + fs.length ≤ 64) : (r.fileAll now fs).dropped = r.dropped := by
  induction fs generalizing r with
  | nil => rfl
  | cons f fs ih =>
    rw [List.length_cons] at fits
    rw [fileAll_cons, file_free r now f (by omega), ih]
    rw [List.length_append, List.length_singleton]
    omega

end

/-! ## TAKE_RECORD (R160) -/

section
variable (now : Time) (argument : Byte) (s : State)

theorem exec_takeRecord : exec (.takeRecord now argument) s = .next { s with
    clock := now, port := ⟨s.takeRecord⟩, record := { s.record with sent := !s.record.entries.isEmpty } } := rfl

theorem takeRecord_eq : s.takeRecord = match s.record.entries with
    | [] => [3]
    | e :: es => [0, octet (es.length + 1)] ++ be32 e.stamp.toNat ++ [octet e.kind.code, e.subject] ++ be16 e.value.toNat := by
  unfold State.takeRecord
  cases s.record.entries <;> rfl

theorem exec_takeRecordComplete :
    exec (.takeRecordComplete now) s = .next { s with clock := now, record := s.record.completeTake } := rfl

theorem exec_takeRecordComplete_filed {fs : List Filing} {r : EventRecord} (h : (s.record.fileAll s.clock fs).completeTake = r) :
    exec (.takeRecordComplete now) (s.fileAll fs) = .next { s.fileAll fs with clock := now, record := r } := by
  rw [exec_takeRecordComplete, State.fileAll_record, h]

/-- R160: the completion removes the entry sent while it is still the oldest. -/
theorem completeTake_eq (r : EventRecord) : r.completeTake =
    { r with entries := if r.sent then r.entries.tail else r.entries, sent := false } := by
  rw [EventRecord.completeTake, List.drop_one]

/-- R160: the completion after filings that have discarded no entry. -/
theorem completeTake_fits (r : EventRecord) (fs : List Filing) (sent : r.sent = !r.entries.isEmpty)
    (fits : r.entries.length + fs.length ≤ 64) : (r.fileAll now fs).completeTake =
      ⟨if r.entries = [] then fs.map fun f => f.entry now else r.entries.tail ++ fs.map fun f => f.entry now, r.dropped,
        false⟩ := by
  obtain ⟨entries, still⟩ := fileAll_keeps r now fs (by omega)
  rw [Nat.sub_eq_zero_of_le fits, List.drop_zero] at entries
  rw [completeTake_eq, entries, still, fileAll_dropped r now fs fits, decide_eq_true fits, sent, Bool.and_true]
  cases r.entries <;> rfl

/-- R160: the completion after filings that have discarded the entry sent. -/
theorem completeTake_discarded (r : EventRecord) (fs : List Filing) (fits : r.entries.length ≤ 64)
    (discards : 64 < r.entries.length + fs.length) : (r.fileAll now fs).completeTake =
      ⟨(r.entries ++ fs.map fun f => f.entry now).drop (r.entries.length + fs.length - 64), (r.fileAll now fs).dropped,
        false⟩ := by
  obtain ⟨entries, sent⟩ := fileAll_keeps r now fs fits
  rw [decide_eq_false (Nat.not_le.mpr discards), Bool.and_false] at sent
  rw [completeTake_eq, entries, sent]
  rfl

end

/-- Settles O52: the transaction leaves the entries to be sent again; the completion by whether the filings since the transaction
have found free places. -/
theorem takeRecordCompletes : Obligations.TakeRecordCompletes := by
  refine ⟨fun now argument s => ?sends, fun now s => ?completes, fun r now f _ => ⟨file_free r now f, file_full r now f⟩,
    fun now done argument fs s held => ⟨_, exec_takeRecord now argument s, fun fits => ?fits, fun discards _ => ?discarded⟩⟩
  case sends =>
    exact ⟨_, exec_takeRecord now argument s, rfl, rfl, takeRecord_eq s, fun again =>
      ⟨_, exec_takeRecord again argument _, rfl⟩⟩
  case completes => rw [exec_takeRecordComplete, completeTake_eq]
  case fits => exact exec_takeRecordComplete_filed done _ (completeTake_fits now _ fs rfl fits)
  case discarded => exact exec_takeRecordComplete_filed done _ (completeTake_discarded now _ fs held discards)

end Sys2Proof.Machine
end

section
/-! SUPPORT. The pins of the maintenance port (R157, R158, R160; O51): the levels of a transaction, the bits sampled and the
falling edges counted after each of them, and the bits on MDO. -/

namespace Sys2Proof.Machine

/-! ## The levels of a transaction (R157) -/

/-- R157, mode 0: MDI takes each bit with MCK low, and keeps it for the rising edge. -/
def clockedBits (bits : List Bool) : List PortPins :=
  bits.flatMap fun bit => [⟨true, false, bit⟩, ⟨true, true, bit⟩]

/-- R157: MCS goes active with MCK low, and the bits follow. -/
def portLevels (bits : List Bool) : List PortPins := ⟨true, false, bits.getD 0 false⟩ :: clockedBits bits

theorem clockedBits_length (bits : List Bool) : (clockedBits bits).length = 2 * bits.length := by
  induction bits with
  | nil => rfl
  | cons b bits ih => rw [clockedBits, List.flatMap_cons, List.length_append, ← clockedBits, ih, List.length_cons]; simp; omega

/-- The clock is high at every other level. -/
theorem clockedBits_at (bits : List Bool) (i : Nat) :
    (clockedBits bits)[i]? = bits[i / 2]?.map fun bit => ⟨true, decide (i % 2 = 1), bit⟩ := by
  induction bits generalizing i with
  | nil => rfl
  | cons b bits ih =>
    match i with
    | 0 | 1 => rfl
    | i + 2 =>
      rw [Nat.add_div_right i (by decide), Nat.add_mod_right]
      exact ih i

section
variable {bits : List Bool} {x : PortShift} {i : Nat}

/-- The levels after the first: MDI of a bit, with MCK low and then high. -/
theorem portLevels_next (inside : i < 2 * bits.length) :
    ∃ bit, bits[i / 2]? = some bit ∧ (portLevels bits)[i + 1]? = some ⟨true, decide (i % 2 = 1), bit⟩ := by
  obtain ⟨bit, here⟩ : ∃ bit, bits[i / 2]? = some bit := ⟨_, List.getElem?_eq_getElem (by omega)⟩
  exact ⟨bit, here, (clockedBits_at bits i).trans (by rw [here]; rfl)⟩

/-- The port after the level numbered i. -/
def shiftedAt (bits : List Bool) (x : PortShift) (i : Nat) : PortShift :=
  ((portLevels bits).take (i + 1)).foldl PortShift.next x

theorem shiftedAt_succ {p : PortPins} (level : (portLevels bits)[i + 1]? = some p) :
    shiftedAt bits x (i + 1) = (shiftedAt bits x i).next p := by
  rw [shiftedAt, List.take_add_one, level, List.foldl_append]
  rfl

/-- R157: a level with MCK low counts a falling edge after MCK high. -/
theorem next_low {p : PortPins} (active : x.pins.select = true) (select : p.select = true) (low : p.clock = false) :
    x.next p = ⟨p, x.bits, if x.pins.clock then x.falls + 1 else x.falls⟩ := by
  simp [PortShift.next, active, select, low]

/-- R157: a level with MCK high samples MDI after MCK low. -/
theorem next_high {p : PortPins} (active : x.pins.select = true) (select : p.select = true) (high : p.clock = true)
    (was : x.pins.clock = false) : x.next p = ⟨p, x.bits ++ [p.data], x.falls⟩ := by
  simp [PortShift.next, active, select, high, was]

/-- R157: after the level numbered i, MCK has risen i / 2 times and fallen (i - 1) / 2 times. -/
theorem shiftedAt_eq (idle : x.pins.select = false) (inside : i ≤ 2 * bits.length) : ∃ data : Bool,
    shiftedAt bits x i = ⟨⟨true, decide (i ≠ 0 ∧ i % 2 = 0), data⟩, bits.take (i / 2), (i - 1) / 2⟩ := by
  induction i with
  | zero => exact ⟨_, if_neg (by rw [idle]; exact Bool.false_ne_true)⟩
  | succ i ih =>
    obtain ⟨data, before⟩ := ih (by omega)
    obtain ⟨bit, here, level⟩ := portLevels_next (bits := bits) (i := i) (by omega)
    refine ⟨bit, ?_⟩
    rw [shiftedAt_succ level, before]
    rcases Nat.mod_two_eq_zero_or_one i with even | odd
    · rw [next_low rfl rfl (by simp [even])]
      have rises : (i + 1) / 2 = i / 2 := by omega
      have falls : (if i ≠ 0 ∧ i % 2 = 0 then (i - 1) / 2 + 1 else (i - 1) / 2) = i / 2 := by split <;> omega
      simp only [decide_eq_true_eq, falls, rises, Nat.add_sub_cancel]
      simp [even, Nat.add_mod]
    · rw [next_high rfl rfl (by simp [odd]) (by simp [odd])]
      have rises : (i + 1) / 2 = i / 2 + 1 := by omega
      have falls : (i - 1) / 2 = i / 2 := by omega
      simp only [rises, falls, List.take_add_one, here, Option.toList_some, Nat.add_sub_cancel]
      simp [odd, Nat.add_mod]

end

/-! ## The octets shifted out and in (R157) -/

section
variable (o : Byte) (os rest : List Byte) (k : Nat)

theorem msbFirst_at {j : Nat} (inside : j < 8) : (msbFirst o)[j]? = some ((msbFirst o).getD j false) := by
  rw [List.getD_eq_getElem?_getD, List.getElem?_eq_getElem (l := msbFirst o) inside]
  rfl

theorem msbFirst_zero {j : Nat} (inside : j < 8) : (msbFirst 0)[j]? = some false := by
  revert j
  decide

/-- R157: the bit numbered k of some octets, and 0 after them. -/
theorem msbFirst_flatMap_at : (msbFirst (os.getD (k / 8) 0))[k % 8]? = some ((os.flatMap msbFirst).getD k false) := by
  have inside : k % 8 < 8 := Nat.mod_lt _ (by decide)
  induction os generalizing k with
  | nil => exact msbFirst_zero inside
  | cons o os ih =>
    have eight : (msbFirst o).length = 8 := rfl
    rw [List.flatMap_cons]
    rcases Nat.lt_or_ge k 8 with first | later
    · rw [Nat.div_eq_of_lt first, Nat.mod_eq_of_lt first, List.getD_append _ _ _ _ first]
      exact msbFirst_at o first
    · obtain ⟨k, rfl⟩ := Nat.exists_eq_add_of_le' later
      rw [List.getD_append_right _ _ _ _ later, eight, Nat.add_sub_cancel, Nat.add_div_right k (by decide), Nat.add_mod_right]
      exact ih k (Nat.mod_lt _ (by decide))

theorem shiftedOut_eq (p : Port) (n : Nat) : p.shiftedOut n = (List.replicate 4 0 ++ p.response).getD n 0 := by
  rw [Port.shiftedOut]
  split
  next zero =>
    rw [List.getD_append _ _ _ _ zero]
    revert n
    decide
  next after => rw [List.getD_append_right _ _ _ _ (Nat.not_lt.mp after)]; rfl

/-- R157: MDO after k falling edges. -/
theorem mdo_selected (p : Port) {x : PortShift} (active : x.pins.select = true) :
    p.mdo? x = some (((List.replicate 4 0 ++ p.response).flatMap msbFirst).getD x.falls false) := by
  rw [Port.mdo?, if_pos active, shiftedOut_eq, msbFirst_flatMap_at]

/-- R157: sixteen bits come to the request octet and the argument octet. -/
theorem shiftedIn_two (request argument : Byte) :
    shiftedIn (((request :: argument :: rest).flatMap msbFirst).take 16) = [request, argument] :=
  congrArg₂ (fun x y => [x, y]) (ofMsbFirst_bits request) (ofMsbFirst_bits argument)

end

/-! ## The outputs and the commands of a transaction (R157, R158, R160) -/

section
variable (now : Time) (s : State) (request argument : Byte) (rest : List Byte) {x : PortShift} {i : Nat}

/-- R157: MDO after the level numbered i. -/
theorem mdo_shifted (p : Port) {bits : List Bool} (idle : x.pins.select = false) (inside : i ≤ 2 * bits.length) :
    p.mdo? (shiftedAt bits x i) =
      some (((List.replicate 4 0 ++ p.response).flatMap msbFirst).getD ((i - 1) / 2) false) := by
  obtain ⟨_, here⟩ := shiftedAt_eq (bits := bits) idle inside
  rw [here, mdo_selected p rfl]

theorem shiftedAt_bits {bits : List Bool} (idle : x.pins.select = false) (inside : i ≤ 2 * bits.length) :
    (shiftedAt bits x i).bits = bits.take (i / 2) := by
  obtain ⟨_, here⟩ := shiftedAt_eq (bits := bits) idle inside
  rw [here]

/-- R157: the request is made at the sixteenth rising edge, which is the level numbered 32. -/
theorem command_requests {bits : List Bool} (sent : (request :: argument :: rest).flatMap msbFirst = bits)
    (idle : x.pins.select = false) (inside : i < 2 * bits.length) :
    ((portLevels bits)[i + 1]?.bind fun p => (shiftedAt bits x i).command? now s p) =
      if i = 31 then portCommand? now [request, argument] else none := by
  obtain ⟨bit, -, level⟩ := portLevels_next inside
  obtain ⟨_, before⟩ := shiftedAt_eq (bits := bits) idle inside.le
  obtain ⟨_, next⟩ := shiftedAt_eq (bits := bits) (i := i + 1) idle inside
  rw [level, Option.bind_some, PortShift.command?, if_pos rfl, ← shiftedAt_succ level, before, next]
  have completes : (bits.take (i / 2)).length < 16 ∧ (bits.take ((i + 1) / 2)).length = 16 ↔ i = 31 := by
    rw [List.length_take, List.length_take]
    omega
  refine ite_congr (propext completes) (fun last => ?_) fun _ => rfl
  rw [last, ← sent, shiftedIn_two]

/-- R160: MCS ends with i / 2 bits of the transaction shifted. -/
theorem command_ends (bits : List Bool) (idle : x.pins.select = false) (inside : i ≤ 2 * bits.length) :
    (shiftedAt bits x i).command? now s ⟨false, false, false⟩ =
      if s.record.sent = true ∧ 32 + 8 * s.port.response.length ≤ i / 2 then some (.takeRecordComplete now) else none := by
  obtain ⟨_, before⟩ := shiftedAt_eq (bits := bits) idle inside
  rw [before, PortShift.command?, if_neg Bool.false_ne_true, State.portEnd?]
  refine ite_congr (propext ?_) (fun _ => rfl) fun _ => rfl
  rw [Bool.and_eq_true, decide_eq_true_iff, List.length_take]
  exact and_congr_right fun _ => by omega

end

end Sys2Proof.Machine
end

section
/-! SUPPORT. The response records of the maintenance port (R158, R165; O51): the fields of a record at their offsets, the records
that hold a list of blocks, and the outputs and stations that an argument names. -/

namespace Sys2Proof.Machine

/-! ## Fields at offsets -/

/-- R165: a record holds each of these fields at its offset. -/
def Shows (record : List Byte) (fields : List (Nat × List Byte)) : Prop :=
  ∀ f ∈ fields, (record.drop f.1).take f.2.length = f.2

/-- The octets of a record at the offsets and of the lengths of some fields. -/
def octetsAt (record : List Byte) : List (Nat × List Byte) → List (List Byte)
  | [] => []
  | f :: fields => (record.drop f.1).take f.2.length :: octetsAt record fields

section
variable {record : List Byte} {fields : List (Nat × List Byte)}

/-- Fields whose lengths stand written out are read off the record. -/
theorem shows_of_read (read : octetsAt record fields = fields.map Prod.snd) : Shows record fields := by
  induction fields with
  | nil => exact nofun
  | cons f fields ih =>
    obtain ⟨here, later⟩ := List.cons.inj read
    exact List.forall_mem_cons.mpr ⟨here, ih later⟩

/-- Fields of a block m octets into the part of the record from offset n on, by their offsets in the record. -/
theorem Shows.of_drop {n m : Nat} (h : Shows (record.drop (n + m)) fields) :
    Shows record (fields.map fun f => (n + f.1 + m, f.2)) := by
  intro f member
  obtain ⟨g, there, rfl⟩ := List.mem_map.mp member
  have read := h g there
  rw [List.drop_drop, Nat.add_right_comm] at read
  exact read

end

/-! ## Blocks of one length -/

section
variable {α : Type} {f : α → List Byte} {k : Nat}

theorem length_blocks (each : ∀ a, (f a).length = k) (l : List α) : (l.flatMap f).length = k * l.length := by
  rw [List.length_flatMap, funext each, List.map_const', List.sum_replicate, smul_eq_mul, Nat.mul_comm]

theorem drop_blocks (each : ∀ a, (f a).length = k) {l : List α} {i : Nat} {a : α} (here : l[i]? = some a)
    (rest : List Byte) : ∃ after, (l.flatMap f ++ rest).drop (k * i) = f a ++ after := by
  induction l generalizing i with
  | nil => cases here
  | cons b l ih =>
    rw [List.flatMap_cons, List.append_assoc]
    cases i with
    | zero => exact ⟨_, by rw [Option.some.inj here]; rfl⟩
    | succ i =>
      rw [Nat.mul_succ, Nat.add_comm, ← List.drop_drop, ← each b, List.drop_left, each b]
      exact ih here

/-- The fields of the block numbered i of the blocks from offset n on. -/
theorem shows_block {record rest : List Byte} {fields : List (Nat × List Byte)} {n i : Nat} {l : List α} {a : α}
    (start : record.drop n = l.flatMap f ++ rest) (each : ∀ a, (f a).length = k) (here : l[i]? = some a)
    (block : ∀ after, Shows (f a ++ after) fields) : Shows (record.drop (n + k * i)) fields := by
  obtain ⟨after, there⟩ := drop_blocks each here rest
  rw [← List.drop_drop, start, there]
  exact block after

theorem indexes_at {n : Nat} (i : Fin n) : (indexes n)[i.val]? = some i := by
  simp [indexes]

end

/-! ## Fields that a match gives -/

section
variable (now : Time)

theorem timerField_eq (t : Option Time) :
    timerField now t = be32 (t.elim 0xFFFFFFFF fun deadline => remaining now deadline) := by cases t <;> rfl

theorem instantField_eq (i : Option Instant) : instantField i = be32 (i.elim 0 fun i => i.reading.toNat) := by
  cases i <;> rfl

theorem cadenceField_eq (cycle : Nat) (c : Option Cadence) :
    cadenceField now cycle c = be16 (c.elim 0xFFFF fun c => c.at_ cycle now) := by cases c <;> rfl

theorem outputField_eq (o : Option Output) : outputField o = o.elim 0xFF fun o => octet o.val := by cases o <;> rfl

theorem leaderField_eq (k : Option Station) : leaderField k = k.elim 0 stationOctet := by cases k <;> rfl

theorem optionOctet_eq (x : Option Byte) : optionOctet x = x.getD 0 := by cases x <;> rfl

theorem sat16_toNat (n : Nat) : (sat16 n).toNat = min 65535 n := by
  rw [sat16, BitVec.toNat_ofNat, Nat.min_comm]
  omega

end

/-! ## What an argument names (R158) -/

section
variable {s : State} {argument : Byte} {o : Output} {k : Station} {p : OutputRole → Bool}

theorem namedOutput_eq (names : argument.toNat = o.val) :
    s.namedOutput p argument = if p (s.role o) then some o else none := by
  split
  next role =>
    refine find_indexes.mpr ⟨?_, fun j before => ?_⟩
    · simp [names, role]
    · simp [names, Fin.val_ne_of_ne before.ne]
  next role =>
    refine find_indexes_none.mpr fun j => ?_
    by_cases same : j = o
    · simp [same, role]
    · simp [names, Fin.val_ne_of_ne same]

theorem namedOutput_none (high : 4 ≤ argument.toNat) : s.namedOutput p argument = none :=
  find_indexes_none.mpr fun j => by
    have other : j.val ≠ argument.toNat := by omega
    simp [other]

theorem valveRecord_named (names : argument.toNat = o.val) (valve : (s.role o).isValve = true) :
    s.valveRecord argument = responseOk :: s.valveFields o := by
  rw [State.valveRecord, namedOutput_eq names, if_pos valve]

theorem sirensRecord_named (names : argument.toNat = o.val) (siren : (s.role o).isSiren = true) :
    s.sirensRecord argument = responseOk :: s.sirenFields o := by
  rw [State.sirensRecord, namedOutput_eq names, if_pos siren]

theorem valveRecord_unnamed (unnamed : s.namedOutput OutputRole.isValve argument = none) : s.valveRecord argument = [2] := by
  rw [State.valveRecord, unnamed]
  rfl

theorem sirensRecord_unnamed (unnamed : s.namedOutput OutputRole.isSiren argument = none) : s.sirensRecord argument = [2] := by
  rw [State.sirensRecord, unnamed]
  rfl

theorem namedOutput_other (names : argument.toNat = o.val) (role : p (s.role o) = false) :
    s.namedOutput p argument = none := by
  rw [namedOutput_eq names, role]
  rfl

theorem ownNumber_started (started : s.started = true) : s.ownNumber = s.setup.number.val := if_pos started

theorem peerRecord_unnamed (started : s.started = true)
    (h : argument.toNat = 0 ∨ 32 ≤ argument.toNat ∨ argument.toNat = s.setup.number.val) : s.peerRecord argument = [2] := by
  unfold State.peerRecord
  split
  · refine if_pos ?_
    rcases h with zero | high | own
    · exact .inl (BitVec.eq_of_toNat_eq zero)
    · omega
    · exact .inr (own.trans (ownNumber_started started).symm)
  · rfl

theorem peerRecord_named (started : s.started = true) (names : argument.toNat = k.val) (real : k ≠ 0)
    (other : k ≠ s.setup.number) : s.peerRecord argument = responseOk :: s.peers[k].fields := by
  have inside : argument.toNat < 32 := names ▸ k.isLt
  obtain rfl : k = ⟨argument.toNat, inside⟩ := Fin.ext names.symm
  have nonzero : argument ≠ 0 := fun zero => real (Fin.ext (show argument.toNat = 0 from congrArg BitVec.toNat zero))
  have foreign : argument.toNat ≠ s.ownNumber := fun own => other (Fin.ext (own.trans (ownNumber_started started)))
  rw [State.peerRecord, dif_pos inside]
  exact if_neg (not_or.mpr ⟨nonzero, foreign⟩)

end

end Sys2Proof.Machine
end

section
/-! SUPPORT. Each response record by the fields and the blocks that it holds (R158, R165), and the requests of the maintenance port
(O51). -/

namespace Sys2Proof.Machine

/-! ## Requests (R158) -/

/-- R158: a request octet that is none of the nine. -/
theorem respond_unknown {s : State} {request argument : Byte} (outside : request.toNat = 0 ∨ 9 < request.toNat) :
    s.respond request argument = [1] := by
  rw [State.respond]
  rcases outside with zero | high
  · rw [zero]
    rfl
  · obtain ⟨n, above⟩ := Nat.exists_eq_add_of_le' high
    rw [above]
    rfl

theorem exec_unknown (now : Time) (request argument : Byte) (s : State) (outside : request.toNat = 0 ∨ 9 < request.toNat) :
    exec (.unknown now request argument) s = .next { s with
      clock := now, port := ⟨[1]⟩, record := { s.record with sent := false } } := by
  have other : (request == requestTakeRecord) = false := by
    refine beq_eq_false_iff_ne.mpr fun same => ?_
    rw [same] at outside
    revert outside
    decide
  have meaning : exec (.unknown now request argument) s = answer ((s.takeAt now).transact request argument) := rfl
  rw [meaning, State.transact, respond_unknown outside, other]
  rfl

section
variable (s : State) (d : System)

/-! ## STATUS -/

theorem State.identity_started (started : s.started = true) : s.identity =
    [stationOctet s.setup.number, octet s.setup.zone.val, octet s.setup.system.val, s.setup.roles.toOctet] :=
  if_pos started

theorem State.identity_unstarted (unstarted : s.started = false) : s.identity =
    [s.imageOctet 1, s.imageOctet 2, s.imageOctet 3, s.start.image.elim 0 fun image => (imageRoles image).toOctet] := by
  rw [State.identity, unstarted]
  cases s.start.image <;> rfl

theorem State.identity_length : s.identity.length = 4 := by
  cases started : s.started
  · rw [s.identity_unstarted started]; rfl
  · rw [s.identity_started started]; rfl

theorem State.statusRecord_length : s.statusRecord.length = 29 := by
  simp only [State.statusRecord, List.length_append, identity_length]
  rfl

/-! ## ZONES -/

theorem State.viewFields_eq : s.viewFields d = [flagOctet (s.viewData d).isSome, s.views[d].source.elim 0 stationOctet,
    flagOctet s.views[d].clash] ++ (s.viewData d).elim (List.replicate 7 0) fun v =>
      [octet v.phase.code] ++ be16 v.velocity ++ be16 v.age ++ [flagOctet v.lowFlow, octet v.causes.toNat] := by
  unfold State.viewFields
  cases s.views[d].source <;> cases s.viewData d <;> rfl

theorem State.viewFields_length : (s.viewFields d).length = 10 := by
  rw [viewFields_eq]
  cases s.viewData d <;> rfl

/-- R165: a duct system's entry. -/
theorem State.shows_viewFields (after : List Byte) : Shows (s.viewFields d ++ after)
    [(0, [flagOctet (s.viewData d).isSome]), (1, [s.views[d].source.elim 0 stationOctet]),
     (2, [flagOctet s.views[d].clash]), (3, (s.viewData d).elim (List.replicate 7 0) fun v =>
       [octet v.phase.code] ++ be16 v.velocity ++ be16 v.age ++ [flagOctet v.lowFlow, octet v.causes.toNat])] := by
  rw [viewFields_eq]
  cases s.viewData d <;> exact shows_of_read rfl

theorem State.zoneFields_length (z : Zone) : (s.zoneFields z).length = 3 := rfl

/-- R165: a zone's entry. -/
theorem State.shows_zone (z : Zone) : Shows s.zonesRecord [(1 + 3 * z.val, s.zoneFields z)] :=
  (shows_block (n := 1) rfl s.zoneFields_length (indexes_at z) fun _ =>
    shows_of_read (fields := [(0, s.zoneFields z)]) rfl).of_drop

theorem State.zoneBlocks_length : ((indexes 16).flatMap s.zoneFields).length = 48 :=
  (length_blocks s.zoneFields_length _).trans (by rw [indexes, List.length_finRange])

theorem State.viewBlocks_length : ((indexes 4).flatMap s.viewFields).length = 40 :=
  (length_blocks s.viewFields_length _).trans (by rw [indexes, List.length_finRange])

theorem State.zonesRecord_length : s.zonesRecord.length = 89 := by
  rw [State.zonesRecord, List.length_cons, List.length_append, zoneBlocks_length, viewBlocks_length]

theorem State.zonesRecord_views : s.zonesRecord.drop 49 = (indexes 4).flatMap s.viewFields ++ [] :=
  (List.drop_left' s.zoneBlocks_length).trans (List.append_nil _).symm

/-! ## COUNTERS -/

theorem channelFields_length (x : SparkChannel) : x.fields.length = 13 := rfl

/-- R165: a channel's entry. -/
theorem shows_channelFields (x : SparkChannel) (after : List Byte) : Shows (x.fields ++ after)
    [(0, field16 x.sparks ++ field16 x.tests ++ field16 x.noise),
     (6, [octet (bitAt x.blinded 0 + bitAt x.silent 1 + bitAt x.noisy 2), flagOctet x.storm.isSome,
       x.storm.elim 0 fun m => octet m.exitCount]),
     (9, be16 (min 65535 (windowCount x.sparkBuckets))), (11, be16 (min 65535 (windowCount x.noiseBuckets)))] := by
  rw [← sat16_toNat, ← sat16_toNat, SparkChannel.fields]
  cases x.storm <;> exact shows_of_read rfl

theorem State.channelBlocks_length : ((indexes 4).flatMap fun c => (s.channel c).fields).length = 52 :=
  (length_blocks (fun c => channelFields_length (s.channel c)) _).trans (by rw [indexes, List.length_finRange])

theorem State.countersRecord_channels :
    s.countersRecord.drop 25 = ((indexes 4).flatMap fun c => (s.channel c).fields) ++ [] :=
  (List.append_nil _).symm

theorem State.countersRecord_length : s.countersRecord.length = 77 :=
  congrArg (25 + ·) s.channelBlocks_length

/-! ## FAN -/

theorem fanFields_length (e : Extraction) (now : Time) (age : Nat) (contactor gate : Bool) :
    (e.fields now age contactor gate).length = 24 := by
  rw [Extraction.fields, timerField_eq]
  rfl

theorem State.fanRecord_length : s.fanRecord.length = 25 := by
  unfold State.fanRecord
  split <;> exact congrArg (· + 1) (fanFields_length ..)

theorem State.fanRecord_standby (fanless : s.hasFan = false) :
    s.fanRecord = List.replicate 4 0 ++ List.replicate 4 0xFF ++ List.replicate 17 0 := by
  rw [State.fanRecord, if_neg (Bool.eq_false_iff.mp fanless)]
  rfl

/-! ## PEER -/

theorem contentField_eq (c : Option StateContent) : contentField c = c.elim (List.replicate 14 0) StateContent.payload := by
  cases c <;> rfl

theorem contentField_length (c : Option StateContent) : (contentField c).length = 14 := by cases c <;> rfl

theorem peerFields_length (p : Peer) : (responseOk :: p.fields).length = 39 := by
  simp only [Peer.fields, instantField_eq, List.length_cons, List.length_append, contentField_length]
  rfl

/-- R165: a peer entry. -/
theorem shows_peerFields (p : Peer) : Shows (responseOk :: p.fields)
    [(0, [responseOk]), (1, [octet p.presence.code]), (2, [p.presentItems]), (3, instantField p.heardA),
     (7, instantField p.heardB), (11, instantField p.since), (15, [flagOctet p.known]), (16, contentField p.content),
     (30, instantField p.received), (34, [optionOctet (p.override.map fun z => octet z.val)]),
     (35, [optionOctet p.silence]), (36, [optionOctet p.reset]), (37, [p.rejoins]), (38, [flagOctet p.single.isSome])] := by
  have content := contentField_length p.content
  simp only [Peer.fields, instantField_eq]
  generalize contentField p.content = octets at content ⊢
  match octets, content with
  | [_, _, _, _, _, _, _, _, _, _, _, _, _, _], _ => exact shows_of_read rfl

theorem override_octet (z : Option Zone) :
    optionOctet (z.map fun z => octet z.val) = z.elim 0 fun z => octet z.val := by cases z <;> rfl

/-! ## VALVE -/

theorem State.drivenOutput_valve (o : Output) (valve : (s.role o).isValve = true) : s.drivenOutput o = (s.valve o).state.on := by
  unfold State.drivenOutput
  cases role : s.role o with
  | valve => rfl
  | _ => rw [role] at valve; cases valve

theorem openTime_eq (now : Time) (v : Valve) : v.openTime now = v.openSince.elim 0 fun i => i.elapsed now := by
  rw [Valve.openTime]
  cases v.openSince <;> rfl

theorem lastReportFields_eq (last : Option LastReport) : lastReportFields last =
    last.elim (List.replicate 21 0) fun r =>
      [1, octet r.source.code, stationOctet r.station, octet r.branch.val] ++ be16 r.position ++
      [octet r.outcome.code] ++ be32 r.computed.toNat ++ [octet (bitAt r.late 0 + bitAt r.clipped 1)] ++
      (r.window.elim (List.replicate 8 0) fun w => be32 w.1.toNat ++ be32 w.2.toNat) ++
      [r.reason.elim 0 fun reason => octet reason.code] := by
  cases last with
  | none => rfl
  | some r =>
    rw [lastReportFields, Option.elim_some]
    cases r.window <;> cases r.reason <;> rfl

theorem lastReportFields_length (last : Option LastReport) : (lastReportFields last).length = 21 := by
  cases last with
  | none => rfl
  | some r =>
    rw [lastReportFields]
    cases r.window <;> rfl

theorem windowFields_length (w : Window) : w.fields.length = 9 := rfl

/-- R165: a valve output, up to the number of its windows. -/
theorem State.shows_valveFields (o : Output) : Shows (responseOk :: s.valveFields o)
    [(0, [responseOk]), (1, (s.valve o).outcomes.fields), (15, lastReportFields (s.valve o).last),
     (36, [octet (s.valve o).state.code]), (37, [flagOctet (s.valve o).state.on]), (38, [flagOctet (s.feedback o)]),
     (39, [(s.valve o).faultBits]), (40, [flagOctet s.flood[s.valveSystem o]]),
     (41, be16 (s.setup.cutOffSeconds s.flood[s.valveSystem o])), (43, be32 ((s.valve o).openTime s.clock)),
     (47, (s.valve o).counters.fields), (61, field16 (s.valve o).saturations), (63, [octet (s.valve o).schedule.length])] := by
  have last := lastReportFields_length (s.valve o).last
  simp only [State.valveFields, List.append_assoc]
  generalize lastReportFields (s.valve o).last = report at last ⊢
  match report, last with
  | [_, _, _, _, _, _, _, _, _, _, _, _, _, _, _, _, _, _, _, _, _], _ => exact shows_of_read rfl

theorem State.valveFields_windows (o : Output) :
    (responseOk :: s.valveFields o).drop 64 = (s.valve o).schedule.flatMap Window.fields ++ [] := by
  have last := lastReportFields_length (s.valve o).last
  simp only [State.valveFields, List.append_assoc, List.append_nil]
  generalize lastReportFields (s.valve o).last = report at last ⊢
  match report, last with
  | [_, _, _, _, _, _, _, _, _, _, _, _, _, _, _, _, _, _, _, _, _], _ => rfl

theorem State.valveFields_length (o : Output) :
    (responseOk :: s.valveFields o).length = 64 + 9 * (s.valve o).schedule.length := by
  have windows := congrArg List.length (s.valveFields_windows o)
  rw [List.length_drop, List.append_nil, length_blocks windowFields_length] at windows
  have head : 64 ≤ (responseOk :: s.valveFields o).length := by
    simp only [State.valveFields, List.length_cons, List.length_append, lastReportFields_length]
    simp [OutcomeCounters.fields, ValveCounters.fields, field16, be16, be32, be24]
    omega
  omega

/-! ## SIRENS -/

theorem claimFields_length (c : Claim) : c.fields.length = 7 := rfl

/-- R140: the claims in list order, and an ALL_CLEAR claim after them. -/
theorem claimFields_flatten (u : Siren) : u.claimFields.flatten = u.claims.flatMap Claim.fields ++
    u.allClear.elim [] fun i => [0xFF, 0] ++ field32 i.reading ++ [0] := by
  rw [Siren.claimFields, List.flatten_append, List.flatMap_def]
  cases u.allClear <;> rfl

theorem claimFields_count (u : Siren) : u.claimFields.length = u.claims.length + u.allClear.toList.length := by
  rw [Siren.claimFields, List.length_append, List.length_map]
  cases u.allClear <;> rfl

/-- R165: a siren output, up to the number of its claims. -/
theorem State.shows_sirenFields (o : Output) : Shows (responseOk :: s.sirenFields o)
    [(0, [responseOk]), (1, [octet (s.siren o).pattern.code]), (2, [flagOctet (s.siren o).driven]),
     (3, [flagOctet (s.feedback o)]), (4, be16 ((s.siren o).absenceAt s.clock)), (6, [flagOctet (s.siren o).fault]),
     (7, [flagOctet (s.siren o).fireSeen]), (8, timerField s.clock s.sirens.resound),
     (12, cadenceField s.clock Config.slowCycle s.sirens.slow), (14, cadenceField s.clock Config.fastCycle s.sirens.fast),
     (16, [leaderField s.sirens.slowLeader]), (17, [leaderField s.sirens.fastLeader]),
     (18, [octet (s.siren o).claimFields.length])] := by
  rw [State.sirenFields, timerField_eq, cadenceField_eq, cadenceField_eq]
  exact shows_of_read rfl

theorem State.sirenFields_claims (o : Output) :
    (responseOk :: s.sirenFields o).drop 19 = (s.siren o).claims.flatMap Claim.fields ++
      (s.siren o).allClear.elim [] fun i => [0xFF, 0] ++ field32 i.reading ++ [0] := by
  rw [State.sirenFields, timerField_eq, cadenceField_eq, cadenceField_eq, ← claimFields_flatten]
  rfl

/-- R165: an ALL_CLEAR claim stands after the others. -/
theorem State.shows_allClear {o : Output} {i : Instant} (clear : (s.siren o).allClear = some i) :
    Shows ((responseOk :: s.sirenFields o).drop (19 + 7 * (s.siren o).claims.length))
      [(0, [0xFF, 0]), (2, field32 i.reading), (6, [0])] := by
  rw [← List.drop_drop, s.sirenFields_claims, List.drop_left' (length_blocks claimFields_length _), clear]
  exact shows_of_read rfl

theorem State.sirenFields_length (o : Output) : (responseOk :: s.sirenFields o).length =
    19 + 7 * ((s.siren o).claims.length + (s.siren o).allClear.toList.length) := by
  have claims := congrArg List.length (s.sirenFields_claims o)
  rw [List.length_drop, List.length_append, length_blocks claimFields_length] at claims
  have clear : ((s.siren o).allClear.elim [] fun i => [0xFF, 0] ++ field32 i.reading ++ [0]).length =
      7 * (s.siren o).allClear.toList.length := by
    cases (s.siren o).allClear <;> rfl
  have head : 19 ≤ (responseOk :: s.sirenFields o).length := by
    rw [State.sirenFields, timerField_eq, cadenceField_eq, cadenceField_eq, List.length_cons, List.length_append]
    exact Nat.succ_le_succ (Nat.le_add_right 18 _)
  omega

/-! ## BARRIERS -/

theorem State.drivenOutput_barrier (o : Output) (barrier : (s.role o).isBarrier = true) : s.drivenOutput o = s.barrierOn o := by
  unfold State.drivenOutput
  cases role : s.role o with
  | magnet | shutter | damper => rfl
  | _ => rw [role] at barrier; cases barrier

theorem State.barrierTime_eq (o : Output) : s.barrierTime o =
    if (s.role o).isMagnet then
      be32 ((s.barrier o).travelTimer.elim 0xFFFFFFFF fun deadline => remaining s.clock deadline)
    else be32 ((s.barrier o).run.elim ((s.barrier o).kept.getD 0) fun run => remaining s.clock run.2) := by
  rw [State.barrierTime, timerField_eq]
  cases (s.barrier o).run <;> rfl

theorem State.barrierTime_length (o : Output) : (s.barrierTime o).length = 4 := by
  rw [s.barrierTime_eq]
  split <;> rfl

theorem waitField_length (now : Time) (w : DamperWait) : (waitField now w).length = 2 := by cases w <;> rfl

theorem State.damperFields_length (o : Output) : (s.damperFields o).length = 5 := by
  unfold State.damperFields
  split
  · rw [List.length_append, waitField_length]
    rfl
  · rfl

theorem State.damperFields_eq (o : Output) : s.damperFields o = match s.role o with
    | .damper _ _ _ d => [octet d.val, flagOctet (s.mayRun o), octet (s.barrier o).wait.code] ++
        match (s.barrier o).wait with
        | .running deadline => be16 (remaining s.clock deadline)
        | .idle | .expired => [0xFF, 0xFF]
    | _ => List.replicate 5 0 := by
  unfold State.damperFields
  cases s.role o with
  | damper => cases (s.barrier o).wait <;> rfl
  | _ => rfl

theorem State.barrierFields_length (o : Output) : (s.barrierFields o).length = 19 := by
  simp only [State.barrierFields, List.length_append, s.damperFields_length, s.barrierTime_length]
  rfl

/-- R136, R165: a barrier's entry. -/
theorem State.shows_barrierFields (o : Output) (after : List Byte) : Shows (s.barrierFields o ++ after)
    [(0, [octet o.val]), (1, [octet (s.role o).code]), (2, [octet (s.barrier o).state.code]),
     (3, [flagOctet (s.barrierOn o)]), (4, [flagOctet (s.feedback o)]), (5, be16 (s.role o).trigger.toNat),
     (7, [flagOctet (s.releaseHolds o)]), (8, s.barrierTime o), (12, [octet (s.barrier o).attempts]),
     (13, [octet (s.role o).rank]), (14, s.damperFields o)] := by
  have time := s.barrierTime_length o
  have damper := s.damperFields_length o
  rw [State.barrierFields]
  generalize s.barrierTime o = octets at time ⊢
  generalize s.damperFields o = fields at damper ⊢
  match octets, time, fields, damper with
  | [_, _, _, _], _, [_, _, _, _, _], _ => exact shows_of_read rfl

theorem State.barriersRecord_blocks :
    s.barriersRecord.drop 8 = (s.outputsOf OutputRole.isBarrier).flatMap s.barrierFields ++ [] :=
  (List.append_nil _).symm

theorem State.barriersRecord_length : s.barriersRecord.length = 8 + 19 * (s.outputsOf OutputRole.isBarrier).length := by
  rw [State.barriersRecord, List.length_append, length_blocks s.barrierFields_length]
  rfl

end

/-- Settles O51: the requests by their meaning, each record by its fields and its blocks, and the pins by the levels of a
transaction. -/
theorem portRequestsAnswered : Obligations.PortRequestsAnswered := fun now argument s => by
  refine ⟨?requests, ?take, fun request => exec_unknown now request argument s, s.statusRecord_length, s.zonesRecord_length,
    s.fanRecord_length, s.countersRecord_length, s.barriersRecord_length, ?status, ⟨rfl, s.shows_zone, fun d => ?view⟩,
    ?fan, s.fanRecord_standby, ⟨rfl, ?line, fun c => ?channel⟩, ⟨?barriers, ?barrier⟩,
    fun started => ⟨peerRecord_unnamed started, ?peerNamed⟩, ?peer, fun o names => ⟨?valve, ?siren,
      fun other => valveRecord_unnamed (namedOutput_other names other),
      fun other => sirensRecord_unnamed (namedOutput_other names other)⟩,
    fun high => ⟨valveRecord_unnamed (namedOutput_none high), sirensRecord_unnamed (namedOutput_none high)⟩, ?pins⟩
  case requests =>
    simp only [List.forall_mem_cons]
    exact ⟨rfl, rfl, rfl, rfl, rfl, rfl, rfl, rfl, nofun⟩
  case take =>
    have meaning := exec_takeRecord now argument s
    rw [takeRecord_eq] at meaning
    exact meaning
  case status =>
    refine shows_of_read ?_
    cases started : s.started
    · rw [State.statusRecord, s.identity_unstarted started]
      rfl
    · rw [State.statusRecord, s.identity_started started]
      rfl
  case view => exact (shows_block s.zonesRecord_views s.viewFields_length (indexes_at d) (s.shows_viewFields d)).of_drop
  case fan =>
    intro fan
    refine shows_of_read ?_
    rw [State.fanRecord, if_pos fan, Extraction.fields, timerField_eq]
    rfl
  case line => exact fun l => by cases l <;> exact shows_of_read rfl
  case channel =>
    exact (shows_block s.countersRecord_channels (fun c => channelFields_length (s.channel c)) (indexes_at c)
      (shows_channelFields (s.channel c))).of_drop
  case barriers =>
    refine shows_of_read ?_
    rw [State.barriersRecord, outputField_eq, outputField_eq, outputField_eq, outputField_eq]
    rfl
  case barrier =>
    intro i o here
    have barrier : (s.role o).isBarrier = true := (List.mem_filter.mp (List.mem_of_getElem? here)).2
    have shown := shows_block s.barriersRecord_blocks s.barrierFields_length here (s.shows_barrierFields o)
    rw [s.barrierTime_eq, ← s.drivenOutput_barrier o barrier, s.damperFields_eq] at shown
    exact shown
  case peerNamed =>
    intro first last other
    rw [peerRecord_named (k := ⟨argument.toNat, last⟩) started rfl (Fin.ne_of_val_ne (Nat.ne_of_gt first))
      (Fin.ne_of_val_ne other)]
    exact ⟨peerFields_length _, rfl⟩
  case peer =>
    intro k started names real other
    have shown := shows_peerFields s.peers[k]
    simp only [instantField_eq, contentField_eq, override_octet] at shown
    simp only [optionOctet_eq] at shown
    rw [peerRecord_named started names real other]
    exact shown
  case valve =>
    intro valve
    have shown := s.shows_valveFields o
    rw [lastReportFields_eq, openTime_eq] at shown
    rw [valveRecord_named names valve, s.drivenOutput_valve o valve]
    exact ⟨s.valveFields_length o, shown, fun i w here =>
      shows_block (s.valveFields_windows o) windowFields_length here fun _ => shows_of_read rfl⟩
  case siren =>
    intro siren
    have shown := s.shows_sirenFields o
    rw [timerField_eq, cadenceField_eq, cadenceField_eq, leaderField_eq, leaderField_eq, claimFields_count] at shown
    rw [sirensRecord_named names siren, drivenOutput_siren siren]
    exact ⟨s.sirenFields_length o, shown, fun i c here =>
      shows_block (s.sirenFields_claims o) claimFields_length here fun _ => shows_of_read rfl,
      fun i clear => s.shows_allClear clear⟩
  case pins =>
    intro request rest x i idle sent pins taken inside
    have levels : pins.length - 1 = 2 * sent.length := clockedBits_length sent
    have within : i < 2 * sent.length := levels ▸ inside
    exact ⟨command_requests now s request argument rest rfl idle within, shiftedAt_bits idle within.le,
      mdo_shifted s.port idle within.le, command_ends now s sent idle within.le⟩

end Sys2Proof.Machine
end
